-- ==== Sys2Proof/Word.lean ====
section
/-! DEFINITION. The words of the machine: bytes, the 32-bit and 64-bit words, and the 512-bit line that
descriptors, table entries and cache lines share. -/
namespace Sys2Proof

/-- A byte. -/
abbrev Byte := BitVec 8
/-- A 32-bit word: a register of a set-up block, a ring index, an instruction word. -/
abbrev W32 := BitVec 32
/-- A 64-bit word: a scalar register, an address, a time. -/
abbrev Word := BitVec 64
/-- 64 bytes, byte `k` in bits `8k+7 .. 8k`: a descriptor, a stream table entry, a line. -/
abbrev Line := BitVec 512

/-- Logical cluster numbers 0-47 (R17). -/
abbrev ClusterId := Fin 48
/-- Stream numbers 0-4095 (R43). -/
abbrev StreamId := Fin 4096
/-- Job numbers 0-255 (R32). -/
abbrev JobId := Fin 256
/-- Rings: 0-255 completion rings, 256 the event ring, 257 the fault ring (the head table's order, R84). -/
abbrev RingId := Fin 258
/-- Evoir ports 0-7 (R23). -/
abbrev PortId := Fin 8
/-- Functions: 0 the PF, 1-31 the VFs (R65). -/
abbrev FunctionId := Fin 32
/-- L2 quadrants 0-3 (R15). -/
abbrev QuadId := Fin 4
/-- Memory stacks 0-5 (R13). -/
abbrev StackId := Fin 6

end Sys2Proof
end

