-- ==== Sys2Proof/Syntax.lean ====
section
/-! DEFINITION. The commands of the block: `Instr`, one constructor per row of spec/opcode_table.json, and the
data they carry. A command is one whole step of the device (95_what_each_step_holds): an instruction that a
Kestrel issues, an event of a device engine, a host access, a packet or a management request. -/
namespace Sys2Proof

/-- Error completions of a device read of host memory (R417), with the KIND codes of HIF_ERR_LAST (R418). -/
inductive HostErr where
  | ur | ca | ep | timeout | ecrc
  deriving DecidableEq, Repr

/-- What a device read of host memory came back with (R63). -/
inductive Reply (α : Type) where
  | data (value : α)
  | error (kind : HostErr)
  deriving DecidableEq, Repr

/-- A doorbell word (R69). -/
structure DoorbellWord where
  producer : W32
  seq : W32
  deriving DecidableEq, Repr

/-- The fields of a Harrier or Hearth instruction (R159, R181) beside MAJOR and FUNC, which the constructor names. -/
structure VFields where
  vd : BitVec 5
  va : BitVec 5
  vb : BitVec 5
  vc : BitVec 5
  pg : BitVec 3
  pen : Bool
  pz : Bool
  span : BitVec 2
  etype : BitVec 4
  etype2 : BitVec 4
  gs : BitVec 5
  rm : BitVec 3
  imm8 : Byte
  deriving DecidableEq, Repr

/-- The range caches of a cluster (R271). -/
inductive CachePort where
  | mover | harrierLoad | harrierStore
  deriving DecidableEq, Repr

/-- Master kinds 1-6 of R301. -/
inductive MasterKind where
  | kestrel | harrier | mover | hearth | vf | evoirIn
  deriving DecidableEq, Repr

/-- The three waits of R300 on which a transaction can stay open past 1 ms. -/
inductive XactWait where
  | withdraw (aspace : Fin 1024)
  | drop (st : StreamId)
  | rangeUpdate (aspace : Fin 1024)
  deriving DecidableEq, Repr

/-- What a receiver sees of one symbol of a lane (R359, R362): which of the 16 pilots came inverted against their base polarity, the
squared errors of the 960 equalised data points against the known points of an IDLE symbol, and those of the 16 pilots, in units of
2^-32 of the unit energy (log entry 137). -/
structure SymbolSeen where
  pilots : BitVec 16
  errors : List Nat
  pilotErrors : List Nat
  deriving DecidableEq, Repr

/-- What a receiver sees of the 256 symbols of a superframe of one lane. -/
abbrev LaneMeasure := List SymbolSeen

/-- Where a received codeword stands: its lane, and its place among the codewords of the burst in scrambling order (R366). -/
structure WordPlace where
  lane : Fin 4
  pos : Nat
  deriving DecidableEq, Repr

/-- What EXCHANGE brings (R373): the superframes it took, and the loading table the peer chose for each lane. -/
structure Exchanged where
  frames : Nat
  tables : List (List (BitVec 4))
  deriving DecidableEq, Repr

/-- A fabric packet (R381). `data` holds the data bytes it carries; a READ carries none and
its LEN is what it asks for. -/
structure Packet where
  dst : BitVec 12
  src : BitVec 12
  kind : Byte
  vcb : Bool
  sealedBlk : Bool
  sealValid : Bool
  tag : BitVec 16
  op : Byte
  mkind : Byte
  mnum : Byte
  addr : BitVec 48
  crc : W32
  len : Byte
  data : List Byte
  deriving DecidableEq, Repr

/-- One flash slot as the boot ROM finds it (R431, R448): whether signature and security version verify, the
security version and the image version. -/
structure FlashImage where
  ok : Bool
  svn : BitVec 16
  version : W32
  deriving DecidableEq, Repr

/-- How the host link trains with the slot (R405, R418): the SPEED code and the WIDTH in lanes of HIF_LINK, and FLIT mode. -/
structure LinkTraining where
  speed : BitVec 4
  width : BitVec 6
  flit : Bool
  deriving DecidableEq, Repr

/-- What the device meets at a device reset (R21, R22, R405, R448): the sense pins, auxiliary power, the two flash
slots and which is active, the measurements of R450, the stacks that train, the slices that pass, the cable-present pins, and the link's
partner. -/
structure BootEnv where
  sense0Open : Bool
  sense1Open : Bool
  auxPower : Bool
  slot0 : FlashImage
  slot1 : FlashImage
  measurements : BitVec 1152
  stacksTrain : BitVec 6
  slicesPass : BitVec 64
  cables : BitVec 8
  link : LinkTraining
  deriving DecidableEq, Repr

/-- A VF BAR2 access (R414). -/
inductive VfAccess where
  | read (len : Nat)
  | write (bytes : List Byte)
  deriving DecidableEq, Repr

/-- What an outstanding device read of host memory was for (R63, R417). -/
inductive HostReadFor where
  | ringSlots (st : StreamId)
  | doorbellLine (line : Fin 512)
  | streamTable (st : StreamId)
  | headWord (r : RingId)
  | jobAccess (c : ClusterId) (m : MasterKind)
  deriving DecidableEq, Repr

/-- The commands, in the order of spec/opcode_table.json. -/
inductive Instr where
  /-- DOORBELL_POLL (R71). The device polls a doorbell line when its poll interval expires, or at a period start, and acts on each changed doorbell word, halting a stream whose PRODUCER overruns the ring (R70). -/
  | doorbellPoll (line : Fin 512) (reply : Reply Line)
  /-- DESCRIPTOR_FETCH (R75). A read of descriptor ring slots completes; the device validates the header and then the payload of each descriptor, halting the stream with BAD_DESCRIPTOR on any error. -/
  | descriptorFetch (st : StreamId) (reply : Reply (List Line))
  /-- HEAD_REREAD (R86). The device re-reads a ring's head word, when the ring is nearly full or every 1 µs while a write stays forbidden. -/
  | headReread (r : RingId) (reply : Reply W32)
  /-- HELD_RECORD_WRITE (R94). Room appears in a completion ring or event ring, and the device writes the records it was holding, ending a DROPPING state or a held restart when the last of them is written. -/
  | heldRecordWrite (r : RingId)
  /-- FAULT_RECORD_WRITE (R93). A place appears in the fault ring, and the device writes a fault record that was waiting with its master. -/
  | faultRecordWrite
  /-- COALESCE_TIMEOUT (R90). TIME ticks pass since the oldest unsignalled record of a completion ring, and the device sends the ring's MSI-X message. -/
  | coalesceTimeout (n : JobId)
  /-- MSIX_RELEASE (R415). MSI-X Enable or Function Mask of a function changes so that its messages are released, and the device sends one message for each pending, unmasked vector. -/
  | msixRelease (f : FunctionId) (enable : Bool) (mask : Bool)
  /-- PERIOD_BOUNDARY (R57). A period of a periodic stream ends; the device takes the AMAX snapshots, polls the doorbell line and, if work of the ending period is incomplete, starts the drop. -/
  | periodBoundary (st : StreamId)
  /-- DROP_COMPLETE (R57). The in-flight transactions of a dropping stream complete; AMAX reverts, pending descriptors complete LATE_DROPPED, fault records are voided and the next period begins. -/
  | dropComplete (st : StreamId)
  /-- BUDGET_EXHAUSTED (R49). The cluster-tick charge of a periodic stream reaches its budget, and the device treats the stream as priority 0 until the period ends. -/
  | budgetExhausted (st : StreamId)
  /-- ADMISSION (R50). The device admits a waiting or new job when enough clusters are available, stripping lower-priority jobs if needed and then starting or restoring the job's attempt. -/
  | admission (j : JobId)
  /-- PREEMPTION (R47). The device takes clusters from victim streams under R46, stopping each victim cluster at an instruction boundary to save its context. -/
  | preemption (st : StreamId)
  /-- CONTEXT_SAVE (R125). A cluster's context image, cluster-store bytes and shadow-stack entries finish saving; the cluster is freed, and the stream enters PREEMPTED once its last context is saved. -/
  | contextSave (c : ClusterId)
  /-- CONTEXT_RESTORE (R48). A saved context is restored onto a granted cluster after its CHECK is verified, and it resumes at the instruction where it stopped. -/
  | contextRestore (c : ClusterId)
  /-- CLUSTER_GRANT (R52). The device grants a free live cluster to a job, loading the vector window, seeding the Hearth and zeroing the AMAX slots. -/
  | clusterGrant (j : JobId) (c : ClusterId)
  /-- NOP (R76). The NOP descriptor completes DONE without further effect. -/
  | nop (st : StreamId) (idx : W32)
  /-- JOB_START (R77). The JOB_START descriptor creates a job with the parameters in its payload, after the checks of R33 and R78. -/
  | jobStart (st : StreamId) (idx : W32)
  /-- JOB_END (R80). The JOB_END descriptor without ABORT begins after every earlier descriptor of its stream has its terminal record, and it ends the job's work on that stream. -/
  | jobEnd (st : StreamId) (idx : W32)
  /-- JOB_END_ABORT (R41). The JOB_END descriptor with ABORT set begins at fetch and aborts the job to FAILED. -/
  | jobEndAbort (st : StreamId) (idx : W32)
  /-- FENCE_DESCRIPTOR (R81). The FENCE descriptor completes DONE once the writes of earlier descriptors are visible at SCOPE and, if WAIT_EN = 1, WAIT_STREAM has written terminal records up to WAIT_INDEX. -/
  | fenceDescriptor (st : StreamId) (idx : W32)
  /-- TIMESTAMP (R82). The TIMESTAMP descriptor reads the timebase, writes it to DEST_VA and places it in its completion record. -/
  | timestamp (st : StreamId) (idx : W32)
  /-- PERIOD_MARK (R55). The stream reaches a PERIOD_MARK before its period ends, releases its clusters and waits IDLE until the next period. -/
  | periodMark (st : StreamId) (idx : W32)
  /-- CODE_SYNC (R116). The CODE_SYNC descriptor stops every cluster of the job, drains and cleans each L1D, and then invalidates each L1I. -/
  | codeSync (st : StreamId) (idx : W32)
  /-- KERNEL (R122). The KERNEL descriptor raises DISPATCH on NCL clusters of the job so that the runtime starts ENTRY_VA at J. -/
  | kernel (st : StreamId) (idx : W32)
  /-- COPY (R328). The COPY descriptor copies LENGTH bytes through the mover of JCI in segments, with rights and seals checked. -/
  | copy (st : StreamId) (idx : W32)
  /-- CONVERT (R223). The CONVERT descriptor converts an array through a mover, with optional scaling, DERIVE scaling and AMAX gathering. -/
  | convert (st : StreamId) (idx : W32)
  /-- CONV_STRIPE (R231). The CONV_STRIPE descriptor runs an operator table on NCL clusters, in stripe mode by default. -/
  | convStripe (st : StreamId) (idx : W32)
  /-- CONV_LOAF (R231). The CONV_LOAF descriptor runs an operator table on NCL clusters, in loaf mode by default. -/
  | convLoaf (st : StreamId) (idx : W32)
  /-- POOL (R231). The POOL descriptor runs pooling layers of an operator table on NCL clusters. -/
  | pool (st : StreamId) (idx : W32)
  /-- ATTN (R254). The ATTN descriptor captures the KV header and computes attention over the paged cache on NCL clusters. -/
  | attn (st : StreamId) (idx : W32)
  /-- KV_APPEND (R258). The KV_APPEND descriptor appends NNEW tokens to a paged KV cache through the mover of JCI and commits them with one header write. -/
  | kvAppend (st : StreamId) (idx : W32)
  /-- KV_BUSY_RETRY (R258). 1 µs after finding BUSY set, the KV_APPEND mover retries the compare-and-swap on BUSY. -/
  | kvBusyRetry (st : StreamId) (idx : W32)
  /-- INSERT (R276). The RANGE_UPDATE INSERT descriptor inserts a range entry with a new GEN and invalidates the address space's range caches. -/
  | insert (st : StreamId) (idx : W32)
  /-- MODIFY (R276). The RANGE_UPDATE MODIFY descriptor rewrites a range entry with a new GEN and invalidates the range caches; a narrowing MODIFY then waits for transactions that carry the old GEN. -/
  | modify (st : StreamId) (idx : W32)
  /-- MODIFY_DRAIN_DONE (R276). The transactions that carry the old GEN of a narrowing MODIFY complete, and the RANGE_UPDATE completes DONE. -/
  | modifyDrainDone (st : StreamId) (idx : W32)
  /-- CLEAR_COUNTS (R276). The RANGE_UPDATE CLEAR_COUNTS descriptor zeroes every access counter of a COUNTED entry. -/
  | clearCounts (st : StreamId) (idx : W32)
  /-- WITHDRAW (R298). The WITHDRAW descriptor splits the entry, marks the span WITHDRAWING, invalidates the range caches and stops movers before the span. -/
  | withdraw (st : StreamId) (idx : W32)
  /-- WITHDRAW_REMOVE (R298). The in-flight transactions of a withdrawn span complete; the device removes the span entry and the WITHDRAW completes DONE. -/
  | withdrawRemove (st : StreamId) (idx : W32)
  /-- MIGRATE (R282). The MIGRATE descriptor splits the entry, marks the span MIGRATING, quiesces the caches and starts the copy. -/
  | migrate (st : StreamId) (idx : W32)
  /-- MIGRATE_COPY_SEGMENT (R283). One 4 KiB segment of a MIGRATE copy completes, the cursor advances, and writes held for that segment proceed. -/
  | migrateCopySegment (st : StreamId) (idx : W32)
  /-- MIGRATE_SWAP (R282). The old-GEN transactions of a MIGRATE drain; the device swaps in the new target with a new GEN, resets the span's counters and completes DONE. -/
  | migrateSwap (st : StreamId) (idx : W32)
  /-- RESUME (R294). The RESUME descriptor restarts the master held by an outstanding fault and writes RESUMED records. -/
  | resume (st : StreamId) (idx : W32)
  /-- CHECKPOINT_SAVE (R401). The CHECKPOINT descriptor with MODE SAVE copies the job's metadata and CHECKPOINT ranges into a half of the standby slot and seals it. -/
  | checkpointSave (st : StreamId) (idx : W32)
  /-- CHECKPOINT_RESTORE (R403). The CHECKPOINT descriptor with MODE RESTORE writes the newest SEALED generation of a slot back into the job's ranges and verifies its CRC. -/
  | checkpointRestore (st : StreamId) (idx : W32)
  /-- STB_STREAM_LOAD (R66). A write of STB_STREAM_LOAD with GO = 1 reads and checks a stream table entry and loads, re-arms or disables the stream. -/
  | stbStreamLoad (data : W32) (reply : Reply Line)
  /-- VF_STREAM_LOAD (R413). A VF's write of VF_STREAM_LOAD loads a stream table entry under the VF's FUNCTION checks. -/
  | vfStreamLoad (f : FunctionId) (data : W32) (reply : Reply Line)
  /-- STB_JOB_ABORT (R42). A write of STB_JOB_ABORT with GO = 1 aborts the named job to FAILED. -/
  | stbJobAbort (data : W32)
  /-- RING_ENABLE (R471). A CFG write with ENABLE = 1 enables a completion, event or fault ring and starts its record count at 0. -/
  | ringEnable (r : RingId) (data : W32)
  /-- RING_DISABLE (R90). A CFG write that clears ENABLE disables a ring and discards its unsignalled state. -/
  | ringDisable (r : RingId) (data : W32)
  /-- ASP_LOAD (R265). A write of ASP_LOAD with GO = 1 loads the staged values into the selected address space after checking its table. -/
  | aspLoad (data : W32)
  /-- ERR_UNFREEZE (R305). A write of ERR_UNFREEZE with GO = 1 releases a dumped master from Talon and applies its partial reset. -/
  | errUnfreeze (data : W32)
  /-- ERR_RETIRE_CLEAR (R349). A write of ERR_RETIRE_CLEAR with GO = 1 removes a cluster from the persistent retirement list. -/
  | errRetireClear (data : W32)
  /-- PWR_UNIT_RESET (R446). A write of PWR_UNIT_RESET with GO = 1 starts the partial reset of a unit and increments its epoch. -/
  | pwrUnitReset (data : W32)
  /-- UNIT_RESET_DONE (R446). A unit's partial reset ends, and requests held under R445 are reissued with the new epoch. -/
  | unitResetDone (kind : Byte) (number : Byte)
  /-- STORE_DRAIN_LIMIT (R140). The 2 µs drain limit of a warm cluster reset expires, and the store-buffer entries left are discarded and logged. -/
  | storeDrainLimit (c : ClusterId)
  /-- PWR_L2Q_WAYON (R318). A write of PWR_L2Q_WAYON clears bits to start way power-down, or sets bits to power ways up empty. -/
  | pwrL2qWayon (q : QuadId) (data : W32)
  /-- WAY_OFF (R318). The clean of a CLEANING way ends in every slice of the quadrant, and the way turns OFF. -/
  | wayOff (q : QuadId) (way : Fin 16)
  /-- PWR_L2Q_OFF (R442). A write of PWR_L2Q_OFF requests the power-down of an L2 quadrant whose ways are all OFF. -/
  | pwrL2qOff (data : W32)
  /-- RETRAIN (R373). A write of 1 to EVL_CTL.RETRAIN makes the port train again. -/
  | retrain (p : PortId) (data : W32)
  /-- EVL_DRAIN (R397). A write of EVL_DRAIN.GO puts the port in DRAIN: it sends RING_CUT, stops new flits and waits until every flit is acknowledged. -/
  | evlDrain (p : PortId) (data : W32)
  /-- GEN_SETUP_ERR_READ (R469). A read of GEN_SETUP_ERR returns the count of discarded writes and clears it. -/
  | genSetupErrRead
  /-- STB_EVT_LOST_READ (R62). A read of STB_EVT_LOST returns the count of discarded HOT notices and clears it. -/
  | stbEvtLostRead
  /-- EVL_COUNTER_READ (R376). A read of a port's EVL_CW_FAIL, EVL_CRC_FAIL, EVL_REPLAY or EVL_RETRAIN counter returns it and clears it. -/
  | evlCounterRead (p : PortId) (k : Fin 4)
  /-- TB_TIME_LO_READ (R473). A 4-byte read of TB_TIME_LO returns timebase bits [31:0] and latches bits [63:32] for TB_TIME_HI. -/
  | tbTimeLoRead
  /-- HIF_RING_ERR_CLEAR (R418). A write of 1 to bits of HIF_RING_ERR clears those ring error bits. -/
  | hifRingErrClear (k : Fin 9) (data : W32)
  /-- SETUP_REGISTER_WRITE (R463). A BAR0 or VF BAR0 write to a register with no row of its own is checked as a whole and then performed, or discarded and logged in GEN_SETUP_ERR. -/
  | setupRegisterWrite (f : FunctionId) (off : BitVec 26) (size : Nat) (data : Word)
  /-- ADD (R101). ADD writes g(ra) + g(rb) to g(rd). -/
  | add (c : ClusterId) (rd : BitVec 5) (ra : BitVec 5) (rb : BitVec 5)
  /-- SUB (R101). SUB writes g(ra) − g(rb) to g(rd). -/
  | sub (c : ClusterId) (rd : BitVec 5) (ra : BitVec 5) (rb : BitVec 5)
  /-- AND (R101). AND writes the bitwise AND of g(ra) and g(rb) to g(rd). -/
  | and (c : ClusterId) (rd : BitVec 5) (ra : BitVec 5) (rb : BitVec 5)
  /-- OR (R101). OR writes the bitwise OR of g(ra) and g(rb) to g(rd). -/
  | or (c : ClusterId) (rd : BitVec 5) (ra : BitVec 5) (rb : BitVec 5)
  /-- XOR (R101). XOR writes the bitwise XOR of g(ra) and g(rb) to g(rd). -/
  | xor (c : ClusterId) (rd : BitVec 5) (ra : BitVec 5) (rb : BitVec 5)
  /-- SLL (R481). SLL shifts g(ra) left by g(rb) modulo 64, filling with zeros. -/
  | sll (c : ClusterId) (rd : BitVec 5) (ra : BitVec 5) (rb : BitVec 5)
  /-- SRL (R481). SRL shifts g(ra) right logically by g(rb) modulo 64. -/
  | srl (c : ClusterId) (rd : BitVec 5) (ra : BitVec 5) (rb : BitVec 5)
  /-- SRA (R481). SRA shifts g(ra) right arithmetically by g(rb) modulo 64. -/
  | sra (c : ClusterId) (rd : BitVec 5) (ra : BitVec 5) (rb : BitVec 5)
  /-- SLT (R101). SLT writes 1 to g(rd) if g(ra) < g(rb) signed, else 0. -/
  | slt (c : ClusterId) (rd : BitVec 5) (ra : BitVec 5) (rb : BitVec 5)
  /-- SLTU (R101). SLTU writes 1 to g(rd) if g(ra) < g(rb) unsigned, else 0. -/
  | sltu (c : ClusterId) (rd : BitVec 5) (ra : BitVec 5) (rb : BitVec 5)
  /-- MIN (R101). MIN writes the signed minimum of g(ra) and g(rb) to g(rd). -/
  | min (c : ClusterId) (rd : BitVec 5) (ra : BitVec 5) (rb : BitVec 5)
  /-- MAX (R101). MAX writes the signed maximum of g(ra) and g(rb) to g(rd). -/
  | max (c : ClusterId) (rd : BitVec 5) (ra : BitVec 5) (rb : BitVec 5)
  /-- MINU (R101). MINU writes the unsigned minimum of g(ra) and g(rb) to g(rd). -/
  | minu (c : ClusterId) (rd : BitVec 5) (ra : BitVec 5) (rb : BitVec 5)
  /-- MAXU (R101). MAXU writes the unsigned maximum of g(ra) and g(rb) to g(rd). -/
  | maxu (c : ClusterId) (rd : BitVec 5) (ra : BitVec 5) (rb : BitVec 5)
  /-- ADDI (R101). ADDI writes g(ra) + imm12 to g(rd). -/
  | addi (c : ClusterId) (rd : BitVec 5) (ra : BitVec 5) (imm : BitVec 12)
  /-- ANDI (R101). ANDI writes the bitwise AND of g(ra) and imm12 to g(rd). -/
  | andi (c : ClusterId) (rd : BitVec 5) (ra : BitVec 5) (imm : BitVec 12)
  /-- ORI (R101). ORI writes the bitwise OR of g(ra) and imm12 to g(rd). -/
  | ori (c : ClusterId) (rd : BitVec 5) (ra : BitVec 5) (imm : BitVec 12)
  /-- XORI (R101). XORI writes the bitwise XOR of g(ra) and imm12 to g(rd). -/
  | xori (c : ClusterId) (rd : BitVec 5) (ra : BitVec 5) (imm : BitVec 12)
  /-- SLLI (R481). SLLI shifts g(ra) left by imm12[5:0]. -/
  | slli (c : ClusterId) (rd : BitVec 5) (ra : BitVec 5) (imm : BitVec 12)
  /-- SRLI (R481). SRLI shifts g(ra) right logically by imm12[5:0]. -/
  | srli (c : ClusterId) (rd : BitVec 5) (ra : BitVec 5) (imm : BitVec 12)
  /-- SRAI (R481). SRAI shifts g(ra) right arithmetically by imm12[5:0]. -/
  | srai (c : ClusterId) (rd : BitVec 5) (ra : BitVec 5) (imm : BitVec 12)
  /-- SLTI (R101). SLTI writes 1 to g(rd) if g(ra) < imm12 signed, else 0. -/
  | slti (c : ClusterId) (rd : BitVec 5) (ra : BitVec 5) (imm : BitVec 12)
  /-- LIW (R103). LIW writes imm20, sign-extended, to g(rd). -/
  | liw (c : ClusterId) (rd : BitVec 5) (imm : BitVec 20)
  /-- LIWS (R103). LIWS shifts g(rd) left by 20 and ORs in imm20. -/
  | liws (c : ClusterId) (rd : BitVec 5) (imm : BitVec 20)
  /-- PCA (R103). PCA writes PC + imm20 × 4 to g(rd). -/
  | pca (c : ClusterId) (rd : BitVec 5) (imm : BitVec 20)
  /-- LB (R101). LB loads a sign-extended byte into g(rd). -/
  | lb (c : ClusterId) (rd : BitVec 5) (ra : BitVec 5) (imm : BitVec 12)
  /-- LH (R132). LH loads a sign-extended aligned halfword into g(rd). -/
  | lh (c : ClusterId) (rd : BitVec 5) (ra : BitVec 5) (imm : BitVec 12)
  /-- LW (R132). LW loads a sign-extended aligned word into g(rd). -/
  | lw (c : ClusterId) (rd : BitVec 5) (ra : BitVec 5) (imm : BitVec 12)
  /-- LD (R132). LD loads an aligned doubleword into g(rd). -/
  | ld (c : ClusterId) (rd : BitVec 5) (ra : BitVec 5) (imm : BitVec 12)
  /-- LBU (R101). LBU loads a zero-extended byte into g(rd). -/
  | lbu (c : ClusterId) (rd : BitVec 5) (ra : BitVec 5) (imm : BitVec 12)
  /-- LHU (R132). LHU loads a zero-extended aligned halfword into g(rd). -/
  | lhu (c : ClusterId) (rd : BitVec 5) (ra : BitVec 5) (imm : BitVec 12)
  /-- LWU (R132). LWU loads a zero-extended aligned word into g(rd). -/
  | lwu (c : ClusterId) (rd : BitVec 5) (ra : BitVec 5) (imm : BitVec 12)
  /-- SB (R101). SB stores the low byte of g(rb). -/
  | sb (c : ClusterId) (rb : BitVec 5) (ra : BitVec 5) (imm : BitVec 12)
  /-- SH (R132). SH stores an aligned halfword of g(rb). -/
  | sh (c : ClusterId) (rb : BitVec 5) (ra : BitVec 5) (imm : BitVec 12)
  /-- SW (R132). SW stores an aligned word of g(rb). -/
  | sw (c : ClusterId) (rb : BitVec 5) (ra : BitVec 5) (imm : BitVec 12)
  /-- SD (R132). SD stores an aligned doubleword of g(rb). -/
  | sd (c : ClusterId) (rb : BitVec 5) (ra : BitVec 5) (imm : BitVec 12)
  /-- ATADD (R324). ATADD atomically adds g(rb) to memory and returns the old value. -/
  | atadd (c : ClusterId) (rd : BitVec 5) (ra : BitVec 5) (rb : BitVec 5) (minor : BitVec 6)
  /-- ATMIN (R324). ATMIN atomically stores the signed minimum and returns the old value. -/
  | atmin (c : ClusterId) (rd : BitVec 5) (ra : BitVec 5) (rb : BitVec 5) (minor : BitVec 6)
  /-- ATMAX (R324). ATMAX atomically stores the signed maximum and returns the old value. -/
  | atmax (c : ClusterId) (rd : BitVec 5) (ra : BitVec 5) (rb : BitVec 5) (minor : BitVec 6)
  /-- ATSWP (R324). ATSWP atomically swaps g(rb) with memory. -/
  | atswp (c : ClusterId) (rd : BitVec 5) (ra : BitVec 5) (rb : BitVec 5) (minor : BitVec 6)
  /-- ATCAS (R324). ATCAS atomically compares memory with g(rd) and stores g(rb) on a match. -/
  | atcas (c : ClusterId) (rd : BitVec 5) (ra : BitVec 5) (rb : BitVec 5) (minor : BitVec 6)
  /-- ATFADD (R324). ATFADD atomically adds g(rb) as a float to memory. -/
  | atfadd (c : ClusterId) (rd : BitVec 5) (ra : BitVec 5) (rb : BitVec 5) (minor : BitVec 6)
  /-- BEQ (R101). BEQ branches when g(ra) equals g(rb). -/
  | beq (c : ClusterId) (ra : BitVec 5) (rb : BitVec 5) (imm : BitVec 12)
  /-- BNE (R101). BNE branches when g(ra) differs from g(rb). -/
  | bne (c : ClusterId) (ra : BitVec 5) (rb : BitVec 5) (imm : BitVec 12)
  /-- BLT (R101). BLT branches when g(ra) < g(rb) signed. -/
  | blt (c : ClusterId) (ra : BitVec 5) (rb : BitVec 5) (imm : BitVec 12)
  /-- BGE (R101). BGE branches when g(ra) ≥ g(rb) signed. -/
  | bge (c : ClusterId) (ra : BitVec 5) (rb : BitVec 5) (imm : BitVec 12)
  /-- BLTU (R101). BLTU branches when g(ra) < g(rb) unsigned. -/
  | bltu (c : ClusterId) (ra : BitVec 5) (rb : BitVec 5) (imm : BitVec 12)
  /-- BGEU (R101). BGEU branches when g(ra) ≥ g(rb) unsigned. -/
  | bgeu (c : ClusterId) (ra : BitVec 5) (rb : BitVec 5) (imm : BitVec 12)
  /-- JMP (R101). JMP jumps PC-relative by imm25 × 4. -/
  | jmp (c : ClusterId) (imm : BitVec 25)
  /-- CALL (R142). CALL jumps PC-relative, writes g31 and pushes the return address on the shadow stack. -/
  | call (c : ClusterId) (imm : BitVec 25)
  /-- JMPR (R480). JMPR jumps to g(ra) + imm12. -/
  | jmpr (c : ClusterId) (rd : BitVec 5) (ra : BitVec 5) (imm : BitVec 12)
  /-- CALLR (R480). CALLR jumps to g(ra) + imm12, writes PC + 4 to g31 and pushes it on the shadow stack. -/
  | callr (c : ClusterId) (rd : BitVec 5) (ra : BitVec 5) (imm : BitVec 12)
  /-- RET (R142). RET compares g31 with the top of the shadow stack, pops it and jumps, or raises CF_MISMATCH. -/
  | ret (c : ClusterId) (rd : BitVec 5) (ra : BitVec 5) (imm : BitVec 12)
  /-- MUL (R101). MUL writes the low 64 bits of g(ra) × g(rb). -/
  | mul (c : ClusterId) (rd : BitVec 5) (ra : BitVec 5) (rb : BitVec 5)
  /-- MULH (R101). MULH writes the high 64 bits of the signed product. -/
  | mulh (c : ClusterId) (rd : BitVec 5) (ra : BitVec 5) (rb : BitVec 5)
  /-- MULHU (R101). MULHU writes the high 64 bits of the unsigned product. -/
  | mulhu (c : ClusterId) (rd : BitVec 5) (ra : BitVec 5) (rb : BitVec 5)
  /-- DIV (R104). DIV writes the signed quotient, or raises INT_DIV_ZERO. -/
  | div (c : ClusterId) (rd : BitVec 5) (ra : BitVec 5) (rb : BitVec 5)
  /-- DIVU (R104). DIVU writes the unsigned quotient, or raises INT_DIV_ZERO. -/
  | divu (c : ClusterId) (rd : BitVec 5) (ra : BitVec 5) (rb : BitVec 5)
  /-- REM (R104). REM writes the signed remainder, or raises INT_DIV_ZERO. -/
  | rem (c : ClusterId) (rd : BitVec 5) (ra : BitVec 5) (rb : BitVec 5)
  /-- REMU (R104). REMU writes the unsigned remainder, or raises INT_DIV_ZERO. -/
  | remu (c : ClusterId) (rd : BitVec 5) (ra : BitVec 5) (rb : BitVec 5)
  /-- MFSR (R98). MFSR reads a system register into g(rd). -/
  | mfsr (c : ClusterId) (rd : BitVec 5) (ra : BitVec 5) (code : BitVec 12)
  /-- MTSR (R99). MTSR writes a system register that has no row of its own, after the checks of R99. -/
  | mtsr (c : ClusterId) (rd : BitVec 5) (ra : BitVec 5) (code : BitVec 12)
  /-- ESCALATE (R146). An MTSR to ESCALATE at S enters the Owl with CODE ESCALATED. -/
  | escalate (c : ClusterId) (rd : BitVec 5) (ra : BitVec 5)
  /-- SSPUSH (R143). An MTSR to SSPUSH pushes the written value OR 1 on the shadow stack. -/
  | sspush (c : ClusterId) (rd : BitVec 5) (ra : BitVec 5)
  /-- MODE_DET (R118). An MTSR to MODE.DET enters deterministic mode after the queue drains and both L1s are cleaned and invalidated, or leaves it. -/
  | modeDet (c : ClusterId) (rd : BitVec 5) (ra : BitVec 5)
  /-- ERET (R113). ERET checks the shadow stack and restores g1–g15, PC and STATUS from the frame at ESP. -/
  | eret (c : ClusterId) (rd : BitVec 5) (ra : BitVec 5) (code : BitVec 12)
  /-- TRAPI (R131). TRAPI enters S at vector 0x0080 with its 12-bit code. -/
  | trapi (c : ClusterId) (rd : BitVec 5) (ra : BitVec 5) (code : BitVec 12)
  /-- BREAK (R130). BREAK enters S at vector 0x0000. -/
  | breakK (c : ClusterId) (rd : BitVec 5) (ra : BitVec 5) (code : BitVec 12)
  /-- ILLEGAL_OP (R102). An unassigned opcode or minor value raises ILLEGAL_OP and enters S at vector 0x0000. -/
  | illegalOp (c : ClusterId) (word : Word)
  /-- WFI (R149). WFI waits for an interrupt at J or S, and at O parks the Kestrel, after which the device aborts the job and resets or holds the cluster. -/
  | wfi (c : ClusterId) (rd : BitVec 5) (ra : BitVec 5) (code : BitVec 12)
  /-- IFLUSH (R115). IFLUSH waits for vector writes, drains the store buffer and invalidates the L1I and the fetch buffer. -/
  | iflush (c : ClusterId) (rd : BitVec 5) (ra : BitVec 5) (code : BitVec 12)
  /-- KEND (R122). KEND ends the cluster's share of a descriptor after the L1D write-back; the descriptor completes when all its clusters have finished. -/
  | kend (c : ClusterId) (rd : BitVec 5) (ra : BitVec 5) (code : BitVec 12)
  /-- CLEAN (R325). CLEAN writes back the dirty bytes of the line at g(ra). -/
  | clean (c : ClusterId) (rd : BitVec 5) (ra : BitVec 5) (imm : BitVec 12)
  /-- INVAL (R325). INVAL invalidates the line at g(ra), and the HOST L2 line when LEVEL = 1. -/
  | inval (c : ClusterId) (rd : BitVec 5) (ra : BitVec 5) (imm : BitVec 12)
  /-- CLEAN_INVAL (R325). CLEAN_INVAL writes back and then invalidates the line at g(ra). -/
  | cleanInval (c : ClusterId) (rd : BitVec 5) (ra : BitVec 5) (imm : BitVec 12)
  /-- CLEAN_SW (R326). CLEAN_SW cleans the L1D line named by set and way. -/
  | cleanSw (c : ClusterId) (rd : BitVec 5) (ra : BitVec 5) (imm : BitVec 12)
  /-- INVAL_SW (R326). INVAL_SW invalidates the L1D line named by set and way. -/
  | invalSw (c : ClusterId) (rd : BitVec 5) (ra : BitVec 5) (imm : BitVec 12)
  /-- CLEAN_INVAL_SW (R326). CLEAN_INVAL_SW cleans and then invalidates the L1D line named by set and way. -/
  | cleanInvalSw (c : ClusterId) (rd : BitVec 5) (ra : BitVec 5) (imm : BitVec 12)
  /-- FENCE (R322). The FENCE instruction holds later Kestrel accesses until earlier accesses are done at its SCOPE. -/
  | fence (c : ClusterId) (rd : BitVec 5) (ra : BitVec 5) (imm : BitVec 12)
  /-- FENCE_V (R322). FENCE_V orders Kestrel accesses against Harrier memory instructions. -/
  | fenceV (c : ClusterId) (rd : BitVec 5) (ra : BitVec 5) (imm : BitVec 12)
  /-- FENCE_H (R322). FENCE_H waits for every earlier Harrier and Hearth instruction to complete. -/
  | fenceH (c : ClusterId) (rd : BitVec 5) (ra : BitVec 5) (imm : BitVec 12)
  /-- TIMER (R110). TIME reaches TIMECMP, and the TIMER interrupt line becomes pending. -/
  | timer (c : ClusterId)
  /-- INTERRUPT_ENTRY (R112). The Kestrel samples a pending, enabled interrupt and runs the 9-KCLK entry to vector 0x0100. -/
  | interruptEntry (c : ClusterId)
  /-- HARRIER_REPORT_ACCEPT (R137). The Kestrel accepts a Harrier or Hearth exception report at the first eligible KCLK, raising it as a fault stop, an S entry or an Owl entry. -/
  | harrierReportAccept (c : ClusterId)
  /-- WATCHDOG (R138). The Kestrel issues no instruction for 2^24 KCLK at J or S, and WATCHDOG is raised to the Owl. -/
  | watchdog (c : ClusterId)
  /-- OWL_LIMIT (R151). The Kestrel has not parked 24,000 KCLK after Owl entry, which counts as an exception at O. -/
  | owlLimit (c : ClusterId)
  /-- VADD (R160). The vector ADD adds elements. -/
  | vadd (c : ClusterId) (f : VFields)
  /-- VSUB (R160). The vector SUB subtracts elements. -/
  | vsub (c : ClusterId) (f : VFields)
  /-- VMUL (R160). The vector MUL multiplies elements. -/
  | vmul (c : ClusterId) (f : VFields)
  /-- VMULH (R204). The vector MULH returns the upper half of integer products. -/
  | vmulh (c : ClusterId) (f : VFields)
  /-- VMIN (R208). The vector MIN takes elementwise minima. -/
  | vmin (c : ClusterId) (f : VFields)
  /-- VMAX (R208). The vector MAX takes elementwise maxima. -/
  | vmax (c : ClusterId) (f : VFields)
  /-- VAND (R160). The vector AND of integer elements. -/
  | vand (c : ClusterId) (f : VFields)
  /-- VOR (R160). The vector OR of integer elements. -/
  | vor (c : ClusterId) (f : VFields)
  /-- VXOR (R160). The vector XOR of integer elements. -/
  | vxor (c : ClusterId) (f : VFields)
  /-- VSLL (R204). The vector SLL shifts elements left. -/
  | vsll (c : ClusterId) (f : VFields)
  /-- VSRL (R204). The vector SRL shifts elements right logically. -/
  | vsrl (c : ClusterId) (f : VFields)
  /-- VSRA (R204). The vector SRA shifts elements right arithmetically. -/
  | vsra (c : ClusterId) (f : VFields)
  /-- VABS (R160). The vector ABS takes absolute values. -/
  | vabs (c : ClusterId) (f : VFields)
  /-- VNEG (R160). The vector NEG negates elements. -/
  | vneg (c : ClusterId) (f : VFields)
  /-- VABSD (R160). The vector ABSD takes integer absolute differences. -/
  | vabsd (c : ClusterId) (f : VFields)
  /-- VDIV (R160). The vector DIV divides float elements. -/
  | vdiv (c : ClusterId) (f : VFields)
  /-- VSQRT (R160). The vector SQRT takes float square roots. -/
  | vsqrt (c : ClusterId) (f : VFields)
  /-- VFMA (R160). VFMA computes va × vb + vd with one rounding. -/
  | vfma (c : ClusterId) (f : VFields)
  /-- VFMS (R160). VFMS computes va × vb − vd. -/
  | vfms (c : ClusterId) (f : VFields)
  /-- VFNMA (R160). VFNMA computes −va × vb + vd. -/
  | vfnma (c : ClusterId) (f : VFields)
  /-- VFMAC (R160). VFMAC computes va × vb + vc into vd. -/
  | vfmac (c : ClusterId) (f : VFields)
  /-- VOPA (R173). VOPA.f64 accumulates an FP64 outer product into VD. -/
  | vopa (c : ClusterId) (f : VFields)
  /-- VCMP_EQ (R209). The vector compare EQ writes a predicate. -/
  | vcmpEq (c : ClusterId) (f : VFields)
  /-- VCMP_NE (R209). The vector compare NE writes a predicate. -/
  | vcmpNe (c : ClusterId) (f : VFields)
  /-- VCMP_LT (R209). The vector compare LT writes a predicate. -/
  | vcmpLt (c : ClusterId) (f : VFields)
  /-- VCMP_LE (R209). The vector compare LE writes a predicate. -/
  | vcmpLe (c : ClusterId) (f : VFields)
  /-- VCMP_GT (R209). The vector compare GT writes a predicate. -/
  | vcmpGt (c : ClusterId) (f : VFields)
  /-- VCMP_GE (R209). The vector compare GE writes a predicate. -/
  | vcmpGe (c : ClusterId) (f : VFields)
  /-- SLIDEUP (R160). SLIDEUP slides elements up by IMM8. -/
  | slideup (c : ClusterId) (f : VFields)
  /-- SLIDEDN (R160). SLIDEDN slides elements down by IMM8. -/
  | slidedn (c : ClusterId) (f : VFields)
  /-- VGATHER (R160). VGATHER writes va[vb[i]] to vd[i]. -/
  | vgather (c : ClusterId) (f : VFields)
  /-- COMPRESS (R160). COMPRESS packs the active elements. -/
  | compress (c : ClusterId) (f : VFields)
  /-- BCAST (R160). BCAST broadcasts g(GS) to every element. -/
  | bcast (c : ClusterId) (f : VFields)
  /-- MVG (R160). MVG moves va[IMM8] to g(GS). -/
  | mvg (c : ClusterId) (f : VFields)
  /-- MVTO (R160). MVTO moves g(GS) to vd[IMM8]. -/
  | mvto (c : ClusterId) (f : VFields)
  /-- VCVT (R172). VCVT converts elements between types, with optional scaling and AMAX gathering. -/
  | vcvt (c : ClusterId) (f : VFields)
  /-- VREDSUM (R170). VREDSUM sums the active elements in the fixed pairwise tree. -/
  | vredsum (c : ClusterId) (f : VFields)
  /-- VREDMAX (R170). VREDMAX takes the tree maximum of the active elements. -/
  | vredmax (c : ClusterId) (f : VFields)
  /-- VREDMIN (R170). VREDMIN takes the tree minimum of the active elements. -/
  | vredmin (c : ClusterId) (f : VFields)
  /-- VREDAND (R170). VREDAND takes the tree AND of the active elements. -/
  | vredand (c : ClusterId) (f : VFields)
  /-- VREDOR (R170). VREDOR takes the tree OR of the active elements. -/
  | vredor (c : ClusterId) (f : VFields)
  /-- VREDXOR (R170). VREDXOR takes the tree XOR of the active elements. -/
  | vredxor (c : ClusterId) (f : VFields)
  /-- VLD (R163). VLD loads unit-stride elements after its translation pass. -/
  | vld (c : ClusterId) (f : VFields)
  /-- VST (R163). VST stores unit-stride elements. -/
  | vst (c : ClusterId) (f : VFields)
  /-- VLDS (R163). VLDS loads strided elements. -/
  | vlds (c : ClusterId) (f : VFields)
  /-- VSTS (R163). VSTS stores strided elements. -/
  | vsts (c : ClusterId) (f : VFields)
  /-- VLDX (R163). VLDX gathers elements by index, with its translation pass at the head of execution. -/
  | vldx (c : ClusterId) (f : VFields)
  /-- VSTX (R163). VSTX scatters elements by index. -/
  | vstx (c : ClusterId) (f : VFields)
  /-- VLDSEG (R163). VLDSEG loads segmented fields into NF registers. -/
  | vldseg (c : ClusterId) (f : VFields)
  /-- VSTSEG (R163). VSTSEG stores segmented fields from NF registers. -/
  | vstseg (c : ClusterId) (f : VFields)
  /-- VSETVL (R157). VSETVL sets VL from g(a), type and span, and writes it to g(d). -/
  | vsetvl (c : ClusterId) (f : VFields)
  /-- VPAND (R160). VPAND writes the AND of two predicates. -/
  | vpand (c : ClusterId) (f : VFields)
  /-- VPOR (R160). VPOR writes the OR of two predicates. -/
  | vpor (c : ClusterId) (f : VFields)
  /-- VPNOT (R160). VPNOT inverts a predicate. -/
  | vpnot (c : ClusterId) (f : VFields)
  /-- VPCNT (R160). VPCNT writes the number of set predicate bits to g(GS). -/
  | vpcnt (c : ClusterId) (f : VFields)
  /-- MMA (R187). MMA accumulates A × B into a tile step by step, through the partial and its promotion intervals. -/
  | mma (c : ClusterId) (f : VFields)
  /-- ACC_ZERO (R200). ACC.ZERO zeroes a tile, closing the interval if the tile is open. -/
  | accZero (c : ClusterId) (f : VFields)
  /-- ACC_PROMOTE (R187). ACC.PROMOTE promotes and closes the open interval. -/
  | accPromote (c : ClusterId) (f : VFields)
  /-- ACC_SEED (R192). ACC.SEED reseeds every LFSR with a salt. -/
  | accSeed (c : ClusterId) (f : VFields)
  /-- TRD (R194). TRD copies tile rows into vector registers. -/
  | trd (c : ClusterId) (f : VFields)
  /-- TWR (R194). TWR copies vector registers into tile rows. -/
  | twr (c : ClusterId) (f : VFields)
  /-- L1D_FILL (R310). An L1D fill lands, merging around dirty bytes, and a maintenance operation held on the line is performed. -/
  | l1dFill (c : ClusterId) (set : BitVec 8) (way : BitVec 2)
  /-- WALK (R272). A range-table walk completes, installing a LIVE or MIGRATING entry in the range cache, or faulting. -/
  | walk (c : ClusterId) (port : CachePort) (va : Word)
  /-- MOVER_REQUEST (R289). The runtime issues a mover request, which runs in queue order and reports to its completion word. -/
  | moverRequest (c : ClusterId) (src : Word) (dst : Word) (len : W32) (completion : Word)
  /-- MOVER_SEGMENT (R288). A mover translates and performs one segment of a transfer, checking rights and seals. -/
  | moverSegment (c : ClusterId)
  /-- XACT_TIMEOUT (R300). A transaction stays open past 1 ms at withdrawal step 4, the drop wait or RANGE_UPDATE step 3; it is abandoned, its master is held in Talon and its job fails. -/
  | xactTimeout (c : ClusterId) (m : MasterKind) (w : XactWait)
  /-- TALON_DUMP_DONE (R303). The Steward finishes the Talon section of a frozen master and sets DUMPED, releasing it if a pending release is waiting. -/
  | talonDumpDone (m : MasterKind) (number : Byte)
  /-- CLUSTER_RETIRE (R347). Once a cluster that reached THRESHOLD is idle, the Steward retires it: it lists, freezes, dumps, fences and powers it down. -/
  | clusterRetire (c : ClusterId)
  /-- CORRECTED_ECC_LIMIT (R346). A cluster reaches 1,024 corrected ECC errors within one hour, which charges a suspect event. -/
  | correctedEccLimit (c : ClusterId)
  /-- SLICE_LOST (R334). An L2 slice is declared lost; its ways are disabled, the affected jobs abort and CAPACITY is posted. -/
  | sliceLost (slice : Fin 64) (tagsRead : Bool) (reason : Byte)
  /-- STACK_LOST (R355). A memory stack is declared lost; its ranges are poisoned, reported memory drops and CAPACITY is posted, or the device is device-fatal if it is the second loss. -/
  | stackLost (i : StackId) (reason : Byte)
  /-- CABLE_PRESENT (R373). A port's cable-present pin asserts with ENABLE = 1, and the port starts training. -/
  | cablePresent (p : PortId)
  /-- LOCK (R373). Lane PLL lock and converter calibration complete, and the port begins DETECT. -/
  | lock (p : PortId)
  /-- PREAMBLE_DETECT (R360). The correlator fires on PA and PB, freezing the AGC, fixing symbol timing and initialising the equaliser. -/
  | preambleDetect (p : PortId) (corr : Nat)
  /-- CORRELATOR_TIMEOUT (R375). The correlator does not fire within 1 ms of DETECT; training fails, and after three failures the port is LOST. -/
  | correlatorTimeout (p : PortId)
  /-- PROBE (R373). The 3,840 IDLE symbols of PROBE end, and the receiver computes or reuses loading tables. -/
  | probe (p : PortId) (lanes : List LaneMeasure)
  /-- EXCHANGE (R373). The loading tables have been exchanged, and the port begins VERIFY. -/
  | exchange (p : PortId) (peer : Exchanged)
  /-- VERIFY (R375). The VERIFY superframe ends, and the port becomes Active if a lane is up. -/
  | verify (p : PortId) (expected : BitVec 12)
  /-- LANE_PLL_UNLOCK (R434). A lane PLL loses lock, and its port retrains. -/
  | lanePllUnlock (p : PortId)
  /-- SUPERFRAME_END (R364). A superframe ends; the receiver may compute a new loading table and start a swap, and a pending bank switch takes effect at symbol 0 of S'. -/
  | superframeEnd (p : PortId) (lanes : List LaneMeasure)
  /-- LOAD_PROPOSE (R365). The transmitter receives both LOAD_PROPOSE flits, stores the table in its standby bank and sends LOAD_ACCEPT. -/
  | loadPropose (p : PortId) (lane : Fin 4) (id : Byte) (sf : BitVec 16) (table : List (BitVec 4))
  /-- LOAD_ACCEPT (R365). The receiver receives LOAD_ACCEPT for a lane's swap. -/
  | loadAccept (p : PortId) (lane : Fin 4) (id : Byte) (sf : BitVec 16)
  /-- CODEWORD_DECODE (R367). A received LDPC codeword is decoded, and its four flits are checked, accepted in SEQ order, held, or discarded with a NAK. -/
  | codewordDecode (p : PortId) (at_ : WordPlace) (word : BitVec 9216)
  /-- HOLD_EXPIRY (R372). The 100 ns hold of an early flit ends with the gap still open; later flits are discarded and a NAK is sent. -/
  | holdExpiry (p : PortId)
  /-- NAK (R371). The transmitter receives a NAK and replays from the named SEQ, retraining after 8 replays without progress. -/
  | nak (p : PortId) (seq : BitVec 12)
  /-- RESYNC (R371). The transmitter receives RESYNC and replays from the expected SEQ. -/
  | resync (p : PortId) (seq : BitVec 12)
  /-- REPLAY_TIMEOUT (R371). REPLAY_TIMEOUT ticks pass without ACK progress, and the transmitter resends from the oldest unacknowledged flit. -/
  | replayTimeout (p : PortId)
  /-- HELLO (R380). A port receives HELLO and checks the neighbour, entering MISWIRED if it is wrong. -/
  | hello (p : PortId) (peer : BitVec 12) (role : BitVec 4)
  /-- FORWARD (R383). A router forwards a fabric packet by dimension order, ring direction, parallel port and virtual channel, and discards a packet of unknown KIND. -/
  | forward (p : PortId) (pkt : Packet)
  /-- READ (R385). The owning device checks a PEER READ against its export windows and serves it at its L2, or answers VIOLATION. -/
  | peerRead (p : PortId) (pkt : Packet)
  /-- WRITE (R386). The owning device performs a PEER WRITE at its L2 and answers WRITE_ACK. -/
  | peerWrite (p : PortId) (pkt : Packet)
  /-- ATOMIC (R386). The owning device performs a PEER ATOMIC and answers ATOMIC_RSP. -/
  | peerAtomic (p : PortId) (pkt : Packet)
  /-- READ_RSP (R386). The requester receives READ_RSP and compares the seal if one is carried. -/
  | readRsp (p : PortId) (pkt : Packet)
  /-- WRITE_ACK (R384). The requester receives WRITE_ACK, and the PEER write is performed. -/
  | writeAck (p : PortId) (pkt : Packet)
  /-- ATOMIC_RSP (R386). The requester receives ATOMIC_RSP with the old value. -/
  | atomicRsp (p : PortId) (pkt : Packet)
  /-- REMOTE_REQUEST_LIMIT (R387). A PEER request stays unanswered for 2 ms, and the requesting job fails with FENCED. -/
  | remoteRequestLimit (tag : BitVec 16)
  /-- TIME_EXCHANGE (R388). A TIME exchange with the parent falls due every 1 ms, or counts as failed when no parent is reachable. -/
  | timeExchange
  /-- TIME (R388). A TIME packet is received, and the device updates its offset and slews its timebase. -/
  | timePacket (p : PortId) (t1 : Int) (t2 : Int) (t3 : Int) (t4 : Int) (hops : BitVec 5)
  /-- RING_CUT (R395). A device receives RING_CUT, records the cut and forwards it. -/
  | ringCut (p : PortId) (dim : Fin 3) (link : BitVec 4) (src : BitVec 12)
  /-- RING_JOIN (R395). A device receives RING_JOIN, clears the cut and forwards it. -/
  | ringJoin (p : PortId) (dim : Fin 3) (link : BitVec 4) (src : BitVec 12)
  /-- PERCH_IDLE (R391). An ACTIVE port is idle for PERCH_IDLE ticks and sends SLEEP_REQ for PERCH. -/
  | perchIdle (p : PortId)
  /-- ROOST_IDLE (R391). A PERCH port is idle for a further ROOST_IDLE × 1,000 ticks and sends SLEEP_REQ for ROOST. -/
  | roostIdle (p : PortId)
  /-- SLEEP_REQ (R392). The peer receives SLEEP_REQ and answers SLEEP_ACK or SLEEP_ABORT. -/
  | sleepReq (p : PortId) (roost : Bool)
  /-- SLEEP_ACK (R392). The initiator receives SLEEP_ACK and sends SLEEP_CONFIRM as its last flit. -/
  | sleepAck (p : PortId) (roost : Bool)
  /-- SLEEP_CONFIRM (R392). The peer accepts SLEEP_CONFIRM and ends its burst, and its entry completes. -/
  | sleepConfirm (p : PortId)
  /-- SLEEP_ABORT (R393). The initiator receives SLEEP_ABORT and abandons entry if it does not cover its CONFIRM. -/
  | sleepAbort (p : PortId)
  /-- WAKE_REQUEST (R393). A flit queued for a sleeping or entering port, or a TIME exchange due, wakes the port, or defers its exit under the Stoop rule. -/
  | wakeRequest (p : PortId)
  /-- STOOP (R393). The 200 ns Stoop dwell ends, and the port exits sleep at once. -/
  | stoop (p : PortId)
  /-- CKPT_OPEN (R401). The standby receives CKPT_OPEN, marks a half FILLING and answers CKPT_ACK. -/
  | ckptOpen (p : PortId) (pkt : Packet)
  /-- CKPT_DATA (R401). The standby writes CKPT_DATA into the filling half and answers WRITE_ACK. -/
  | ckptData (p : PortId) (pkt : Packet)
  /-- CKPT_SEAL (R401). The standby receives CKPT_SEAL, recomputes the CRC, and marks the half SEALED or answers VIOLATION. -/
  | ckptSeal (p : PortId) (pkt : Packet)
  /-- CKPT_ACK (R401). The saving device receives CKPT_ACK and continues or completes the SAVE. -/
  | ckptAck (p : PortId) (pkt : Packet)
  /-- CKPT_READ (R399). The standby serves CKPT_READ for the slot's owner. -/
  | ckptRead (p : PortId) (pkt : Packet)
  /-- CKPT_READ_RSP (R403). The restoring device receives CKPT_READ_RSP data for a RESTORE. -/
  | ckptReadRsp (p : PortId) (pkt : Packet)
  /-- FILLING_TIMEOUT (R402). A FILLING half sees no packet for 10 ms and returns to EMPTY. -/
  | fillingTimeout (slot : Fin 16)
  /-- COLD_RESET (R448). Power is applied, and the Steward runs the boot sequence to READY, or to RECOVERY if no image verifies. -/
  | coldReset (b : BootEnv)
  /-- WARM_RESET (R420). PERST# asserts with power kept, which abandons host transactions, clears device state and reboots. -/
  | warmReset (b : BootEnv)
  /-- PERST_DEASSERT (R419). PERST# deasserts; PD_HOST powers up and the device becomes ready within 100 ms. -/
  | perstDeassert
  /-- HOT_RESET (R421). A hot reset aborts every job to FAILED and disables every stream, ring and address space. -/
  | hotReset
  /-- DL_DOWN (R421). DL_Down acts as R421 for all functions. -/
  | dlDown
  /-- PF_FLR (R421). An FLR of the PF acts as R421 for all functions. -/
  | pfFlr
  /-- D3HOT_ENTRY (R421). PF entry to D3hot acts as R421. -/
  | d3hotEntry
  /-- VF_FLR (R422). An FLR of a VF aborts and disables that function's jobs, streams, rings and address spaces and posts JOB_STATE FAILED. -/
  | vfFlr (f : FunctionId)
  /-- VF_ENABLE_CLEAR (R422). Clearing VF Enable acts as R422 for every VF. -/
  | vfEnableClear
  /-- BAR2_READ (R411). A host BAR2 read is performed at the L2 on device DRAM, or completes with Unsupported Request. -/
  | bar2Read (off : BitVec 36) (len : Nat)
  /-- BAR2_WRITE (R411). A host BAR2 write is performed at the L2 without seal update, or is discarded and logged. -/
  | bar2Write (off : BitVec 36) (bytes : List Byte)
  /-- VF_BAR2_ACCESS (R414). A VF BAR2 access reaches its window, or holds the VF in Talon. -/
  | vfBar2Access (f : FunctionId) (off : BitVec 30) (access : VfAccess)
  /-- ATOMICOP (R408). An incoming AtomicOp or locked request completes with Unsupported Request. -/
  | atomicop
  /-- SET_ENDPOINT_ID (R426). The Steward serves the MCTP Set Endpoint ID command. -/
  | setEndpointId (op : BitVec 2) (eid : Byte)
  /-- GET_ENDPOINT_ID (R426). The Steward serves the MCTP Get Endpoint ID command. -/
  | getEndpointId
  /-- GET_ENDPOINT_UUID (R426). The Steward serves the MCTP Get Endpoint UUID command. -/
  | getEndpointUuid
  /-- GET_MCTP_VERSION_SUPPORT (R426). The Steward serves the MCTP Get MCTP Version Support command. -/
  | getMctpVersionSupport (type : Byte)
  /-- GET_MESSAGE_TYPE_SUPPORT (R426). The Steward serves the MCTP Get Message Type Support command. -/
  | getMessageTypeSupport
  /-- UNSUPPORTED_MESSAGE_TYPE (R426). The Steward answers an MCTP message of another type with ERROR_UNSUPPORTED_CMD. -/
  | unsupportedMessageType (type : BitVec 7)
  /-- GET_TID (R427). The Steward serves the PLDM GetTID command. -/
  | getTid
  /-- SET_TID (R427). The Steward serves the PLDM SetTID command. -/
  | setTid (tid : Byte)
  /-- GET_PLDM_VERSION (R427). The Steward serves the PLDM GetPLDMVersion command. -/
  | getPldmVersion (type : BitVec 6)
  /-- GET_PLDM_TYPES (R427). The Steward serves the PLDM GetPLDMTypes command. -/
  | getPldmTypes
  /-- GET_PLDM_COMMANDS (R427). The Steward serves the PLDM GetPLDMCommands command. -/
  | getPldmCommands (type : BitVec 6)
  /-- GET_PDR_REPOSITORY_INFO (R427). The Steward serves the PLDM GetPDRRepositoryInfo command. -/
  | getPdrRepositoryInfo
  /-- GET_PDR (R428). The Steward returns a platform repository entry. -/
  | getPdr (handle : W32)
  /-- GET_SENSOR_READING (R428). The Steward returns a numeric sensor reading. -/
  | getSensorReading (id : BitVec 16)
  /-- GET_STATE_SENSOR_READINGS (R428). The Steward returns state sensor readings. -/
  | getStateSensorReadings (id : BitVec 16)
  /-- POWER_CAP (R428). SetNumericEffecterValue on effecter 20 writes the power cap CAP_W, or is rejected below 150 W. -/
  | powerCap (watts : W32)
  /-- RETIRE_CLEAR_EFFECTER (R428). SetNumericEffecterValue on effecter 21 performs ERR_RETIRE_CLEAR for a logical cluster. -/
  | retireClearEffecter (cluster : W32)
  /-- GET_NUMERIC_EFFECTER_VALUE (R427). The Steward returns an effecter value. -/
  | getNumericEffecterValue (id : BitVec 16)
  /-- SET_STATE_EFFECTER_STATES (R427). The Steward serves the PLDM SetStateEffecterStates command. -/
  | setStateEffecterStates (id : BitVec 16) (value : Byte)
  /-- SET_EVENT_RECEIVER (R427). A management controller sets itself as the receiver of PlatformEventMessage. -/
  | setEventReceiver (enable : Byte) (eid : Byte)
  /-- GET_FRU_RECORD_TABLE_METADATA (R427). The Steward returns the FRU table metadata. -/
  | getFruRecordTableMetadata
  /-- GET_FRU_RECORD_TABLE (R429). The Steward returns the FRU record table. -/
  | getFruRecordTable
  /-- READ_ERROR_LOG (R429). The OEM ReadErrorLog command returns one log entry, or 0x80 if it is not held. -/
  | readErrorLog (seq : W32)
  /-- READ_IDENTITY (R429). The OEM ReadIdentity command returns the fuse identity registers. -/
  | readIdentity
  /-- FIRMWARE_TRANSFER (R430). The Steward receives firmware image data in 1,024-byte transfers into the inactive flash slot. -/
  | firmwareTransfer (component : BitVec 16) (off : W32) (bytes : List Byte)
  /-- VERIFY_COMPLETE (R431). The Steward verifies a staged image's signature and security version. -/
  | verifyComplete (component : BitVec 16) (sigOk : Bool) (svn : BitVec 16)
  /-- ACTIVATE_FIRMWARE (R430). ActivateFirmware activates FRU data at once, EVOIR_LC port by port through DRAIN when self-contained, and otherwise at the next device reset. -/
  | activateFirmware (selfContained : Bool)
  /-- GET_STATUS (R430). The Steward returns the firmware update status. -/
  | getStatus
  /-- CANCEL_UPDATE (R430). The Steward cancels a firmware update. -/
  | cancelUpdate
  /-- CANCEL_UPDATE_COMPONENT (R430). The Steward cancels the update of one component. -/
  | cancelUpdateComponent
  /-- POWER_LOOP (R439). Every 100 µs the power loop compares board power with CAP_W and steps the throttle level. -/
  | powerLoop (mw : W32)
  /-- THERMAL_SAMPLE (R441). Every 100 µs the Steward reads the die hotspot and sets or removes the thermal floor or stall. -/
  | thermalSample (temp : BitVec 16)
  /-- STACK_TEMPERATURE (R442). A stack's temperature crosses 95 °C or 105 °C, or falls 3 °C below either, and its controller changes its refresh rate or request rate. -/
  | stackTemperature (i : StackId) (temp : BitVec 16)
  /-- SUPPLY_CUTOFF (R441). At 120 °C an independent sensor switches off the processor supply. -/
  | supplyCutoff
  /-- CLUSTER_IDLE_POWER_DOWN (R438). A free cluster waits PWR_CL_IDLE_OFF µs, and its domain powers down. -/
  | clusterIdlePowerDown (c : ClusterId)
  /-- SELF_REFRESH (R437). A memory controller sees no request for PWR_MEM_SR_IDLE µs and enters self-refresh. -/
  | selfRefresh (i : StackId)
  /-- ROOT_PLL_UNLOCK (R434). The root PLL loses lock or the reference stops, which is device-fatal. -/
  | rootPllUnlock
  /-- STEWARD_FAULT (R453). An exception or uncorrectable memory error in the Steward is device-fatal. -/
  | stewardFault (cause : W32)
  /-- STEWARD_WATCHDOG (R455). The AON Steward watchdog expires after 10 ms, and the boot ROM dump path runs. -/
  | stewardWatchdog
  /-- NETWORK_UNCORRECTABLE (R453). An uncorrectable flit or AON SRAM error is device-fatal. -/
  | networkUncorrectable (stop : Byte)
  /-- DUMP_SECTION_TIMEOUT (R454). A dump section write has not finished within 1 ms; it takes STATUS FAILED_WRITE and the Steward moves on. -/
  | dumpSectionTimeout
  /-- DUMP_TIMEOUT (R455). The dump does not end within 100 ms; remaining sections take STATUS EMPTY, or AON hardware forces FAILED. -/
  | dumpTimeout
  /-- VECTOR_UNMASK (R90). Host software clears the Mask bit of one MSI-X vector, and the device sends the message held in that vector's pending bit. -/
  | vectorUnmask (f : FunctionId) (v : BitVec 11)
  /-- COMPLETION_TIMEOUT (R417). A device read of host memory receives no completion within the Completion Timeout, and the read is treated as an error completion. -/
  | completionTimeout (r : HostReadFor)
  /-- CONTROLLER_HANG (R446). The Steward finds that a memory controller has hung and starts that controller's partial reset. -/
  | controllerHang (i : StackId)
  /-- POWER_REMOVAL (R350). The card's power is removed, and the error log and every other volatile state are lost. -/
  | powerRemoval
  /-- CABLE_REMOVAL (R436). A port's cable-present pin deasserts; the port becomes ABSENT and its domain PD_EVPn may power down. -/
  | cableRemoval (p : PortId)
  /-- CORRELATOR_NOISE_FIRE (R360). When the pilots of burst symbols 0–3 correlate below CORR_THRESH after the correlator has fired, the receiver unfreezes the AGC and resumes the search. -/
  | correlatorNoiseFire (p : PortId) (corr : Nat)
  /-- WAY_POWER_UP (R318). An L2 way whose WAYON bit was set finishes powering up empty within 1,000 SCLK, and WAYSTAT shows it ON. -/
  | wayPowerUp (q : QuadId) (way : Fin 16)
  /-- RESET_HOLD_END (R447). The 1 µs interval after a unit's reset ends, and the device starts the second reset request it was holding for that unit. -/
  | resetHoldEnd (kind : Byte) (number : Byte)
  deriving DecidableEq, Repr

end Sys2Proof
end

