-- ==== Sys2Proof/Decode.lean ====
section
/-! DEFINITION. Decoding of the instruction words of a Kestrel, a Harrier and a Hearth (R100-R103, R159, R160, R181, R182). The table of
the block gives no command any bits; DESIGN CHOICE (log entry 4): a word of 32 or 64 bits spells the instruction of cluster 0. -/
namespace Sys2Proof

/-! ### Fields (R100, R159) -/

/-- The major opcode. -/
def wMajor (w : Word) : Nat := (w.extractLsb' 0 7).toNat
/-- A register field. -/
def wReg (w : Word) (lo : Nat) : BitVec 5 := w.extractLsb' lo 5
/-- MINOR3 of the formats RI, ST and CB, MINOR3 of SY, and MINOR10 of RR. -/
def wMinor3 (w : Word) : Nat := (w.extractLsb' 17 3).toNat
def wSysMinor (w : Word) : Nat := (w.extractLsb' 29 3).toNat
def wMinor10 (w : Word) : Nat := (w.extractLsb' 22 10).toNat
/-- The immediates, and the register number or code of SY. -/
def wImm12 (w : Word) : BitVec 12 := w.extractLsb' 20 12
def wImm20 (w : Word) : BitVec 20 := w.extractLsb' 12 20
def wImm25 (w : Word) : BitVec 25 := w.extractLsb' 7 25
def wCode (w : Word) : BitVec 12 := w.extractLsb' 17 12
/-- FUNC of a 64-bit instruction. -/
def wFunc (w : Word) : Nat := (w.extractLsb' 42 6).toNat

/-- The other fields of a 64-bit instruction. -/
def wVFields (w : Word) : VFields :=
  { vd := wReg w 7, va := wReg w 12, vb := wReg w 17, vc := wReg w 22, pg := w.extractLsb' 27 3
    pen := w.getLsbD 30, pz := w.getLsbD 31, span := w.extractLsb' 32 2, etype := w.extractLsb' 34 4
    etype2 := w.extractLsb' 38 4, gs := wReg w 48, rm := w.extractLsb' 53 3, imm8 := w.extractLsb' 56 8 }

/-! ### Scalar instructions (R101) -/

/-- A command of three registers, of two and an immediate, and of two and a code, before the cluster has them. -/
abbrev MakeRR := ClusterId → BitVec 5 → BitVec 5 → BitVec 5 → Instr
abbrev MakeRI := ClusterId → BitVec 5 → BitVec 5 → BitVec 12 → Instr
abbrev MakeV := ClusterId → VFields → Instr

/-- The instruction of a minor value in a major's list; an unassigned one is illegal (R102). -/
def pick {α : Type} (l : List α) (n : Nat) (c : ClusterId) (w : Word) (build : α → Instr) : Instr :=
  match l[n]? with
  | some x => build x
  | none => .illegalOp c w

def aluOps : List MakeRR :=
  [.add, .sub, .and, .or, .xor, .sll, .srl, .sra, .slt, .sltu, .min, .max, .minu, .maxu]
def aluiOps : List MakeRI := [.addi, .andi, .ori, .xori, .slli, .srli, .srai, .slti]
def loadOps : List MakeRI := [.lb, .lh, .lw, .ld, .lbu, .lhu, .lwu]
def storeOps : List MakeRI := [.sb, .sh, .sw, .sd]
def atomicOps : List (ClusterId → BitVec 5 → BitVec 5 → BitVec 5 → BitVec 6 → Instr) :=
  [.atadd, .atmin, .atmax, .atswp, .atcas, .atfadd]
def branchOps : List MakeRI := [.beq, .bne, .blt, .bge, .bltu, .bgeu]
def jumprOps : List MakeRI := [.jmpr, .callr, .ret]
def muldivOps : List MakeRR := [.mul, .mulh, .mulhu, .div, .divu, .rem, .remu]
def sysOps : List MakeRI := [.mfsr, .mtsr, .eret, .trapi, .breakK, .wfi, .iflush, .kend]
def cacheOps : List MakeRI := [.clean, .inval, .cleanInval, .cleanSw, .invalSw, .cleanInvalSw]
def fenceOps : List MakeRI := [.fence, .fenceV, .fenceH]

/-- An MTSR of a register that has a command of its own: SSPUSH, ESCALATE and MODE (R98, R143). -/
def decodeMtsr (c : ClusterId) (w : Word) : Instr :=
  if wCode w = 0x041 then .sspush c (wReg w 7) (wReg w 12)
  else if wCode w = 0x049 then .escalate c (wReg w 7) (wReg w 12)
  else if wCode w = 0x030 then .modeDet c (wReg w 7) (wReg w 12)
  else .mtsr c (wReg w 7) (wReg w 12) (wCode w)

/-- A 32-bit instruction word (R100-R102). -/
def decodeScalar (c : ClusterId) (w : Word) : Instr :=
  let rr (f : MakeRR) := f c (wReg w 7) (wReg w 12) (wReg w 17)
  let ri (f : MakeRI) := f c (wReg w 7) (wReg w 12) (wImm12 w)
  match wMajor w with
  | 0x01 => pick aluOps (wMinor10 w) c w rr
  | 0x02 => pick aluiOps (wMinor3 w) c w ri
  | 0x03 => .liw c (wReg w 7) (wImm20 w)
  | 0x04 => .liws c (wReg w 7) (wImm20 w)
  | 0x05 => .pca c (wReg w 7) (wImm20 w)
  | 0x08 => pick loadOps (wMinor3 w) c w ri
  | 0x09 => pick storeOps (wMinor3 w) c w ri
  | 0x0A => if 6 ≤ wMinor10 w % 512 then .illegalOp c w
    else pick atomicOps (wMinor10 w % 16) c w (fun f => f c (wReg w 7) (wReg w 12) (wReg w 17) (w.extractLsb' 26 6))
  | 0x0C => pick branchOps (wMinor3 w) c w ri
  | 0x0D => .jmp c (wImm25 w)
  | 0x0E => .call c (wImm25 w)
  | 0x0F => pick jumprOps (wMinor3 w) c w ri
  | 0x10 => pick muldivOps (wMinor10 w) c w rr
  | 0x14 => if wSysMinor w = 1 then decodeMtsr c w
    else pick sysOps (wSysMinor w) c w (fun f => f c (wReg w 7) (wReg w 12) (wCode w))
  | 0x15 => pick cacheOps (wMinor3 w) c w ri
  | 0x16 => pick fenceOps (wMinor3 w) c w ri
  | _ => .illegalOp c w

/-! ### Harrier and Hearth instructions (R160, R182) -/

/-- The instructions of a 64-bit major in the order of FUNC. -/
def vectorOps (major : Nat) : List MakeV :=
  match major with
  | 0x70 => [.vadd, .vsub, .vmul, .vmulh, .vmin, .vmax, .vand, .vor, .vxor, .vsll, .vsrl, .vsra, .vabs, .vneg, .vabsd, .vdiv, .vsqrt]
  | 0x71 => [.vfma, .vfms, .vfnma, .vfmac, .vopa]
  | 0x72 => [.vcmpEq, .vcmpNe, .vcmpLt, .vcmpLe, .vcmpGt, .vcmpGe]
  | 0x73 => [.slideup, .slidedn, .vgather, .compress, .bcast, .mvg, .mvto]
  | 0x74 => [.vcvt]
  | 0x75 => [.vredsum, .vredmax, .vredmin, .vredand, .vredor, .vredxor]
  | 0x76 => [.vld, .vst, .vlds, .vsts, .vldx, .vstx, .vldseg, .vstseg]
  | 0x77 => [.vsetvl, .vpand, .vpor, .vpnot, .vpcnt]
  | 0x78 => [.mma]
  | 0x79 => [.accZero, .accPromote, .accSeed]
  | 0x7A => [.trd, .twr]
  | _ => []

/-- Is an instruction of a major 64 bits long (R100, R101)? -/
def isLong (w : Word) : Bool := decide (0x70 ≤ wMajor w) && decide (wMajor w ≤ 0x7B)

/-- A 64-bit instruction word. -/
def decodeVector (c : ClusterId) (w : Word) : Instr :=
  pick (vectorOps (wMajor w)) (wFunc w) c w (fun f => f c (wVFields w))

/-- The instruction that a word spells for a cluster; every word spells one, an unassigned one ILLEGAL_OP. -/
def decodeWord (c : ClusterId) (w : Word) : Instr :=
  if isLong w then decodeVector c w else decodeScalar c (w &&& 0xFFFFFFFF)

/-- The command that a word of 32 or 64 bits spells: the instruction of cluster 0, of the length that its major opcode names. -/
def decodeTableWord (nbits w : Nat) : Option Instr :=
  let x : Word := BitVec.ofNat 64 w
  if nbits = (if isLong x then 64 else 32) then some (decodeWord 0 x) else none

end Sys2Proof
end

