-- ==== Sys2Proof/Machine/Bits.lean ====
section
/-! DEFINITION. Bit fields, byte order (all multi-byte fields are little-endian, 03_rings), sign extension,
counting, and the CRC functions of R335 and R369. -/
namespace Sys2Proof.Machine

/-- `len` bits of `x` from bit `lo` up. -/
abbrev bitsAt {w : Nat} (x : BitVec w) (lo len : Nat) : BitVec len := x.extractLsb' lo len

/-- Bits `lo .. lo+len-1` of byte `b` onward of a little-endian structure. -/
abbrev fieldAt {w : Nat} (x : BitVec w) (b lo len : Nat) : BitVec len := x.extractLsb' (8 * b + lo) len

/-- One bit of byte `b`. -/
def flagAt {w : Nat} (x : BitVec w) (b lo : Nat) : Bool := x.getLsbD (8 * b + lo)

/-- The value of a Boolean as a bit. -/
def bit (b : Bool) : Nat := if b then 1 else 0

/-- `n` bytes of the number `x`, least significant first. -/
def toBytes : Nat → Nat → List Byte
  | 0, _ => []
  | n + 1, x => BitVec.ofNat 8 x :: toBytes n (x / 256)

/-- The number that bytes spell, least significant first. -/
def ofBytes : List Byte → Nat
  | [] => 0
  | b :: bs => b.toNat + 256 * ofBytes bs

/-- Replace `len` bits of `x` from bit `lo` by `v`. -/
def putBits {w len : Nat} (x : BitVec w) (lo : Nat) (v : BitVec len) : BitVec w :=
  (x &&& ~~~((BitVec.allOnes len).setWidth w <<< lo)) ||| (v.setWidth w <<< lo)

/-- The number of set bits below `n`. -/
def countBits {w : Nat} (x : BitVec w) : Nat → Nat
  | 0 => 0
  | n + 1 => countBits x n + bit (x.getLsbD n)

/-- A signed 12-bit immediate as a 64-bit word. -/
def imm12 (i : BitVec 12) : Word := i.signExtend 64

/-- A signed 32-bit difference `a - b`, tested negative. -/
def before32 (a b : W32) : Bool := (a - b).msb

/-- One bit step of a reflected CRC-32 with polynomial `poly`. -/
def crcStep (poly : W32) (c : W32) : W32 :=
  if c.getLsbD 0 then (c >>> 1) ^^^ poly else c >>> 1

/-- One byte of a reflected CRC-32. -/
def crcByte (poly : W32) (c : W32) (b : Byte) : W32 :=
  let x := c ^^^ b.setWidth 32
  crcStep poly (crcStep poly (crcStep poly (crcStep poly
    (crcStep poly (crcStep poly (crcStep poly (crcStep poly x)))))))

/-- A reflected CRC-32 over bytes, initial value and final XOR all ones. -/
def crcOver (poly : W32) (bs : List Byte) : W32 :=
  ~~~ (bs.foldl (crcByte poly) (BitVec.allOnes 32))

/-- CRC-32C with the parameters of R335: the seal of a block, the CHECK of an image, the CRCs of the dump. -/
def crc32c (bs : List Byte) : W32 := crcOver 0x82F63B78 bs

/-- CRC-32 of IEEE 802.3, the CRC of a flit (R369). -/
def crc32 (bs : List Byte) : W32 := crcOver 0xEDB88320 bs

/-- The least multiple of `m` at or above `x`, in units of `m`. -/
def ceilDiv (x m : Nat) : Nat := (x + (m - 1)) / m

/-- Replace the first element that satisfies `p`. -/
def replaceFirst {α : Type} (p : α → Bool) (f : α → α) : List α → List α
  | [] => []
  | a :: l => if p a then f a :: l else a :: replaceFirst p f l

/-- The element at a place, or a default. -/
def nthD {α : Type} (l : List α) (i : Nat) (d : α) : α :=
  match l[i]? with
  | some a => a
  | none => d

/-- The least offset among the failing checks (R479). -/
def firstBad (l : List (Nat × Bool)) : Option Nat :=
  l.foldl (fun best c =>
    if c.2 then
      match best with
      | none => some c.1
      | some b => some (if c.1 < b then c.1 else b)
    else best) none

/-- Reserved bytes `b` to `b + n - 1` of a structure: each nonzero one fails at its own offset. -/
def reservedBytes {w : Nat} (x : BitVec w) (b n : Nat) : List (Nat × Bool) :=
  (List.range n).map (fun i => (b + i, decide (fieldAt x (b + i) 0 8 ≠ 0)))

/-- Reserved bits `lo .. lo+len-1` of byte `b`. -/
def reservedBits {w : Nat} (x : BitVec w) (b lo len : Nat) : Nat × Bool :=
  (b, decide (fieldAt x b lo len ≠ 0))

/-- Shift every offset of a list of checks. -/
def offsetBy (k : Nat) (l : List (Nat × Bool)) : List (Nat × Bool) := l.map (fun c => (k + c.1, c.2))

/-- Apply `f` to the state once for each number below `n`, in ascending order. -/
def forBelow {σ : Type} (f : Nat → σ → σ) (n : Nat) (s : σ) : σ :=
  (List.range n).foldl (fun s i => f i s) s

/-- Numbers of `w` bits packed from bit 0 up. -/
def pack (w : Nat) : List Nat → Nat
  | [] => 0
  | x :: xs => x % 2 ^ w + 2 ^ w * pack w xs

end Sys2Proof.Machine
end

