-- ==== Sys2Proof/Machine/Float.lean ====
section
/-! DEFINITION. The float formats, rounding, flags and special values of 08_formats (R201-R212). Exact results are
dyadic rationals; every operation rounds once (R205). -/
namespace Sys2Proof.Machine

/-- A float format: exponent and fraction widths and the bias (R201). -/
structure Fmt where
  eb : Nat
  fb : Nat
  bias : Nat
  k4 : Bool
  deriving DecidableEq, Repr

/-- The six float types of R201. -/
def fmtF64 : Fmt := ⟨11, 52, 1023, false⟩
def fmtF32 : Fmt := ⟨8, 23, 127, false⟩
def fmtF16 : Fmt := ⟨5, 10, 15, false⟩
def fmtW16 : Fmt := ⟨8, 7, 127, false⟩
def fmtK5 : Fmt := ⟨5, 2, 15, false⟩
def fmtK4 : Fmt := ⟨4, 3, 7, true⟩

/-- Formats with FTZ behaviour: FTZ never applies to .k5 and .k4 (R207). -/
def Fmt.flushes (f : Fmt) : Bool := decide (7 ≤ f.fb)

/-- A decoded value: NaN (signalling or not), infinity, or `(-1)^neg * m * 2^e`. -/
inductive FVal where
  | nan (signalling : Bool)
  | inf (neg : Bool)
  | fin (neg : Bool) (m : Nat) (e : Int)
  deriving DecidableEq, Repr

/-- The five float flags (R162, R206). -/
structure FFlags where
  nv : Bool
  dz : Bool
  of : Bool
  uf : Bool
  nx : Bool
  deriving DecidableEq, Repr

/-- No flag. -/
def FFlags.none : FFlags := ⟨false, false, false, false, false⟩

/-- Both sets of flags. -/
def FFlags.or (a b : FFlags) : FFlags :=
  ⟨a.nv || b.nv, a.dz || b.dz, a.of || b.of, a.uf || b.uf, a.nx || b.nx⟩

/-- Only NV. -/
def FFlags.invalid (b : Bool) : FFlags := { FFlags.none with nv := b }

/-- The flags as VFLAGS bits: NV in [0], DZ [1], OF [2], UF [3], NX [4] (R162, in the order it lists them). DEDUCED. -/
def FFlags.bits (f : FFlags) : BitVec 5 :=
  BitVec.ofNat 5 (bit f.nv + 2 * bit f.dz + 4 * bit f.of + 8 * bit f.uf + 16 * bit f.nx)

/-- Rounding modes of R205. -/
inductive Rm where
  | rne | rtz | rdn | rup
  deriving DecidableEq, Repr

/-- The number of bits of `m`. -/
def bitLen (m : Nat) : Nat := if m = 0 then 0 else m.log2 + 1

/-- Decode an encoding (R201, R202). -/
def decodeF (f : Fmt) (x : Nat) : FVal :=
  let frac := x % 2 ^ f.fb
  let ex := x / 2 ^ f.fb % 2 ^ f.eb
  let neg := decide (x / 2 ^ (f.fb + f.eb) % 2 = 1)
  let top := 2 ^ f.eb - 1
  if f.k4 then
    if ex = top ∧ frac = 7 then .nan false
    else if ex = 0 then .fin neg frac (1 - (f.bias : Int) - f.fb)
    else .fin neg (2 ^ f.fb + frac) ((ex : Int) - f.bias - f.fb)
  else if ex = top then
    if frac = 0 then .inf neg else .nan (decide (frac < 2 ^ (f.fb - 1)))
  else if ex = 0 then .fin neg frac (1 - (f.bias : Int) - f.fb)
  else .fin neg (2 ^ f.fb + frac) ((ex : Int) - f.bias - f.fb)

/-- The canonical NaN (R202, R203). -/
def canonNan (f : Fmt) : Nat :=
  if f.k4 then 0x7F else (2 ^ f.eb - 1) * 2 ^ f.fb + 2 ^ (f.fb - 1)

/-- The sign bit in place. -/
def signBit (f : Fmt) (neg : Bool) : Nat := bit neg * 2 ^ (f.fb + f.eb)

/-- The infinity of a sign. -/
def infBits (f : Fmt) (neg : Bool) : Nat := signBit f neg + (2 ^ f.eb - 1) * 2 ^ f.fb

/-- The largest finite value of a sign. -/
def maxBits (f : Fmt) (neg : Bool) : Nat :=
  signBit f neg + (if f.k4 then 0x7E else (2 ^ f.eb - 1) * 2 ^ f.fb - 1)

/-- Does the mode round the magnitude up, given the kept part's low bit and the discarded part: above half, exactly
half, inexact. -/
def roundsUp (rm : Rm) (neg odd above half inexact : Bool) : Bool :=
  match rm with
  | .rne => above || (half && odd)
  | .rtz => false
  | .rdn => neg && inexact
  | .rup => !neg && inexact

/-- Round the magnitude `(m + s) * 2^e`, `0 < s < 1` when `sticky`, to `prec` bits with quantum no finer than
`2^qmin`: the kept integer, its quantum's exponent and whether it is inexact. -/
def roundMag (prec : Nat) (qmin : Int) (rm : Rm) (neg : Bool) (m : Nat) (e : Int) (sticky : Bool) : Nat × Int × Bool :=
  let q := max (e + bitLen m - prec) qmin
  if q ≤ e then (m * 2 ^ (e - q).toNat, q, sticky)
  else
    let sh := (q - e).toNat
    let keep := m / 2 ^ sh
    let rest := m % 2 ^ sh
    let half := 2 ^ (sh - 1)
    let inexact := decide (rest ≠ 0) || sticky
    let above := decide (half < rest) || (decide (rest = half) && sticky)
    let tie := decide (rest = half) && !sticky
    (if roundsUp rm neg (decide (keep % 2 = 1)) above tie inexact then keep + 1 else keep, q, inexact)

/-- Round an exact finite result into format `f` (R205-R207). `sat` selects the saturation of conversions to .k4 and
.k5 (R211) in place of overflow. -/
def roundF (f : Fmt) (rm : Rm) (ftz sat : Bool) (neg : Bool) (m : Nat) (e : Int) (sticky : Bool) : Nat × FFlags :=
  if m = 0 ∧ sticky = false then (signBit f neg, FFlags.none)
  else
    let emin : Int := 1 - f.bias
    let (k, q, inexact) := roundMag (f.fb + 1) (emin - f.fb) rm neg m e sticky
    let tiny := decide (e + bitLen m ≤ emin)
    if ftz && f.flushes && decide (k < 2 ^ f.fb) then
      (signBit f neg, { FFlags.none with uf := true, nx := true })
    else
      let (k, q) := if k = 2 ^ (f.fb + 1) then (2 ^ f.fb, q + 1) else (k, q)
      let ex : Int := if k < 2 ^ f.fb then 0 else q + f.fb + f.bias
      let enc : Int := ex * 2 ^ f.fb + (k % 2 ^ f.fb : Nat)
      let largest : Int := if f.k4 then 0x7E else (2 ^ f.eb - 1 : Nat) * (2 ^ f.fb : Nat) - 1
      if largest < enc then
        if sat then (maxBits f neg, { FFlags.none with of := true, nx := true })
        else
          let toInf := match rm with
            | .rne => true
            | .rtz => false
            | .rdn => neg
            | .rup => !neg
          (if toInf then infBits f neg else maxBits f neg, { FFlags.none with of := true, nx := true })
      else (signBit f neg + enc.toNat, { FFlags.none with uf := tiny && inexact, nx := inexact })

/-- Round any exact result: NaN is canonical (R203). -/
def roundV (f : Fmt) (rm : Rm) (ftz : Bool) : FVal → Nat × FFlags
  | .nan _ => (canonNan f, FFlags.none)
  | .inf neg => (infBits f neg, FFlags.none)
  | .fin neg m e => roundF f rm ftz false neg m e false

/-- The signed integer numerator of a finite value at exponent `e0 ≤ e`. -/
def scaled (neg : Bool) (m : Nat) (e e0 : Int) : Int :=
  let n : Int := (m * 2 ^ (e - e0).toNat : Nat)
  if neg then -n else n

/-- Flush a subnormal operand (R207). -/
def ftzIn (f : Fmt) (ftz : Bool) (v : FVal) : FVal :=
  match v with
  | .fin neg m e => if ftz && f.flushes && decide (m < 2 ^ f.fb) then .fin neg 0 e else .fin neg m e
  | v => v

/-- A signalling NaN operand sets NV (R206). -/
def FVal.snan : FVal → Bool
  | .nan s => s
  | _ => false

/-- Negate. -/
def FVal.neg : FVal → FVal
  | .nan s => .nan s
  | .inf n => .inf (!n)
  | .fin n m e => .fin (!n) m e

/-- Exact sum and whether it is invalid (`∞ - ∞`). An exact zero of unlike signs is +0, or -0 under RDN, as the
IEEE 754 formats of R201 define. PRESUMED. -/
def addV (rm : Rm) (a b : FVal) : FVal × Bool :=
  match a, b with
  | .nan _, _ => (.nan false, false)
  | _, .nan _ => (.nan false, false)
  | .inf x, .inf y => if x = y then (.inf x, false) else (.nan false, true)
  | .inf x, .fin _ _ _ => (.inf x, false)
  | .fin _ _ _, .inf y => (.inf y, false)
  | .fin nx mx ex, .fin ny my ey =>
    let e0 := min ex ey
    let t := scaled nx mx ex e0 + scaled ny my ey e0
    if t = 0 then (.fin (if mx = 0 ∧ my = 0 ∧ nx = ny then nx else decide (rm = .rdn)) 0 e0, false)
    else (.fin (decide (t < 0)) t.natAbs e0, false)

/-- Exact product and whether it is invalid (`0 × ∞`). -/
def mulV (a b : FVal) : FVal × Bool :=
  match a, b with
  | .nan _, _ => (.nan false, false)
  | _, .nan _ => (.nan false, false)
  | .inf x, .inf y => (.inf (x != y), false)
  | .inf x, .fin ny m _ => if m = 0 then (.nan false, true) else (.inf (x != ny), false)
  | .fin nx m _, .inf y => if m = 0 then (.nan false, true) else (.inf (nx != y), false)
  | .fin nx mx ex, .fin ny my ey => (.fin (nx != ny) (mx * my) (ex + ey), false)

/-- A float addition (R205, R206). -/
def addF (f : Fmt) (rm : Rm) (ftz : Bool) (x y : Nat) : Nat × FFlags :=
  let a := ftzIn f ftz (decodeF f x)
  let b := ftzIn f ftz (decodeF f y)
  let (v, inv) := addV rm a b
  let (r, fl) := roundV f rm ftz v
  (r, fl.or (FFlags.invalid (inv || a.snan || b.snan)))

/-- A float multiplication. -/
def mulF (f : Fmt) (rm : Rm) (ftz : Bool) (x y : Nat) : Nat × FFlags :=
  let a := ftzIn f ftz (decodeF f x)
  let b := ftzIn f ftz (decodeF f y)
  let (v, inv) := mulV a b
  let (r, fl) := roundV f rm ftz v
  (r, fl.or (FFlags.invalid (inv || a.snan || b.snan)))

/-- Flip the sign bit of an encoding. -/
def negF (f : Fmt) (x : Nat) : Nat :=
  if x / 2 ^ (f.fb + f.eb) % 2 = 1 then x - 2 ^ (f.fb + f.eb) else x + 2 ^ (f.fb + f.eb)

/-- A fused multiply-add `±a × b ± c` with one rounding (R160, R205). -/
def fmaF (f : Fmt) (rm : Rm) (ftz : Bool) (negP negC : Bool) (x y z : Nat) : Nat × FFlags :=
  let a := ftzIn f ftz (decodeF f x)
  let b := ftzIn f ftz (decodeF f y)
  let c := ftzIn f ftz (decodeF f z)
  let (p, i1) := mulV a b
  let p := if negP then p.neg else p
  let c' := if negC then c.neg else c
  let (v, i2) := addV rm p c'
  let (r, fl) := roundV f rm ftz v
  (r, fl.or (FFlags.invalid (i1 || i2 || a.snan || b.snan || c.snan)))

/-- A float division (R206). -/
def divF (f : Fmt) (rm : Rm) (ftz : Bool) (x y : Nat) : Nat × FFlags :=
  let a := ftzIn f ftz (decodeF f x)
  let b := ftzIn f ftz (decodeF f y)
  let nv := FFlags.invalid (a.snan || b.snan)
  match a, b with
  | .nan _, _ => (canonNan f, nv)
  | _, .nan _ => (canonNan f, nv)
  | .inf _, .inf _ => (canonNan f, FFlags.invalid true)
  | .inf n, .fin n' _ _ => (infBits f (n != n'), FFlags.none)
  | .fin n _ _, .inf n' => (signBit f (n != n'), FFlags.none)
  | .fin n m e, .fin n' m' e' =>
    if m' = 0 then
      if m = 0 then (canonNan f, FFlags.invalid true)
      else (infBits f (n != n'), { FFlags.none with dz := true })
    else
      let sh := f.fb + 4 + bitLen m'
      let q := m * 2 ^ sh / m'
      let rest := m * 2 ^ sh % m'
      roundF f rm ftz false (n != n') q (e - e' - sh) (decide (rest ≠ 0))

/-- The integer square root, by bits from `2^(n-1)` down: the largest `r` with `r² ≤ x` that extends `r0`. -/
def sqrtFrom : Nat → Nat → Nat → Nat
  | 0, r, _ => r
  | n + 1, r, x => if (r + 2 ^ n) * (r + 2 ^ n) ≤ x then sqrtFrom n (r + 2 ^ n) x else sqrtFrom n r x

/-- A float square root (R206). -/
def sqrtF (f : Fmt) (rm : Rm) (ftz : Bool) (x : Nat) : Nat × FFlags :=
  match ftzIn f ftz (decodeF f x) with
  | .nan s => (canonNan f, FFlags.invalid s)
  | .inf n => if n then (canonNan f, FFlags.invalid true) else (infBits f false, FFlags.none)
  | .fin n m e =>
    if m = 0 then (signBit f n, FFlags.none)
    else if n then (canonNan f, FFlags.invalid true)
    else
      let sh := 2 * (f.fb + 4)
      let odd := decide (e % 2 ≠ 0)
      let x := (if odd then 2 * m else m) * 2 ^ sh
      let e' := if odd then e - 1 else e
      let r := sqrtFrom (bitLen x / 2 + 1) 0 x
      roundF f rm ftz false false r ((e' - sh) / 2) (decide (r * r ≠ x))

/-- Compare two finite or infinite values: negative, zero or positive like `a - b`; ±0 are equal. -/
def cmpV (a b : FVal) : Int :=
  match a, b with
  | .inf x, .inf y => if x = y then 0 else if x then -1 else 1
  | .inf x, _ => if x then -1 else 1
  | _, .inf y => if y then 1 else -1
  | .fin nx mx ex, .fin ny my ey => scaled nx mx ex (min ex ey) - scaled ny my ey (min ex ey)
  | .nan _, _ => 0
  | _, .nan _ => 0

/-- Is a NaN. -/
def FVal.isNan : FVal → Bool
  | .nan _ => true
  | _ => false

/-- Sign of a value, of zeros too. -/
def FVal.isNeg : FVal → Bool
  | .nan _ => false
  | .inf n => n
  | .fin n _ _ => n

/-- MIN and MAX (R208): -0 is less than +0, one NaN gives the other operand, two give the canonical NaN. The chosen
operand is rewritten only by FTZ. -/
def minMaxF (f : Fmt) (ftz isMax : Bool) (x y : Nat) : Nat × FFlags :=
  let a := ftzIn f ftz (decodeF f x)
  let b := ftzIn f ftz (decodeF f y)
  let nv := FFlags.invalid (a.snan || b.snan)
  let pick (v : FVal) : Nat := (roundV f .rne ftz v).1
  if a.isNan then (if b.isNan then canonNan f else pick b, nv)
  else if b.isNan then (pick a, nv)
  else
    let c := cmpV a b
    let less := decide (c < 0) || (decide (c = 0) && a.isNeg && !b.isNeg)
    (if less = isMax then pick b else pick a, nv)

/-- The compares of R209, numbered as FUNC of VCMP: 0 EQ, 1 NE, 2 LT, 3 LE, 4 GT, 5 GE. -/
def cmpF (f : Fmt) (ftz : Bool) (op : Nat) (x y : Nat) : Bool × FFlags :=
  let a := ftzIn f ftz (decodeF f x)
  let b := ftzIn f ftz (decodeF f y)
  let nan := a.isNan || b.isNan
  let nv := FFlags.invalid (a.snan || b.snan || (decide (2 ≤ op) && nan))
  if nan then (decide (op = 1), nv)
  else
    let c := cmpV a b
    ((match op with
      | 0 => decide (c = 0)
      | 1 => decide (c ≠ 0)
      | 2 => decide (c < 0)
      | 3 => decide (c ≤ 0)
      | 4 => decide (c > 0)
      | _ => decide (c ≥ 0)), nv)

/-- A conversion from a value to a float format (R205, R210, R211): .k4 and .k5 saturate, and .k4 has no infinity. -/
def toFloat (f : Fmt) (rm : Rm) (ftz : Bool) (v : FVal) (sticky : Bool) : Nat × FFlags :=
  let small := !f.flushes
  match v with
  | .nan s => (canonNan f, FFlags.invalid s)
  | .inf n => if f.k4 then (0x7F, FFlags.invalid true) else (infBits f n, FFlags.none)
  | .fin n m e => roundF f rm ftz small n m e sticky

/-- A conversion from a value to an integer between `lo` and `hi` (R212). -/
def toInt (rm : Rm) (lo hi : Int) (v : FVal) : Int × FFlags :=
  match v with
  | .nan _ => (0, FFlags.invalid true)
  | .inf n => (if n then lo else hi, FFlags.invalid true)
  | .fin n m e =>
    let (k, q, inexact) := roundMag (bitLen m + e.toNat + 1) 0 rm n m e false
    let mag : Int := (k * 2 ^ q.toNat : Nat)
    let x := if n then -mag else mag
    if x < lo then (lo, FFlags.invalid true)
    else if hi < x then (hi, FFlags.invalid true)
    else (x, { FFlags.none with nx := inexact })

/-- An integer as an exact value. -/
def intV (x : Int) : FVal := .fin (decide (x < 0)) x.natAbs 0

end Sys2Proof.Machine
end

