-- ==== Sys2Proof/Config.lean ====
section
/-! DEFINITION. The free values: what the spec leaves to the world outside the device or gives no value for.
None has a body, so nothing can be proved of a value of theirs. Each is applied to the counter `State.free`,
which the step advances, so two uses are unrelated. -/
namespace Sys2Proof.Config

/-- The byte that host memory returns for a read of a job (counter, function, IOVA). The host owns its memory
(R63, R315: the device does not observe host writes), so the spec fixes no value. -/
opaque hostByte : Nat → Nat → Nat → Byte

/-- How a read of host memory by a job completes: 0 with data, 1 UR, 2 CA, 3 EP, 5 ECRC (the codes of
HIF_ERR_LAST.KIND, R418). -/
opaque hostStatus : Nat → Nat

/-- A byte the spec leaves undefined (a section layout that R456 does not give, a lost dirty line, R334). -/
opaque freeByte : Nat → Nat → Byte

/-- A word the spec leaves undefined. -/
opaque freeWord : Nat → Word

/-- The vector window that the runtime image gives (R133): the contents of that image are not the spec's. -/
opaque runtimeWindow : BitVec 32768

/-- The TYPE of a log entry for an error of a link, a port or the host interface, which R352 does not list. -/
opaque linkErrorType : Byte
opaque hostErrorType : Byte

/-- Bus Master Enable of the PF, which host software writes in configuration space with no command of its own (R458). -/
opaque busMasterEnable : Nat → Bool

end Sys2Proof.Config
end

