-- ==== Sys2Proof/Machine/Table.lean ====
section
/-! DEFINITION. Sparse tables and byte memories: sorted lists of keys and values. A key that is not listed has the
table's default value. A memory lists no byte equal to what an unlisted address reads as (zero). -/
namespace Sys2Proof.Machine

/-- A sparse table by number: key and value pairs, keys strictly rising. -/
abbrev Table (β : Type) := List (Nat × β)

/-- The value of key `k`, or `d` when the table does not list it. -/
def Table.get {β : Type} (d : β) : Table β → Nat → β
  | [], _ => d
  | (k', v) :: t, k => if k' = k then v else Table.get d t k

/-- The table with `v` at key `k`. -/
def Table.set {β : Type} : Table β → Nat → β → Table β
  | [], k, v => [(k, v)]
  | (k', v') :: t, k, v =>
    if k' = k then (k, v) :: t
    else if k < k' then (k, v) :: (k', v') :: t
    else (k', v') :: Table.set t k v

/-- A byte memory in canonical form. -/
abbrev Mem := List (Nat × Byte)

/-- What an address of device memory or of a cluster store that nothing has written reads as. -/
def Mem.unlisted : Byte := 0

/-- The byte at address `a`. -/
def Mem.read : Mem → Nat → Byte
  | [], _ => Mem.unlisted
  | (k, v) :: t, a => if k = a then v else Mem.read t a

/-- Remove address `a` from the list. -/
def Mem.erase : Mem → Nat → Mem
  | [], _ => []
  | (k, v) :: t, a => if k = a then t else (k, v) :: Mem.erase t a

/-- Put `v` at `a` in address order. -/
def Mem.put : Mem → Nat → Byte → Mem
  | [], a, v => [(a, v)]
  | (k, w) :: t, a, v =>
    if k = a then (a, v) :: t
    else if a < k then (a, v) :: (k, w) :: t
    else (k, w) :: Mem.put t a v

/-- Write one byte, keeping the canonical form: writing what an unlisted address reads as removes the entry. -/
def Mem.write (m : Mem) (a : Nat) (v : Byte) : Mem :=
  if v = Mem.unlisted then Mem.erase m a else Mem.put m a v

/-- Write what an unlisted address reads as to `n` bytes from `a`. -/
def Mem.clear (m : Mem) (a n : Nat) : Mem := m.filter (fun e => !(decide (a ≤ e.1) && decide (e.1 < a + n)))

/-- The canonical form: addresses strictly rising from above `lo`, no entry equal to an unlisted byte. -/
def Mem.wfFrom : Nat → Mem → Bool
  | _, [] => true
  | lo, (k, v) :: t => decide (lo ≤ k) && (decide (v ≠ Mem.unlisted) && Mem.wfFrom (k + 1) t)

/-- The canonical form of a memory. -/
def Mem.wf (m : Mem) : Bool := Mem.wfFrom 0 m

/-- Read `n` bytes from address `a` in ascending order. -/
def Mem.readBytes (m : Mem) (a : Nat) : Nat → List Byte
  | 0 => []
  | n + 1 => Mem.read m a :: Mem.readBytes m (a + 1) n

/-- Write bytes at ascending addresses from `a`. -/
def Mem.writeBytes (m : Mem) (a : Nat) : List Byte → Mem
  | [] => m
  | b :: bs => Mem.writeBytes (Mem.write m a b) (a + 1) bs

end Sys2Proof.Machine
end

