-- ==== Sys2Proof/Machine/State.lean ====
section
/-! DEFINITION. The state of the device as plain data, the reasons a step can stop, and the state after reset.
Every field names the rule of spec/ that gives it. -/
namespace Sys2Proof.Machine

/-! ### The cluster -/

/-- Where an access of a master lands (R267, R308): the cluster's own store, device memory, host memory under a
function, or a peer device. -/
inductive Target where
  | store (off : Nat)
  | device (pa : Nat)
  | host (f : Nat) (iova : Nat)
  | peer (dev : Nat) (pa : Nat)
  deriving DecidableEq, Repr

/-- One entry of the 16-entry store buffer (R14, R139): translated target, attributes, data, and the generation it was translated
through (R273). -/
structure StoreEntry where
  target : Target
  cacheable : Bool
  aspace : Nat
  va : Word
  size : Nat
  data : Word
  gen : BitVec 16
  deriving DecidableEq, Repr

/-- A maintenance operation (R325). -/
inductive CacheOp where
  | clean | inval | cleanInval
  deriving DecidableEq, Repr

/-- One valid L1D line (R310): where it is held, the target line it holds, its bytes, which of them are dirty,
whether its fill is pending (only its dirty bytes are there then), its poison, the generation it was translated under, and the
maintenance held until the fill lands (R330). -/
structure L1Line where
  set : BitVec 8
  way : BitVec 2
  target : Target
  bytes : Line
  dirty : BitVec 64
  pending : Bool
  poison : Bool
  aspace : Nat
  gen : BitVec 16
  held : List CacheOp
  deriving DecidableEq, Repr

/-- What a Kestrel is doing: issuing, waiting in WFI, stopped for a translation fault (R130), parked at O (R149), or
halted for good (R152); `remote` waits for a peer's answer to its load or atomic (R384). -/
inductive RunState where
  | running | waiting | faultStop | remote | parked | halted
  deriving DecidableEq, Repr

/-- A Harrier or Hearth report that waits for acceptance (R137): a translation fault of an element, a failure, or
an FP_TRAP. -/
inductive Report where
  | xlate (pc tval : Word) (len : Nat) (access : BitVec 4)
  | failure (cause : Byte) (pc tval : Word)
  | fpTrap (pc : Word)
  deriving DecidableEq, Repr

/-- The Kestrel (R96-R98, R143): scalar registers, PC, STATUS fields, the system registers, the shadow-stack depth
and the Owl registers. STATUS.DET and MODE.DET are the one bit `det`. IRQ lines other than TIMER are latched in `irqPend`. -/
structure Kestrel where
  g : Table Word
  pc : Word
  level : BitVec 2
  ie : Bool
  det : Bool
  cause : Byte
  tval : Word
  esp : Word
  irqPend : Word
  irqEn : Word
  timecmp : Word
  csback : Word
  cslive : Word
  ssp : BitVec 13
  ocause : Word
  otval : Word
  oepc : Word
  ostatus : Word
  oesp : Word
  osp : Word
  run : RunState
  reports : List Report
  deriving DecidableEq, Repr

/-- An AMAX slot (R217). -/
structure AmaxSlot where
  value : Word
  nanSeen : Bool
  infSeen : Bool
  deriving DecidableEq, Repr

/-- The Harrier (R154, R158, R162, R217). -/
structure Harrier where
  v : Table (BitVec 16384)
  p : Table (BitVec 2048)
  vl : BitVec 12
  vctl : Byte
  vflags : BitVec 5
  vprogIndex : BitVec 12
  vprogValid : Bool
  amax : Table AmaxSlot
  deriving DecidableEq, Repr

/-- The Hearth (R179, R185, R187, R191, R196): tiles of 4,096 32-bit cells, the partials of 20 bits, the LFSRs of
16 bits, the open interval and the flags. -/
structure Hearth where
  tiles : Table (BitVec 131072)
  partials : BitVec 81920
  lfsr : BitVec 65536
  isOpen : Bool
  openTile : BitVec 3
  steps : BitVec 4
  pi1 : BitVec 4
  rndm : Bool
  scaled : Bool
  atype : BitVec 4
  btype : BitVec 4
  scale : W32
  hflags : BitVec 3
  hctl : BitVec 3
  deriving DecidableEq, Repr

/-- A range entry (R267). `pinned` is bit 5 of byte 27. -/
structure RangeEntry where
  vbase : Word
  length : Word
  target : Word
  gen : BitVec 16
  type : BitVec 2
  r : Bool
  w : Bool
  a : Bool
  cacheable : Bool
  sealedR : Bool
  counted : Bool
  scratch : Bool
  checkpoint : Bool
  pinned : Bool
  gran : BitVec 4
  state : BitVec 2
  cntIndex : BitVec 24
  deriving DecidableEq, Repr

/-- A request of the mover's queue made by the runtime (R289): progress in bytes, the running seal of an open destination block
(R287) and the fault it is held by. `behind` are the descriptors that ran on the mover when it was queued, which come before it. -/
structure MoverReq where
  src : Word
  dst : Word
  len : W32
  completion : Word
  progress : Nat
  run : Word
  fault : Option W32
  behind : List (StreamId × W32)
  deriving DecidableEq, Repr

/-- The share of a descriptor that runs on a cluster: its stream, index and the cluster's rank (R122, R231, R254), and for an image
operator the group it has reached and how many stripes or tiles of it are done (R240, R243, R244). -/
structure Share where
  st : StreamId
  idx : W32
  rank : Nat
  group : Nat
  unit : Nat
  deriving DecidableEq, Repr

/-- Rows of a layer's input that the line buffers hold (R240, R241): a rectangle and its elements, channel by channel. -/
structure CrustRows where
  y0 : Nat
  y1 : Nat
  x0 : Nat
  x1 : Nat
  cells : List Nat
  deriving DecidableEq, Repr

/-- What a runtime-executed share holds in cluster store beyond CSLIVE (R241, R244): line buffers, the weights and biases of the
group, and the accesses made since they last changed, `ahead` being those that a share that goes on has not come to again. -/
structure ShareWork where
  lines : List CrustRows
  weights : List (List Byte)
  done : List (List Byte)
  ahead : List (List Byte)
  deriving DecidableEq, Repr

/-- An error that a protected structure of a cluster holds (R344): the structure by its code and the place by its index of R353, and
whether SECDED corrects it. -/
structure EccMark where
  code : Byte
  index : Nat
  correctable : Bool
  deriving DecidableEq, Repr

/-- A fault that strikes the next operation of a checked datapath (R341-R343): the row of R342, the lane or cell, and the bits of the
result that flip. -/
structure Upset where
  row : Nat
  lane : Nat
  mask : Word
  deriving DecidableEq, Repr

/-- One cluster (R14). `store` is the 8 MiB cluster store, `window` the 4 KiB vector window, `storeBad` the store's 64-bit words and
`windowBad` the window's 32-bit words with an uncorrectable error, `marks` the errors of its other structures and the ones that SECDED
corrects (R344), `upsets` the faults about to strike its datapaths (R342). The three range caches of R271 hold the most recent entry
first. `job` is the grant with its job cluster index (R35), `share` the descriptor it runs and `work` what its share holds in the store,
`stopped` a stop for a pre-emption whose save has not ended (R47), `restoring` a saved context still to be loaded (R48), `fault` the
fault its Kestrel or Harrier is stopped by (R287). -/
structure Cluster where
  k : Kestrel
  h : Harrier
  m : Hearth
  store : Mem
  storeBad : List Nat
  storeBuf : List StoreEntry
  l1d : List L1Line
  l1i : List Target
  moverCache : List (Nat × RangeEntry)
  loadCache : List (Nat × RangeEntry)
  storeCache : List (Nat × RangeEntry)
  queue : List MoverReq
  window : BitVec 32768
  windowBad : List Nat
  marks : List EccMark
  upsets : List Upset
  powered : Bool
  job : Option (JobId × BitVec 6)
  stream : Option StreamId
  share : Option Share
  work : ShareWork
  stopped : Bool
  restoring : Bool
  fault : Option W32
  deriving DecidableEq, Repr

/-! ### Jobs, streams and rings -/

/-- Job states (R40), with the codes of R91. -/
inductive JobPhase where
  | created | running | suspended | waitCapacity | aborting | restarting | done | failed
  deriving DecidableEq, Repr

/-- A saved context (R35, R47): its job cluster index, the stream and share it ran, the fault it was saved in a stop
for (R178) and whether RESUME has named that fault since (R295). -/
structure SavedContext where
  jci : BitVec 6
  stream : Option StreamId
  share : Option Share
  fault : Option W32
  resumed : Bool
  deriving DecidableEq, Repr

/-- Progress of a fetched descriptor: not begun, running, or finished with a status and detail whose terminal record
is not yet written (R88). -/
inductive DescPhase where
  | fetched
  | running
  | finished (status : Byte) (detail : W32) (attempt : BitVec 4) (tick : Option Word)
  deriving DecidableEq, Repr

/-- A descriptor the device has fetched and not yet closed with its terminal record (R67). `faults` are the FAULT_IDs
it got FAULT_SUSPENDED for; the rest is the progress the device holds for it (R223, R253, R258, R282, R287, R290, R401): `hdr` and
`pages` are what it has captured, `aux2` holds the running seal of an open destination block, `late` the writes in the segment that a
MIGRATE waits for (R283). -/
structure Desc where
  idx : W32
  bits : Line
  phase : DescPhase
  faults : List W32
  heldBy : Option W32
  progress : Nat
  stage : Nat
  aux0 : Word
  aux1 : Word
  aux2 : Word
  nan : Bool
  inf : Bool
  flags : BitVec 5
  left : Nat
  hdr : Line
  pages : List Word
  late : List (Nat × List Byte)
  deriving DecidableEq, Repr

/-- The last checkpoint of a job that completed DONE (R38, R403). -/
structure LastCheckpoint where
  peer : BitVec 12
  slot : BitVec 4
  resume : List (StreamId × W32)
  deriving DecidableEq, Repr

/-- A job (R32, R36, R40). `aborted` says that an abort request makes the abort end in FAILED (R41, R42), `base` is the
tick at which job-relative period 0 is reckoned from (R53, R389), `attemptPending` a restart waiting to start,
`stripping` that every cluster is being taken and the saves are under way (R50), `restore` how far the RESTORE of a restart has come
(R38, R403). -/
structure Job where
  phase : JobPhase
  aspace : Fin 1024
  minCl : BitVec 6
  maxCl : BitVec 6
  attempts : BitVec 4
  fromCheckpoint : Bool
  seed : Word
  saveVa : Word
  attempt : BitVec 4
  startStream : StreamId
  aborted : Bool
  attemptPending : Bool
  stripping : Bool
  base : Option Word
  saved : List SavedContext
  snapshots : List (BitVec 6)
  ended : List StreamId
  ckpt : Option LastCheckpoint
  restore : Option Desc
  deriving DecidableEq, Repr

/-- Stream states (R43) but HALTED: a halted stream keeps the state of the descriptors it still processes (R44). -/
inductive StreamPhase where
  | idle | active | preempted | suspendedFault | dropping
  deriving DecidableEq, Repr

/-- A completion record before its slot, PHASE and number are known (R84). -/
structure Record where
  stream : StreamId
  status : Byte
  opcode : Byte
  tag : BitVec 16
  job : Byte
  attempt : BitVec 4
  nodesc : Bool
  index : W32
  period : W32
  tick : Option Word
  detail : W32
  irq : Bool
  deriving DecidableEq, Repr

/-- A stream (R43, R65-R70): the loaded entry, the indices, the doorbell SEQ values, the fetched descriptors, the
held notices, and the period state (R53-R57). `position` is the period of the next descriptor by its place in the ring, `starts` the index of
the first descriptor of each period that a PERIOD_MARK has shown, `restarts` the JOB_RESTARTED records still held (R94). -/
structure Stream where
  enabled : Bool
  phase : StreamPhase
  halted : Bool
  ringBase : Word
  log2Size : Byte
  job : JobId
  prio : BitVec 3
  urgent : Bool
  periodic : Bool
  function : FunctionId
  cring : JobId
  period : W32
  phaseTicks : W32
  budget : Word
  readIdx : W32
  producer : W32
  seqActed : Option W32
  seqPolled : W32
  haltReason : BitVec 2
  descs : List Desc
  notices : List Record
  nextTerminal : W32
  afterStart : Option W32
  position : W32
  current : W32
  periodOpen : Bool
  starts : List (W32 × W32)
  charge : Word
  demoted : Bool
  dropWait : Bool
  restarts : List Record
  deriving DecidableEq, Repr

/-- Run-time state of a ring (R85, R86, R90): record number `k`, the cached head, the records written and not yet
signalled, the tick of the oldest of them. -/
structure Ring where
  k : W32
  head : W32
  unsignalled : Nat
  oldest : Word
  deriving DecidableEq, Repr

/-- An event before its number is known (R91): type, COALESCED, tick and payload bytes 16-47. -/
structure Event where
  type : Byte
  coalesced : Bool
  tick : Word
  source : Nat
  payload : BitVec 256
  deriving DecidableEq, Repr

/-- A fault (R93): its record's fields, whether the record has been written (or never will be), and whether the fault is
neither resumed nor voided. -/
structure FaultInfo where
  id : W32
  stream : StreamId
  job : JobId
  access : BitVec 4
  va : Word
  aspace : Fin 1024
  master : Byte
  cluster : Option ClusterId
  period : W32
  tick : Word
  length : W32
  idx : Option W32
  written : Bool
  outstanding : Bool
  deriving DecidableEq, Repr

/-! ### Address spaces and memory -/

/-- A loaded address space (R263-R265). `ops` are the table operations that have begun and not ended, oldest first (R277). -/
structure Space where
  enabled : Bool
  function : FunctionId
  tableBase : Nat
  cntBase : Nat
  cntSize : Nat
  threshold : BitVec 16
  genctr : BitVec 16
  entries : List RangeEntry
  ops : List (StreamId × W32)
  deriving DecidableEq, Repr

/-- One L2 line (R314, R315): a DEVICE line (its bytes are in `State.mem`, which is the content at the point of
coherence) or a HOST line of a function with the bytes it holds. -/
structure L2Line where
  host : Option Nat
  line : Nat
  way : Nat
  dirty : Bool
  bytes : Line
  deriving DecidableEq, Repr

/-- The L2 of one quadrant (R317, R318, R442): ways ON, ways CLEANING, and whether the quadrant is powered off. The ways
requested on are PWR_L2Qq_WAYON. -/
structure Quad where
  on : BitVec 16
  cleaning : BitVec 16
  off : Bool
  deriving DecidableEq, Repr

/-! ### Integrity, Talon, dump -/

/-- A master held in Talon (R301-R305): `job` owns it, if a job does, and `release` says that a release waits for DUMPED. -/
structure Frozen where
  kind : MasterKind
  number : Byte
  dumped : Bool
  job : Option JobId
  cause : Byte
  release : Bool
  deriving DecidableEq, Repr

/-- A unit of the epoch table (R443, R446, R447). -/
structure UnitReset where
  epoch : BitVec 4
  inReset : Bool
  lastTick : Option Word
  again : Bool
  deriving DecidableEq, Repr

/-- An entry of the local error log (R351, R352); `body` is bytes 48-255. -/
structure LogEntry where
  seqNo : W32
  type : Byte
  source : Byte
  unit : Byte
  severity : Byte
  tick : Word
  job : Byte
  attempt : BitVec 4
  cause : Byte
  flags : Byte
  count : W32
  paddr : Word
  expected : W32
  observed : W32
  site : Byte
  stop : Byte
  aspace : BitVec 16
  body : BitVec 1664
  deriving DecidableEq, Repr

/-- A section-table entry of the dump area (R457). -/
structure Section where
  cause : Byte
  status : Byte
  tick : Word
  deriving DecidableEq, Repr

/-! ### Evoir -/

/-- What a flit carries (R369, R370): nothing, a fabric packet, or a LINK message. A LOAD_PROPOSE goes in two flits; `half`
is the half of the table it carries. -/
inductive FlitBody where
  | null
  | data (pkt : Packet)
  | nak (expected : BitVec 12)
  | loadPropose (lane : BitVec 2) (half : Bool) (id : Byte) (sf : BitVec 16) (bytes : List Byte)
  | loadAccept (lane : Byte) (id : Byte) (sf : BitVec 16)
  | resync (expected : BitVec 12)
  deriving DecidableEq, Repr

/-- A flit with its SEQ (R369). Its ACK is the receiver's expected SEQ whenever it is sent. -/
structure Flit where
  seq : BitVec 12
  body : FlitBody
  deriving DecidableEq, Repr

/-- A flit as it goes out, with the ACK it carries (R369). -/
structure TxFlit where
  ack : BitVec 12
  fl : Flit
  deriving DecidableEq, Repr

/-- A codeword given to a lane: its place among the codewords of the burst, and its four flits (R366, R368). -/
structure TxWord where
  pos : Nat
  flits : List TxFlit
  deriving DecidableEq, Repr

/-- What a bin of a symbol carries: the point x + iy on an integer grid of mean energy `energy` (R358, R368). -/
structure Tone where
  x : Int
  y : Int
  energy : Nat
  deriving DecidableEq, Repr

/-- The training phase of a port (R373). -/
inductive TrainPhase where
  | none | lock | detect | probe | exchange | verify
  deriving DecidableEq, Repr

/-- A pending table swap of a lane (R365). -/
structure Swap where
  id : Byte
  at_ : BitVec 16
  deriving DecidableEq, Repr

/-- One lane of a port (R358-R368): receive and transmit loading tables in banks A and B, the active bank of each
direction, the pending swaps, and the superframes since the last computation of a table. Of the receiver: the last reading of the IDLE
flag, the squared errors of the last 64 IDLE symbols (newest first, one per data sub-carrier), the squared errors of the 16 pilots
summed over the last superframe, those that the active table and a proposed one were computed from, and the codewords that failed in
this superframe. Of the transmitter: the generators of pilots and IDLE symbols, the codewords not yet sent, and the bits of the first
of them that are. -/
structure Lane where
  rxA : List (BitVec 4)
  rxB : List (BitVec 4)
  rxBank : Bool
  rxSwap : Option Swap
  txA : List (BitVec 4)
  txB : List (BitVec 4)
  txBank : Bool
  txSwap : Option Swap
  nextId : Byte
  sinceLoad : Nat
  up : Bool
  idleSeen : Bool
  errors : List (List Nat)
  pilotErr : List Nat
  pilotUsed : List Nat
  pilotNext : List Nat
  cwFails : Nat
  pilotGen : BitVec 11
  idleGen : BitVec 15
  coded : List TxWord
  sent : Nat
  deriving DecidableEq, Repr

/-- Where a port stands in the sleep agreement (R392, R393). -/
inductive SleepPhase where
  | none | requested | confirmed | acked | aborted | entering | stoop
  deriving DecidableEq, Repr

/-- An Evoir port (R360-R380, R391-R398). `superframe` counts the received burst and `txFrame` the transmitted one; `agcFrozen` says
that the correlator has fired, with the symbol timing fixed, and `equalised` that the equaliser holds what PA and PB gave it; `group` is
the codeword being filled and `words` the codewords of the burst. `lstate` is the LINK code of R380; `update` says that its link controller waits for a
self-contained update, `updating` that it has drained or drains for it (R430). -/
structure Port where
  lstate : Byte
  train : TrainPhase
  roostExit : Bool
  fails : Nat
  cable : Bool
  agcFrozen : Bool
  equalised : Bool
  superframe : W32
  txFrame : W32
  group : List TxFlit
  words : Nat
  lanes : Table Lane
  nextSeq : BitVec 12
  replay : List Flit
  waiting : List FlitBody
  expected : BitVec 12
  early : List Flit
  nakSent : Bool
  noProgress : Nat
  cwFail : W32
  crcFail : W32
  replays : W32
  retrains : W32
  neigh : BitVec 12
  neighValid : Bool
  sleep : SleepPhase
  sleepRoost : Bool
  wake : Bool
  draining : Bool
  powered : Bool
  update : Bool
  updating : Bool
  deriving DecidableEq, Repr

/-- What an outstanding request to a peer is for: a Kestrel load into `reg` (`how` is its LOAD MINOR3, R101), a Kestrel
store or atomic, a mover's read or write, or a step of a CHECKPOINT. -/
inductive PeerFor where
  | load (reg : BitVec 5) (how : Nat)
  | store
  | atomic (reg : BitVec 5) (w32 : Bool)
  | moveRead
  | moveWrite
  | ckpt
  deriving DecidableEq, Repr

/-- An outstanding request of this device to a peer (R384, R387): tag, destination, requesting master, the virtual address
of the access, the descriptor it serves, the port it took, the data and seal of its answer once it is there, and the generation it was
translated through (R273). -/
structure PeerReq where
  tag : BitVec 16
  dst : BitVec 12
  mkind : MasterKind
  cluster : ClusterId
  job : JobId
  purpose : PeerFor
  va : Word
  sealedBlk : Bool
  len : Nat
  port : PortId
  work : Option (StreamId × W32)
  answer : Option (List Byte)
  crc : W32
  gen : BitVec 16
  deriving DecidableEq, Repr

/-! ### Host interface and management -/

/-- One MSI-X table entry with its pending bit (R415). -/
structure Msix where
  addr : Word
  data : W32
  masked : Bool
  pending : Bool
  deriving DecidableEq, Repr

/-- Firmware update by PLDM (R430, R431): per component, the image staged in the inactive slot: bytes received, whether VerifyComplete
accepted it, and its security version. -/
structure Staged where
  component : BitVec 16
  received : Nat
  verified : Bool
  svn : BitVec 16
  deriving DecidableEq, Repr

/-- Device states of DMP_STATE (R451), and the card without power (R350, R441). -/
inductive DeviceState where
  | booting | ready | failed | recovery | off
  deriving DecidableEq, Repr

/-! ### What leaves the device -/

/-- What the device has sent outward: record writes, messages, data writes to host memory, answers to accesses,
packets and link messages, management answers and AER reports. -/
inductive Outbound where
  | completionRecord (ring : JobId) (f : Nat) (iova : Word) (slot : Nat) (bits : BitVec 256)
  | eventRecord (iova : Word) (slot : Nat) (bits : Line)
  | faultRecord (iova : Word) (slot : Nat) (bits : Line)
  | msix (f : Nat) (vector : Nat) (addr : Word) (data : W32)
  | hostRead (f : Nat) (iova : Word) (len : Nat)
  | hostWrite (f : Nat) (iova : Nat) (bytes : List Byte)
  | mmioData (value : Word)
  | bar2Data (bytes : List Byte) (poisoned : Bool)
  | unsupportedRequest
  | flit (p : PortId) (ack : BitVec 12) (fl : Flit)
  | nullFlits (p : PortId)
  | symbols (p : PortId) (lane : Nat) (first : Nat) (tones : List (List Tone))
  | deliver (p : PortId) (fl : Flit)
  | management (code : Byte) (bytes : List Byte)
  | platformEvent (receiver : Byte) (sensor : Nat) (state : Nat)
  | aerUncorrectableInternal
  deriving DecidableEq, Repr

/-! ### The whole -/

/-- The polling of a doorbell line (R71): the tick of its last read, the tick a read last showed a changed SEQ, and whether a read has
gone out and not come back. -/
structure LinePoll where
  last : Option Word
  changed : Option Word
  asked : Bool
  deriving DecidableEq, Repr

/-- The work model: jobs, streams, rings, events and faults; `lines` is the polling of each doorbell line (R71),
`groupEnable` and `groupAnchor` the group set-up of each job number (R378, R389). -/
structure Sched where
  jobs : Table (Option Job)
  streams : Table Stream
  rings : Table Ring
  events : List Event
  eventsHeld : List Event
  evtLost : W32
  faults : List FaultInfo
  nextFault : W32
  lines : Table LinePoll
  groupEnable : Table Bool
  groupAnchor : Table Word
  deriving DecidableEq, Repr

/-- Memory and translation: device memory at the point of coherence, poisoned lines, the errors of L2 data, L2 tags and DRAM that SECDED
and on-die ECC correct (R344), L2 lines, quadrants, lost slices and stacks, address spaces (R278: the access counters lie in
`mem`). -/
structure Memory where
  mem : Mem
  poison : List Nat
  marks : List EccMark
  l2 : List L2Line
  quads : Table Quad
  slicesLost : BitVec 64
  stacksLost : BitVec 6
  stacksTrained : BitVec 6
  spaces : Table Space
  deriving DecidableEq, Repr

/-- Integrity, Talon and the dump: the error log (R350) and its unreadable slots (R344), the retirement list (R30), suspect events (R346, R347), masters in Talon,
the epoch table (R443), and the DMP block with the progress of a dump (R451-R457). `romDump` says that the boot ROM's dump path
runs (R455, R461). -/
structure Integrity where
  log : Table LogEntry
  logBad : List Nat
  logNext : W32
  retired : BitVec 48
  suspects : Table (List Word)
  retiring : List ClusterId
  talon : List Frozen
  units : Table UnitReset
  dumpState : BitVec 3
  reason : BitVec 3
  dumpBase : Nat
  sections : Table Section
  summaryErr : Bool
  meas : BitVec 1152
  svn : BitVec 16
  slot : Bool
  tickFatal : Word
  tickDone : Word
  dumpNext : Nat
  dumpDetail : W32
  romDump : Bool
  deriving DecidableEq, Repr

/-- The Evoir fabric of this device; `tbSlew` is what is left of a slew in ticks, `tbSlewIn` the ticks before its next step (R388). -/
structure Fabric where
  ports : Table Port
  cuts : Table (BitVec 16)
  tbState : BitVec 2
  tbHops : BitVec 5
  tbOffset : W32
  tbMissed : Nat
  tbStepped : Bool
  tbSlew : Int
  tbSlewIn : Nat
  requests : List PeerReq
  nextTag : BitVec 16
  deriving DecidableEq, Repr

/-- A BAR2 access held while a unit it reaches is under reset (R445): its function and its offset in that function's BAR2. -/
structure HeldBar2 where
  function : FunctionId
  off : Nat
  access : VfAccess
  deriving DecidableEq, Repr

/-- The errors of AER that the device reports (R416). -/
inductive AerError where
  | receiverError | badTlp | badDllp | replayTimeout | replayRollover | correctedInternal
  | poisonedTlp | ecrcError | unsupportedRequest | completionTimeout | unexpectedCompletion
  | malformedTlp | receiverOverflow | flowControl | dataLinkProtocol | uncorrectableInternal
  deriving DecidableEq, Repr

/-- The host interface and management (R405-R418, R426-R431): the link, the PERST# pin, MSI-X, the host-error registers, the AER status
bits of each function (sticky, with no repeats), the held BAR2 accesses, the MCTP and PLDM identities and the firmware slots. -/
structure HostSide where
  linkUp : Bool
  link : LinkTraining
  perst : Bool
  msix : Table Msix
  msixEnable : BitVec 32
  msixMask : BitVec 32
  ringErr : BitVec 288
  errKind : BitVec 3
  errFunction : BitVec 5
  errAddr : Word
  aer : List (FunctionId × AerError)
  b2Held : List HeldBar2
  eid : Byte
  tid : Byte
  eventReceiver : Option Byte
  staged : List Staged
  activeSlot : Bool
  flashSvn : BitVec 16
  fwVersion : W32
  deriving DecidableEq, Repr

/-- Identity, clocks, power and temperature. -/
structure Card where
  device : DeviceState
  lot0 : W32
  lot1 : W32
  wafer : W32
  test : W32
  revision : Byte
  sites : Table Nat
  fuseLoaded : Bool
  boardW : BitVec 10
  auxPower : Bool
  live : BitVec 48
  rootLock : Bool
  mw : W32
  level : BitVec 4
  floor : BitVec 4
  stall : Bool
  hotspot : BitVec 16
  refresh2 : BitVec 6
  slowReq : BitVec 6
  selfRefresh : BitVec 6
  stackTemp : Table (BitVec 16)
  memOn : BitVec 6
  deriving DecidableEq, Repr

/-- The set-up registers that software reads back as written, by BAR0 offset (R468), and the GEN_SETUP_ERR registers
(R464). -/
structure Setup where
  regs : Table W32
  errCount : BitVec 16
  errReason : BitVec 4
  errFunction : BitVec 5
  errAddr : BitVec 26
  errData : Word
  latch : Option W32
  deriving DecidableEq, Repr

/-- The whole device. `pending` is the queue of commands that wait, first in first out; `out` is everything sent
outward, oldest first; `free` counts the free values used (the model's own field). -/
structure State where
  pending : List Instr
  out : List Outbound
  free : Nat
  tick : Word
  clusters : Table Cluster
  sched : Sched
  memory : Memory
  integ : Integrity
  fabric : Fabric
  host : HostSide
  card : Card
  setup : Setup
  deriving DecidableEq, Repr

/-- Why a step stops with a fault. -/
inductive Fault where
  /-- Kept for an access to a DEVICE address at or above 48 GiB, which does not exist (R319). No command raises it: an
  entry with such a target is not valid (R268), so lookups find no range there and the access takes the translation
  fault of R269. Safe. -/
  | noSuchDeviceAddress
  deriving DecidableEq, Repr

/-- Why a step refuses a command. -/
inductive Refusal where
  /-- Raised by the dispatcher for a command that has no meaning yet. Safe: the step stops. -/
  | notModelled (mnemonic : String)
  deriving DecidableEq, Repr

/-! ### The state after reset -/

/-- A Kestrel at reset (R97, R98, R142, R143, R147): LEVEL 1, TIMECMP all ones, everything else zero. -/
def Kestrel.reset : Kestrel :=
  { g := [], pc := 0, level := 1, ie := false, det := false, cause := 0, tval := 0, esp := 0, irqPend := 0
    irqEn := 0, timecmp := BitVec.allOnes 64, csback := 0, cslive := 0, ssp := 0, ocause := 0, otval := 0
    oepc := 0, ostatus := 0, oesp := 0, osp := 0, run := .running, reports := [] }

/-- A zeroed AMAX slot (R217). -/
def AmaxSlot.zero : AmaxSlot := { value := 0, nanSeen := false, infSeen := false }

/-- A Harrier at reset (R162). -/
def Harrier.reset : Harrier :=
  { v := [], p := [], vl := 0, vctl := 0, vflags := 0, vprogIndex := 0, vprogValid := false, amax := [] }

/-- A Hearth at reset (R196): zero tiles and partials and no open interval; the LFSRs are seeded at a grant. -/
def Hearth.reset : Hearth :=
  { tiles := [], partials := 0, lfsr := 0, isOpen := false, openTile := 0, steps := 0, pi1 := 0, rndm := false
    scaled := false, atype := 0, btype := 0, scale := 0, hflags := 0, hctl := 0 }

/-- No work of a share. -/
def ShareWork.empty : ShareWork := { lines := [], weights := [], done := [], ahead := [] }

/-- A cluster at reset: no power, no job, a zeroed store (R438). -/
def Cluster.reset : Cluster :=
  { k := Kestrel.reset, h := Harrier.reset, m := Hearth.reset, store := [], storeBad := [], storeBuf := []
    l1d := [], l1i := [], moverCache := [], loadCache := [], storeCache := [], queue := []
    window := 0, windowBad := [], marks := [], upsets := [], powered := false, job := none, stream := none, share := none
    work := ShareWork.empty, stopped := false
    restoring := false, fault := none }

/-- A doorbell line that was never read. -/
def LinePoll.reset : LinePoll := { last := none, changed := none, asked := false }

/-- A stream that nothing has loaded (R470: a disabled stream reads STATE 0 with ENABLE 0). -/
def Stream.reset : Stream :=
  { enabled := false, phase := .idle, halted := false, ringBase := 0, log2Size := 0, job := 0, prio := 0, urgent := false
    periodic := false, function := 0, cring := 0, period := 0, phaseTicks := 0, budget := 0, readIdx := 0
    producer := 0, seqActed := none, seqPolled := 0, haltReason := 0, descs := [], notices := []
    nextTerminal := 0, afterStart := none, position := 0, current := 0, periodOpen := false, starts := []
    charge := 0, demoted := false, dropWait := false, restarts := [] }

/-- A ring that was never enabled. -/
def Ring.reset : Ring := { k := 0, head := 0, unsignalled := 0, oldest := 0 }

/-- An address space that was never loaded (R472). -/
def Space.reset : Space :=
  { enabled := false, function := 0, tableBase := 0, cntBase := 0, cntSize := 0, threshold := 0, genctr := 0
    entries := [], ops := [] }

/-- A quadrant at reset: every way ON (R317). -/
def Quad.reset : Quad := { on := 0xFFFF, cleaning := 0, off := false }

/-- A unit of the epoch table at reset. -/
def UnitReset.reset : UnitReset := { epoch := 0, inReset := false, lastTick := none, again := false }

/-- An empty section-table entry (R457). -/
def Section.empty : Section := { cause := 0, status := 0, tick := 0 }

/-- A lane with no table. -/
def Lane.reset : Lane :=
  { rxA := [], rxB := [], rxBank := false, rxSwap := none, txA := [], txB := [], txBank := false, txSwap := none
    nextId := 0, sinceLoad := 0, up := false, idleSeen := false, errors := [], pilotErr := [], pilotUsed := [], pilotNext := []
    cwFails := 0, pilotGen := 0x7FF, idleGen := 0x7FFF, coded := [], sent := 0 }

/-- A port at reset: no cable known, no training (R376, R380). -/
def Port.reset : Port :=
  { lstate := 0, train := .none, roostExit := false, fails := 0, cable := false, agcFrozen := false
    equalised := false, superframe := 0, txFrame := 0, group := [], words := 0, lanes := [], nextSeq := 0, replay := [], waiting := [], expected := 0, early := []
    nakSent := false, noProgress := 0, cwFail := 0, crcFail := 0, replays := 0, retrains := 0, neigh := 0
    neighValid := false, sleep := .none, sleepRoost := false, wake := false, draining := false, powered := false, update := false
    updating := false }

/-- An MSI-X entry at reset: masked, nothing pending (R413). -/
def Msix.reset : Msix := { addr := 0, data := 0, masked := true, pending := false }

/-- The work model at reset: no job, no stream, no ring (R420). -/
def Sched.reset : Sched :=
  { jobs := [], streams := [], rings := [], events := [], eventsHeld := [], evtLost := 0, faults := []
    nextFault := 0, lines := [], groupEnable := [], groupAnchor := [] }

/-- Memory at reset: nothing listed, nothing cached, no address space (R420). -/
def Memory.reset : Memory :=
  { mem := [], poison := [], marks := [], l2 := [], quads := [], slicesLost := 0, stacksLost := 0, stacksTrained := 0
    spaces := [] }

/-- Integrity state at power-on: an empty log (R348), no retired cluster, no dump (R451). -/
def Integrity.reset : Integrity :=
  { log := [], logBad := [], logNext := 0, retired := 0, suspects := [], retiring := [], talon := []
    units := [], dumpState := 0, reason := 0, dumpBase := 0, sections := [], summaryErr := false, meas := 0
    svn := 0, slot := false, tickFatal := 0, tickDone := 0, dumpNext := 0, dumpDetail := 0, romDump := false }

/-- The fabric at reset (R378, R388). -/
def Fabric.reset : Fabric :=
  { ports := [], cuts := [], tbState := 0, tbHops := 31, tbOffset := 0, tbMissed := 0, tbStepped := false
    tbSlew := 0, tbSlewIn := 0, requests := [], nextTag := 0 }

/-- The host side at reset (R413, R415, R418). -/
def HostSide.reset : HostSide :=
  { linkUp := false, link := ⟨0, 0, false⟩, perst := false, msix := []
    msixEnable := 0, msixMask := 0, ringErr := 0, errKind := 0, errFunction := 0, errAddr := 0, aer := []
    b2Held := [], eid := 0, tid := 0, eventReceiver := none, staged := [], activeSlot := false
    flashSvn := 0, fwVersion := 0 }

/-- The card at reset: BOOTING (R451); the fuses of a die whose sites 0-47 are enabled. -/
def Card.reset : Card :=
  { device := .booting, lot0 := 0x30303030, lot1 := 0x3030, wafer := 0x01000001, test := 0x00010000
    revision := 0, sites := [], fuseLoaded := false, boardW := 0, auxPower := false, live := 0, rootLock := false
    mw := 0, level := 0, floor := 0, stall := false, hotspot := 0, refresh2 := 0, slowReq := 0, selfRefresh := 0
    stackTemp := [], memOn := 0 }

/-- The set-up registers at reset: none differs from its reset value (R468). -/
def Setup.reset : Setup :=
  { regs := [], errCount := 0, errReason := 0, errFunction := 0, errAddr := 0, errData := 0, latch := none }

/-- The device right after power-on reset: every field at the reset value of its rule, DMP_STATE.DEVICE at BOOTING
(R451), the queue empty. COLD_RESET then runs the boot sequence of R448. -/
def State.reset : State :=
  { pending := [], out := [], free := 0, tick := 0, clusters := [], sched := Sched.reset, memory := Memory.reset
    integ := Integrity.reset, fabric := Fabric.reset, host := HostSide.reset, card := Card.reset
    setup := Setup.reset }

end Sys2Proof.Machine
end

