-- ==== Sys2Proof/Machine/Ops.lean ====
section
/-! DEFINITION. The named operations over the state: reading and writing one unit, sending something outward, the
set-up registers, the local error log, events, MSI-X messages and the records of rings. -/
namespace Sys2Proof.Machine

/-- The outcome of a command of this device. -/
abbrev Result := Host.Outcome State Fault Refusal

/-! ### One unit of the state -/

def State.cluster (s : State) (c : ClusterId) : Cluster := Table.get Cluster.reset s.clusters c.val
def State.setCluster (s : State) (c : ClusterId) (x : Cluster) : State :=
  { s with clusters := Table.set s.clusters c.val x }
def State.modCluster (s : State) (c : ClusterId) (f : Cluster → Cluster) : State := s.setCluster c (f (s.cluster c))

def State.stream (s : State) (st : StreamId) : Stream := Table.get Stream.reset s.sched.streams st.val
def State.setStream (s : State) (st : StreamId) (x : Stream) : State :=
  { s with sched := { s.sched with streams := Table.set s.sched.streams st.val x } }
def State.modStream (s : State) (st : StreamId) (f : Stream → Stream) : State := s.setStream st (f (s.stream st))

def State.job (s : State) (j : JobId) : Option Job := Table.get none s.sched.jobs j.val
def State.setJob (s : State) (j : JobId) (x : Option Job) : State :=
  { s with sched := { s.sched with jobs := Table.set s.sched.jobs j.val x } }
def State.modJob (s : State) (j : JobId) (f : Job → Job) : State := s.setJob j ((s.job j).map f)

def State.ring (s : State) (r : RingId) : Ring := Table.get Ring.reset s.sched.rings r.val
def State.setRing (s : State) (r : RingId) (x : Ring) : State :=
  { s with sched := { s.sched with rings := Table.set s.sched.rings r.val x } }

def State.space (s : State) (a : Fin 1024) : Space := Table.get Space.reset s.memory.spaces a.val
def State.setSpace (s : State) (a : Fin 1024) (x : Space) : State :=
  { s with memory := { s.memory with spaces := Table.set s.memory.spaces a.val x } }

def State.quad (s : State) (q : QuadId) : Quad := Table.get Quad.reset s.memory.quads q.val
def State.setQuad (s : State) (q : QuadId) (x : Quad) : State :=
  { s with memory := { s.memory with quads := Table.set s.memory.quads q.val x } }

def State.port (s : State) (p : PortId) : Port := Table.get Port.reset s.fabric.ports p.val
def State.setPort (s : State) (p : PortId) (x : Port) : State :=
  { s with fabric := { s.fabric with ports := Table.set s.fabric.ports p.val x } }
def State.modPort (s : State) (p : PortId) (f : Port → Port) : State := s.setPort p (f (s.port p))

/-- The key of a unit in the epoch table (R443). -/
def unitKey (kind number : Nat) : Nat := 256 * kind + number
def State.unit (s : State) (kind number : Nat) : UnitReset :=
  Table.get UnitReset.reset s.integ.units (unitKey kind number)
def State.setUnit (s : State) (kind number : Nat) (x : UnitReset) : State :=
  { s with integ := { s.integ with units := Table.set s.integ.units (unitKey kind number) x } }

/-- The key of an MSI-X vector. -/
def msixKey (f v : Nat) : Nat := 2048 * f + v
def State.msix (s : State) (f v : Nat) : Msix := Table.get Msix.reset s.host.msix (msixKey f v)
def State.setMsix (s : State) (f v : Nat) (x : Msix) : State :=
  { s with host := { s.host with msix := Table.set s.host.msix (msixKey f v) x } }

/-- A number as a job number. -/
def JobId.ofNat' (n : Nat) : JobId := ⟨n % 256, by omega⟩
/-- A number as a stream number. -/
def StreamId.ofNat' (n : Nat) : StreamId := ⟨n % 4096, by omega⟩
/-- A number as an address space. -/
def AspId.ofNat' (n : Nat) : Fin 1024 := ⟨n % 1024, by omega⟩

/-- The doorbell line that a stream's word lies in (R65, R69). -/
def lineOf (st : StreamId) : Fin 512 := ⟨st.val / 8, by omega⟩
/-- The streams whose doorbell words lie in a line. -/
def lineStreams (line : Fin 512) : List StreamId := (List.range 8).map (fun k => StreamId.ofNat' (8 * line.val + k))

/-- Send something outward. -/
def State.emit (s : State) (o : Outbound) : State := { s with out := s.out ++ [o] }

/-- The device takes work only in READY, until a device-fatal condition (R448, R454, R467). -/
def State.ready (s : State) : Bool := decide (s.card.device = .ready) && decide (s.integ.reason = 0)

/-- Does the host interface answer at all: the link is up and the device is past its boot (R448, R467)? -/
def State.hostAnswers (s : State) : Bool :=
  s.host.linkUp && decide (s.card.device ≠ .booting ∧ s.card.device ≠ .off)

/-- The live bit of a cluster (R27). -/
def State.isLive (s : State) (c : ClusterId) : Bool := s.card.live.getLsbD c.val

/-- GEN_CL_COUNT (R27). -/
def State.liveCount (s : State) : Nat := countBits s.card.live 48

/-- The logical clusters, the streams that anything has touched, the jobs that exist, in ascending order. -/
def allClusters : List ClusterId := List.finRange 48
def State.streamIds (s : State) : List StreamId :=
  s.sched.streams.filterMap (fun e => if h : e.1 < 4096 then some ⟨e.1, h⟩ else none)
def State.jobIds (s : State) : List JobId :=
  s.sched.jobs.filterMap (fun e => if h : e.1 < 256 then (if e.2.isSome then some ⟨e.1, h⟩ else none) else none)

/-- The streams that the stream table assigns to a job (R32), in stream order. -/
def State.jobStreams (s : State) (j : JobId) : List StreamId :=
  s.streamIds.filter (fun st => (s.stream st).enabled && decide ((s.stream st).job = j))

/-- The clusters a job holds, in logical order. -/
def State.jobClusters (s : State) (j : JobId) : List ClusterId :=
  allClusters.filter (fun c => match (s.cluster c).job with
    | some (j', _) => decide (j' = j)
    | none => false)

/-- The cluster that holds a job cluster index. -/
def State.jciCluster (s : State) (j : JobId) (jci : BitVec 6) : Option ClusterId :=
  (s.jobClusters j).find? (fun c => match (s.cluster c).job with
    | some (_, i) => decide (i = jci)
    | none => false)

/-! ### Identity (R15-R18, R25, R28) -/

/-- The physical site at a logical cluster's stop; a primary site unless the fuses name a spare. -/
def State.site (s : State) (c : ClusterId) : Nat := Table.get c.val s.card.sites c.val
/-- Stop column and row of a logical cluster (R17). -/
def stopColumn (c : ClusterId) : Nat := c.val % 6
def stopRow (c : ClusterId) : Nat := c.val / 6
/-- The quadrant of a stop (01_anatomy). -/
def stopQuadrant (c : ClusterId) : Nat := (if stopColumn c < 3 then 0 else 1) + (if stopRow c < 4 then 0 else 2)
/-- The stop of a logical cluster (R17). -/
def clusterStop (c : ClusterId) : Nat × Nat := (stopColumn c, stopRow c)
/-- The stops of the agents beside the clusters, as column and row (R18): the four gateways of an L2 quadrant. -/
def quadrantStops (q : QuadId) : List (Nat × Nat) :=
  let col := if q.val % 2 = 0 then 1 else 3
  let row := if q.val < 2 then 2 else 4
  [(col, row), (col + 1, row), (col, row + 1), (col + 1, row + 1)]
/-- The stop of a memory controller (R18). -/
def controllerStop (i : StackId) : Nat × Nat := (if i.val < 3 then 0 else 5, nthD [1, 4, 6] (i.val % 3) 0)
/-- The stop of an Evoir port (R18). -/
def portStop (p : PortId) : Nat × Nat := (p.val % 4 + 1, if p.val < 4 then 0 else 7)
/-- The stops of the host interface and of the Steward (R18). -/
def hostStop : Nat × Nat := (0, 0)
def stewardStop : Nat × Nat := (5, 0)

/-- CL_ID (R28). -/
def State.clId (s : State) (c : ClusterId) : W32 :=
  BitVec.ofNat 32 (c.val + 2 ^ 8 * s.site c + 2 ^ 16 * stopColumn c + 2 ^ 20 * stopRow c)

/-- A state sensor of the platform repository takes a new state: PlatformEventMessage goes to a receiver that set itself (R427,
R428). -/
def State.sensorEvent (s : State) (sensor state : Nat) : State :=
  match s.host.eventReceiver with
  | some e => s.emit (.platformEvent e sensor state)
  | none => s

/-! ### Set-up registers -/

/-- BAR0 offsets of the STB block and of the port blocks (R468). -/
def stbBase : Nat := 0x40000
def evlBase (p : PortId) : Nat := 0x100000 + 0x10000 * p.val

/-- The reset value of a register that software reads back as written (the reset columns of R317, R348, R376, R437,
R475); every other one resets to 0. -/
def regReset (off : Nat) : W32 :=
  if off = 0x60010 then 0x1803
  else if off = 0x20014 then 10
  else if 0x20100 ≤ off ∧ off < 0x20140 ∧ off % 16 = 0 then 0xFFFF
  else if 0x100000 ≤ off ∧ off < 0x180000 then
    let o := off % 0x10000
    let p := (off - 0x100000) / 0x10000
    if o = 0 then 0xC00C0101
    else if o = 4 then 0x03200010
    else if o = 0x30 then 0x00C80190
    else if o = 0x34 then BitVec.ofNat 32 (min p 6)
    else 0
  else 0

def State.reg (s : State) (off : Nat) : W32 := Table.get (regReset off) s.setup.regs off
def State.setReg (s : State) (off : Nat) (v : W32) : State :=
  { s with setup := { s.setup with regs := Table.set s.setup.regs off v } }

/-- A register pair as one 64-bit value. -/
def State.regPair (s : State) (off : Nat) : Nat := (s.reg off).toNat + 2 ^ 32 * (s.reg (off + 4)).toNat

/-- A discarded write is counted, and its REASON, FUNCTION, ADDR and DATA recorded (R464). -/
def State.setupErr (s : State) (reason : Nat) (f : Nat) (off : Nat) (data : Word) : State :=
  { s with setup := { s.setup with
      errCount := if s.setup.errCount = 0xFFFF then 0xFFFF else s.setup.errCount + 1
      errReason := BitVec.ofNat 4 reason
      errFunction := BitVec.ofNat 5 f
      errAddr := BitVec.ofNat 26 off
      errData := data } }

/-! ### The local error log (R350-R353) -/

/-- An entry of a type, source, unit and severity with everything else zero, detected now. -/
def State.logEntry (s : State) (type source unit severity : Nat) : LogEntry :=
  { seqNo := 0, type := BitVec.ofNat 8 type, source := BitVec.ofNat 8 source, unit := BitVec.ofNat 8 unit
    severity := BitVec.ofNat 8 severity, tick := s.tick, job := 0xFF, attempt := 0, cause := 0, flags := 0, count := 1
    paddr := 0, expected := 0, observed := 0, site := 0, stop := 0, aspace := 0, body := 0 }

/-- Fill the job, its address space, the site and the stop of a cluster's entry (R351). -/
def State.logCluster (s : State) (c : ClusterId) (e : LogEntry) : LogEntry :=
  let e := { e with site := BitVec.ofNat 8 (s.site c), stop := BitVec.ofNat 8 (stopColumn c + 16 * stopRow c) }
  match (s.cluster c).job with
  | some (j, _) => { e with
      job := BitVec.ofNat 8 j.val
      attempt := ((s.job j).map (·.attempt)).getD 0
      aspace := ((s.job j).map (fun x => BitVec.ofNat 16 x.aspace.val)).getD 0 }
  | none => e

/-- Write an entry at ERR_LOG_NEXT (R350); an error that its slot held is gone (R344). -/
def State.addLog (s : State) (e : LogEntry) : State :=
  { s with integ := { s.integ with
      logBad := s.integ.logBad.filter (fun n => decide (n ≠ s.integ.logNext.toNat % 4096))
      log := Table.set s.integ.log (s.integ.logNext.toNat % 4096) { e with seqNo := s.integ.logNext }
      logNext := s.integ.logNext + 1 } }

/-- An empty slot of the log. -/
def LogEntry.empty : LogEntry :=
  { seqNo := 0, type := 0, source := 0, unit := 0, severity := 0, tick := 0, job := 0, attempt := 0, cause := 0
    flags := 0, count := 0, paddr := 0, expected := 0, observed := 0, site := 0, stop := 0, aspace := 0, body := 0 }

/-- Is entry `n` still held (R350)? An entry marked unreadable for an uncorrectable error of the log SRAM (R344) shows as one that is not:
DESIGN CHOICE (log entry 126). -/
def State.logHeld (s : State) (n : W32) : Bool :=
  let e := Table.get LogEntry.empty s.integ.log (n.toNat % 4096)
  decide (e.seqNo = n) && (decide (e.count ≠ 0) && !s.integ.logBad.contains (n.toNat % 4096))

/-- Put a number of `len` bytes at body byte `b - 48` of an entry. -/
def bodyPut (e : LogEntry) (b len : Nat) (v : Nat) : LogEntry :=
  { e with body := putBits e.body (8 * (b - 48)) (BitVec.ofNat (8 * len) v) }

/-- A corrected error: within 1 second of the unit's last entry of the same type it counts there (R352). -/
def State.logCorrected (s : State) (e : LogEntry) : State :=
  match s.integ.log.find? (fun x => decide (x.2.type = e.type) && decide (x.2.source = e.source)
      && decide (x.2.unit = e.unit) && decide ((s.tick - x.2.tick).toNat ≤ 200000000)) with
  | some (k, x) =>
    let x' := { x with count := x.count + 1, flags := x.flags ||| 4 }
    { s with integ := { s.integ with log := Table.set s.integ.log k x' } }
  | none => s.addLog e

/-! ### Polling (R63, R71) -/

/-- The base address of the doorbell table (R62). -/
def State.doorbellBase (s : State) : Nat := s.regPair (stbBase + 8)

def State.line (s : State) (n : Fin 512) : LinePoll := Table.get LinePoll.reset s.sched.lines n.val
def State.setLine (s : State) (n : Fin 512) (x : LinePoll) : State :=
  { s with sched := { s.sched with lines := Table.set s.sched.lines n.val x } }

/-- Read a doorbell line, unless a read of it is under way or none of its streams is enabled (R71). -/
def State.askLine (s : State) (n : Fin 512) : State :=
  if (s.line n).asked = false ∧ (lineStreams n).any (fun st => (s.stream st).enabled) then
    (s.emit (.hostRead 0 (BitVec.ofNat 64 (s.doorbellBase + 64 * n.val)) 64)).setLine n
      { s.line n with asked := true, last := some s.tick }
  else s

/-- The URGENT streams that are polled as such: the 64 lowest-numbered enabled ones. -/
def State.urgentPolled (s : State) : List StreamId :=
  (s.streamIds.filter (fun st => (s.stream st).enabled && (s.stream st).urgent)).take 64

/-- Ticks between two polls of a line (R71). -/
def State.pollInterval (s : State) (n : Fin 512) : Nat :=
  if (lineStreams n).any (fun st => s.urgentPolled.contains st) then 50
  else match (s.line n).changed with
    | some t => if (s.tick - t).toNat ≤ 20000 then 200 else 6400
    | none => 6400

/-- Is a line due for a poll? -/
def State.pollDue (s : State) (n : Fin 512) : Bool :=
  match (s.line n).last with
  | some t => decide (s.pollInterval n ≤ (s.tick - t).toNat)
  | none => true

/-- The lines that hold an enabled stream and are due. -/
def State.dueLines (s : State) : List (Fin 512) :=
  ((s.streamIds.filter (fun st => (s.stream st).enabled)).map lineOf).eraseDups.filter (fun n => s.pollDue n)

/-! ### MSI-X (R90, R415) -/

/-- Send a vector's message, or set its pending bit while it is masked or the function's messages are held. -/
def State.sendMsix (s : State) (f v : Nat) : State :=
  let m := s.msix f v
  if s.host.msixEnable.getLsbD f && !s.host.msixMask.getLsbD f && !m.masked then
    s.emit (.msix f v m.addr m.data)
  else s.setMsix f v { m with pending := true }

/-! ### Rings (R85, R86, R90) -/

/-- The offsets of a ring's BASE_LO and CFG (R62). -/
def ringBaseOff (r : RingId) : Nat :=
  if r.val < 256 then stbBase + 0x1000 + 16 * r.val else stbBase + 0x40 + 16 * (r.val - 256)
def ringCfgOff (r : RingId) : Nat := ringBaseOff r + 8

def State.ringCfg (s : State) (r : RingId) : W32 := s.reg (ringCfgOff r)
def State.ringEnabled (s : State) (r : RingId) : Bool := (s.ringCfg r).getLsbD 31
def State.ringLog2 (s : State) (r : RingId) : Nat := (bitsAt (s.ringCfg r) 0 4).toNat
def State.ringFunction (s : State) (r : RingId) : Nat :=
  if r.val < 256 then (bitsAt (s.ringCfg r) 8 5).toNat else 0
def State.ringVector (s : State) (r : RingId) : Nat := (bitsAt (s.ringCfg r) 16 11).toNat
def State.ringSize (s : State) (r : RingId) : Nat := 2 ^ s.ringLog2 r

/-- The event ring and the fault ring. -/
def eventRing : RingId := 256
def faultRing : RingId := 257

/-- May record `k` be written (R86)? -/
def State.ringRoom (s : State) (r : RingId) : Bool :=
  s.ringEnabled r && decide (((s.ring r).k - (s.ring r).head).toNat < s.ringSize r)

/-- Slot, PHASE and IOVA of the next record (R85). -/
def State.ringSlot (s : State) (r : RingId) : Nat := (s.ring r).k.toNat % s.ringSize r
def State.ringPhase (s : State) (r : RingId) : Bool := decide ((s.ring r).k.toNat / s.ringSize r % 2 = 0)
def State.ringIova (s : State) (r : RingId) (bytes : Nat) : Word :=
  BitVec.ofNat 64 (s.regPair (ringBaseOff r) + bytes * s.ringSlot r)

/-- Signal every record of a ring written so far (R90). -/
def State.signalRing (s : State) (r : RingId) : State :=
  (s.setRing r { s.ring r with unsignalled := 0 }).sendMsix (s.ringFunction r) (s.ringVector r)

/-- The layout of a completion record (R84). -/
def recordBits (x : Record) (tick : Word) (phase : Bool) : BitVec 256 :=
  let b (k len v : Nat) : Nat := v % 2 ^ len * 2 ^ (8 * k)
  BitVec.ofNat 256 (b 0 16 x.stream.val + b 2 8 x.status.toNat + b 3 8 (if x.nodesc then 0 else x.opcode.toNat)
    + b 4 16 (if x.nodesc then 0 else x.tag.toNat) + b 6 8 x.job.toNat + b 7 8 (x.attempt.toNat + 16 * bit x.nodesc)
    + b 8 32 (if x.nodesc then 0 else x.index.toNat) + b 12 32 x.period.toNat + b 16 64 tick.toNat
    + b 24 32 x.detail.toNat + b 31 8 (128 * bit phase))

/-- The completion ring of a number 0-255. -/
def cring (n : JobId) : RingId := ⟨n.val, by omega⟩

/-- Write a completion record to a ring that has room, and signal as R90 gives. -/
def State.putRecord (s : State) (n : JobId) (x : Record) : State :=
  let r := cring n
  let rg := s.ring r
  let coal := s.reg (ringBaseOff r + 12)
  let s1 := s.emit (.completionRecord n (s.ringFunction r) (s.ringIova r 32) (s.ringSlot r)
    (recordBits x (x.tick.getD s.tick) (s.ringPhase r)))
  let s2 := s1.setRing r { rg with
    k := rg.k + 1
    unsignalled := rg.unsignalled + 1
    oldest := if rg.unsignalled = 0 then s.tick else rg.oldest }
  if decide (rg.unsignalled + 1 ≥ (bitsAt coal 0 8).toNat + 1) || decide (bitsAt coal 16 16 = 0)
      || decide (x.status ≠ 0) || x.irq then
    s2.signalRing r
  else s2

/-! ### Events (R91, R92) -/

/-- The layout of an event record (R91). -/
def eventBits (e : Event) (seqNo : W32) (phase : Bool) : Line :=
  BitVec.ofNat 512 (e.type.toNat + 2 ^ 8 * bit e.coalesced + 2 ^ 32 * seqNo.toNat + 2 ^ 64 * e.tick.toNat
    + 2 ^ 128 * e.payload.toNat + 2 ^ (8 * 63) * (128 * bit phase))

/-- Once the JOB_STATE event of a job in DONE or FAILED is written, its number is free (R41). -/
def State.freeEndedJob (s : State) (e : Event) : State :=
  if e.type = 5 ∧ (bitsAt e.payload 8 8 = 6 ∨ bitsAt e.payload 8 8 = 7) then
    s.setJob (JobId.ofNat' (bitsAt e.payload 0 8).toNat) none
  else s

/-- Write the queued events that find room on the event ring, oldest first; each is signalled at once. -/
def State.drainEvents : Nat → State → State
  | 0, s => s
  | n + 1, s =>
    match s.sched.events with
    | [] => s
    | e :: rest =>
      if s.ringRoom eventRing then
        let rg := s.ring eventRing
        let s1 := s.emit (.eventRecord (s.ringIova eventRing 64) (s.ringSlot eventRing)
          (eventBits e rg.k (s.ringPhase eventRing)))
        let s2 := s1.setRing eventRing { rg with k := rg.k + 1 }
        let s3 := { s2 with sched := { s2.sched with events := rest } }
        let s4 := match s3.sched.eventsHeld with
          | [] => s3
          | h :: hs => { s3 with sched := { s3.sched with events := s3.sched.events ++ [h], eventsHeld := hs } }
        State.drainEvents n ((s4.signalRing eventRing).freeEndedJob e)
      else s

/-- Write out what the event queue holds, as far as the ring has room. -/
def State.flushEvents (s : State) : State :=
  s.drainEvents (s.sched.events.length + s.sched.eventsHeld.length)

/-- TYPE of HOT notices. -/
def evHot : Byte := 2

/-- Post an event (R92): at most 64 are queued, at most 32 of them HOT; a HOT notice without a place is counted in
STB_EVT_LOST, any other is held by its source, a newer one of the same type replacing it. The COALESCED record carries the tick of the
last event: DESIGN CHOICE (log entry 122). -/
def State.postEvent (s : State) (e : Event) : State :=
  let q := s.sched
  if !s.ready then s
  else if e.type = evHot then
    if q.events.length < 64 ∧ (q.events.filter (fun x => decide (x.type = evHot))).length < 32 then
      ({ s with sched := { q with events := q.events ++ [e] } } : State).flushEvents
    else
      { s with sched := { q with evtLost := if q.evtLost = BitVec.allOnes 32 then q.evtLost else q.evtLost + 1 } }
  else if q.events.length < 64 then
    ({ s with sched := { q with events := q.events ++ [e] } } : State).flushEvents
  else if q.eventsHeld.any (fun x => decide (x.type = e.type) && decide (x.source = e.source)) then
    let held := replaceFirst (fun x => decide (x.type = e.type) && decide (x.source = e.source))
      (fun _ => { e with coalesced := true }) q.eventsHeld
    { s with sched := { q with eventsHeld := held } }
  else { s with sched := { q with eventsHeld := q.eventsHeld ++ [e] } }

/-- An event of a type from a source, with payload numbers placed at their byte offsets of the record. -/
def State.event (s : State) (type source : Nat) (payload : List (Nat × Nat)) : Event :=
  { type := BitVec.ofNat 8 type, coalesced := false, tick := s.tick, source := source
    payload := BitVec.ofNat 256 ((payload.map (fun p => p.2 * 2 ^ (8 * (p.1 - 16)))).sum) }

/-- Reported device memory in bytes (R469). -/
def State.reportedMemory (s : State) : Nat :=
  8 * 2 ^ 30 * countBits (s.memory.stacksTrained &&& ~~~ s.memory.stacksLost) 6

/-- The CAPACITY event of a unit at a stop (R91): UNIT 0 cluster, 1 memory stack, 2 L2 slice, 3 Evoir port. -/
def State.postCapacity (s : State) (unit number : Nat) (stop : Nat × Nat) : State :=
  s.postEvent (s.event 1 (1000 * unit + number)
    [(16, unit), (17, s.liveCount), (18, number), (19, stop.1), (20, stop.2), (24, s.reportedMemory)])

/-- The code of a job state (R91). -/
def JobPhase.code : JobPhase → Nat
  | .created => 0 | .running => 1 | .suspended => 2 | .waitCapacity => 3
  | .aborting => 4 | .restarting => 5 | .done => 6 | .failed => 7

/-- The JOB_STATE event of a job (R91). -/
def State.postJobState (s : State) (j : JobId) (p : JobPhase) (attempt : BitVec 4) : State :=
  s.postEvent (s.event 5 j.val [(16, j.val), (17, p.code), (18, attempt.toNat)])

/-- The LINK event of a port (R380): new state and the neighbour, or 0xFFFF while it is unknown. -/
def State.postLink (s : State) (p : PortId) : State :=
  let pt := s.port p
  s.postEvent (s.event 4 p.val
    [(16, p.val), (17, pt.lstate.toNat), (18, if pt.neighValid then pt.neigh.toNat else 0xFFFF)])

/-- The STREAM_HALTED event (R91). -/
def State.postHalted (s : State) (st : StreamId) (reason : Nat) (idx : W32) : State :=
  s.postEvent (s.event 6 st.val [(16, st.val), (18, reason), (20, idx.toNat)])

/-! ### The rounding generator (R191, R192) -/

/-- One advance of a cell's LFSR. -/
def lfsrNext (x : BitVec 16) : BitVec 16 := (x >>> 1) ^^^ (if x.getLsbD 0 then 0xB400 else 0)

/-- The seed of a cell. -/
def lfsrSeed (seed : Word) (salt : W32) (rank cell : Nat) : BitVec 16 :=
  let h : Word := (seed ^^^ (salt.setWidth 64 <<< 24) ^^^ (BitVec.ofNat 64 rank <<< 12) ^^^ BitVec.ofNat 64 cell)
    * 0x9E3779B97F4A7C15
  let x : BitVec 16 := (h >>> 48).setWidth 16 ^^^ (h >>> 32).setWidth 16
  if x = 0 then 1 else x

/-- Every cell's seed. -/
def lfsrSeeds (seed : Word) (salt : W32) (rank : Nat) : BitVec 65536 :=
  BitVec.ofNat 65536 (pack 16 ((List.range 4096).map (fun n => (lfsrSeed seed salt rank n).toNat)))

/-- What DISPATCH of a KERNEL and a grant do to the Hearth (R193). -/
def Hearth.begin (m : Hearth) (seed : Word) (rank : Nat) : Hearth :=
  { m with tiles := [], partials := 0, isOpen := false, steps := 0, hflags := 0, lfsr := lfsrSeeds seed 0 rank }

/-- The seed of the job that holds a cluster. -/
def State.seedOf (s : State) (c : ClusterId) : Word :=
  match (s.cluster c).job with
  | some (j, _) => ((s.job j).map (·.seed)).getD 0
  | none => 0

/-! ### Free values -/

/-- Take a fresh number for the free values. -/
def State.fresh (s : State) : Nat × State := (s.free, { s with free := s.free + 1 })

end Sys2Proof.Machine
end

