-- ==== Sys2Proof/Machine/Symbols.lean ====
section
/-! DEFINITION. The wire of an Evoir lane (R358-R370): bins, pilots, preambles and IDLE symbols, the noise estimate, the bytes of a flit,
the scrambler and the code, constellations, and the symbols of a superframe. PRESUMED and DESIGN CHOICE for what the spec does not give
of the generators' form and of the constellation encoder (log entry 136). -/
namespace Sys2Proof.Machine

/-- A number from its bits, the least significant first. -/
def bitsNat : List Bool → Nat
  | [] => 0
  | b :: bs => bit b + 2 * bitsNat bs

/-! ### Generators -/

/-- One step of the generator x^a + x^b + 1: its bit, and its next state. -/
def genStep {w : Nat} (a b : Nat) (x : BitVec w) : Bool × BitVec w :=
  let t := x.getLsbD (a - 1) != x.getLsbD (b - 1)
  (t, (x <<< 1) ||| (if t then 1 else 0))

/-- `n` bits of a generator, and the state after them. -/
def genBits {w : Nat} (a b : Nat) : Nat → BitVec w → List Bool × BitVec w
  | 0, x => ([], x)
  | n + 1, x =>
    let (t, y) := genStep a b x
    let (ts, z) := genBits a b n y
    (t :: ts, z)

/-- The state after `n` steps. -/
def genSkip {w : Nat} (a b : Nat) : Nat → BitVec w → BitVec w
  | 0, x => x
  | n + 1, x => genSkip a b n (genStep a b x).2

/-! ### Bins (R358) -/

/-- What a bin of a lane is for. -/
inductive BinRole where
  | zero
  | pilot (k : Nat)
  | data (d : Nat)
  deriving DecidableEq, Repr

/-- The bin of data sub-carrier `d`. -/
def dataBin (d : Nat) : Nat := 16 + 61 * (d / 60) + d % 60 + (if 30 ≤ d % 60 then 1 else 0)
/-- The bin of pilot `k`. -/
def pilotBin (k : Nat) : Nat := 46 + 61 * k
/-- The role of bin `f` of 0..1023: DC and the guards are always zero. -/
def binRole (f : Nat) : BinRole :=
  if f < 16 ∨ 992 ≤ f then .zero
  else
    let g := (f - 16) / 61
    let o := (f - 16) % 61
    if o = 30 then .pilot g else .data (60 * g + (if o < 30 then o else o - 1))

/-! ### Constellations (R361, R368) -/

/-- The zero tone, and BPSK of unit energy: a 0 bit maps to +1. -/
def Tone.zero : Tone := ⟨0, 0, 1⟩
def Tone.bpsk (minus : Bool) : Tone := ⟨if minus then -1 else 1, 0, 1⟩

/-- A two's complement number from its bits, the least significant first. -/
def signedBits : List Bool → Int
  | [] => 0
  | [b] => if b then -1 else 0
  | b :: bs => (if b then 1 else 0) + 2 * signedBits bs

/-- The two most significant bits of X and of Y from the five most significant label bits of an odd constellation of 5 bits or more. -/
def oddTop (m : Nat) : (Bool × Bool) × (Bool × Bool) :=
  let q (n : Nat) : Bool × Bool := (decide (2 ≤ n), decide (n % 2 = 1))
  if m < 4 then (q 0, q 0) else if m < 8 then (q 0, q 3) else if m < 12 then (q 3, q 0) else if m < 16 then (q 3, q 3)
  else if m < 18 then (q 1, q 0) else if m < 20 then (q 2, q 0)
  else if m < 24 then (q 0, if m % 2 = 0 then q 1 else q 2)
  else if m < 28 then (q 3, if m % 2 = 0 then q 1 else q 2)
  else if m < 30 then (q 1, q 3) else (q 2, q 3)

/-- Mean energy of the constellation of `b` bits on the odd integer grid. -/
def meanEnergy (b : Nat) : Nat := nthD [1, 2, 2, 6, 10, 20, 42, 82, 170, 330, 682] b 1

/-- The point of `v.length` bits, the first taken being the least significant of the label (R368). -/
def constellation (v : List Bool) : Tone :=
  let b := v.length
  let at_ (i : Nat) : Bool := nthD v i false
  let odds (n : Nat) : List Bool := (List.range n).map (fun i => at_ (2 * i + 1))
  let evens (n : Nat) : List Bool := (List.range n).map (fun i => at_ (2 * i))
  let e := meanEnergy b
  if b = 0 then Tone.zero
  else if b = 1 then (if at_ 0 then ⟨-1, -1, e⟩ else ⟨1, 1, e⟩)
  else if b = 3 then
    let (x, y) := nthD [(1, 1), (1, -1), (-1, 1), (-1, -1), (-3, 1), (1, 3), (-1, -3), (3, -1)] (bitsNat v) ((0, 0) : Int × Int)
    ⟨x, y, e⟩
  else if b % 2 = 0 then ⟨signedBits (true :: odds (b / 2)), signedBits (true :: evens (b / 2)), e⟩
  else
    let t := oddTop (bitsNat (v.drop (b - 5)))
    ⟨signedBits (true :: odds ((b - 3) / 2) ++ [t.1.2, t.1.1]), signedBits (true :: evens ((b - 3) / 2) ++ [t.2.2, t.2.1]), e⟩

/-! ### Symbols (R359, R360, R361, R368) -/

/-- A symbol in its 1,024 bins from its data tones and its pilots. -/
def symbolBins (data pilots : List Tone) : List Tone :=
  (List.range 1024).map (fun f =>
    match binRole f with
    | .zero => Tone.zero
    | .pilot k => nthD pilots k Tone.zero
    | .data d => nthD data d Tone.zero)

/-- The pilots of a symbol: the base polarity, with pilots 0-7 inverted on an IDLE symbol and pilots 8-15 inverted for bank B on symbol 0
of a superframe. -/
def pilotTones (base : List Bool) (idle bankB : Bool) : List Tone :=
  base.zipIdx.map (fun p => Tone.bpsk (p.1 != (if p.2 < 8 then idle else bankB)))

/-- A known symbol of the preamble: BPSK from the generator on every non-guard bin. -/
def preambleSymbol (seed : BitVec 11) : List Tone :=
  let bits := (genBits 11 9 976 seed).1
  (List.range 1024).map (fun f => if f < 16 ∨ 992 ≤ f then Tone.zero else Tone.bpsk (nthD bits (f - 16) false))
/-- PA and PB. -/
def preamble : List (List Tone) := [preambleSymbol 0x5A5, preambleSymbol 0x2C3]

/-- The data tones of an IDLE symbol, and the generator after it: two bits a sub-carrier. -/
def idleTones (g : BitVec 15) : List Tone × BitVec 15 :=
  let (bits, g') := genBits 15 14 1920 g
  ((List.range 960).map (fun d => constellation ((bits.drop (2 * d)).take 2)), g')

/-- The data tones of a DATA symbol: each sub-carrier takes its next bits; one that carries none transmits zero. -/
def dataTones : List (BitVec 4) → List Bool → List Tone
  | [], _ => []
  | b :: bs, v => constellation (v.take b.toNat) :: dataTones bs (v.drop b.toNat)

/-- A flag of a symbol by majority of its eight pilots; a tie keeps the last reading. -/
def pilotFlag (pilots : BitVec 8) (last : Bool) : Bool :=
  let n := countBits pilots 8
  if 4 < n then true else if n < 4 then false else last

/-! ### The noise estimate (R362) -/

/-- Unit energy, in the unit that squared errors are reported in: DESIGN CHOICE (log entry 137). -/
def unitEnergy : Nat := 2 ^ 32

/-- Whether N1/D1 is the larger of two noise values. -/
def largerNoise (a b : Nat × Nat) : Nat × Nat := if a.1 * b.2 < b.1 * a.2 then b else a

/-- N_d as numerator and denominator, unit energy included: the mean error of the last 64 IDLE symbols, or the mean pilot error of the
sub-carrier's group over the last superframe, whichever is larger. -/
def Lane.noise (x : Lane) (d : Nat) : Nat × Nat :=
  let idle := (x.errors.map (fun e => nthD e d 0)).sum
  largerNoise (idle, x.errors.length * unitEnergy) (nthD x.pilotErr (d / 60) 0, 256 * unitEnergy)

/-- The greatest number below 2^n (with what `a` holds above) that a downward closed test admits. -/
def greatestBelow (test : Nat → Bool) : Nat → Nat → Nat
  | 0, a => a
  | n + 1, a => greatestBelow test n (if test (a + 2 ^ n) then a + 2 ^ n else a)

/-- -10 log10 of a noise value in 0.01 dB, rounded down, between -163.84 dB and 163.83 dB: DESIGN CHOICE for the rounding (log entry
137). 10 log10 q reaches k / 100 dB exactly where q^1000 reaches 10^k. -/
def snrOf (n : Nat × Nat) : Int :=
  let a := n.1 ^ 1000
  let b := n.2 ^ 1000
  if n.1 ≤ n.2 then Int.ofNat (greatestBelow (fun k => decide (a * 10 ^ k ≤ b)) 14 0)
  else -(1 + Int.ofNat (greatestBelow (fun k => decide (b * 10 ^ k < a)) 14 0))

/-- SNR_d of every data sub-carrier. -/
def Lane.snr (x : Lane) : List Int := (List.range 960).map (fun d => snrOf (x.noise d))

/-- What a receiver keeps of a superframe's symbols: the IDLE flag of each by its pilots, the errors of the last 64 IDLE symbols, and each
pilot's error summed over the superframe. -/
def Lane.sees (x : Lane) (l : List SymbolSeen) : Lane :=
  let y := l.foldl (fun (y : Lane) m =>
    let idle := pilotFlag (bitsAt m.pilots 0 8) y.idleSeen
    { y with idleSeen := idle, errors := if idle then (m.errors :: y.errors).take 64 else y.errors }) x
  { y with pilotErr := (List.range 16).map (fun k => (l.map (fun m => nthD m.pilotErrors k 0)).sum) }

/-- Has a group's error risen 3.0 dB or more? -/
def rose (new old : Nat) : Bool := decide (old < new) && decide (1000 * old ^ 10 ≤ new ^ 10)

/-! ### Flits as bytes (R369, R370, R381) -/

/-- A number in bytes. -/
def bytesNum (l : List Byte) (b n : Nat) : Nat := ofBytes ((l.drop b).take n)

/-- Zero bytes up to a length. -/
def padBytes (n : Nat) (l : List Byte) : List Byte := (l ++ List.replicate n 0).take n

/-- The packet of a DATA flit. -/
def packetOf (l : List Byte) : Packet :=
  let f := bytesNum l 9 1
  { dst := BitVec.ofNat 12 (bytesNum l 4 2), src := BitVec.ofNat 12 (bytesNum l 6 2), kind := BitVec.ofNat 8 (bytesNum l 8 1)
    vcb := decide (f % 2 = 1), sealedBlk := decide (f / 2 % 2 = 1), sealValid := decide (f / 4 % 2 = 1)
    tag := BitVec.ofNat 16 (bytesNum l 10 2), op := BitVec.ofNat 8 (bytesNum l 13 1), mkind := BitVec.ofNat 8 (bytesNum l 14 1)
    mnum := BitVec.ofNat 8 (bytesNum l 15 1), addr := BitVec.ofNat 48 (bytesNum l 16 6), crc := BitVec.ofNat 32 (bytesNum l 24 4)
    len := BitVec.ofNat 8 (bytesNum l 12 1), data := (l.drop 28).take 192 }

/-- Bytes 4-251 of a flit that carries a packet. -/
def dataFlitBytes (k : Packet) : List Byte :=
  toBytes 2 k.dst.toNat ++ toBytes 2 k.src.toNat
    ++ [k.kind, BitVec.ofNat 8 (bit k.vcb + 2 * bit k.sealedBlk + 4 * bit k.sealValid)]
    ++ toBytes 2 k.tag.toNat ++ [k.len, k.op, k.mkind, k.mnum] ++ toBytes 6 k.addr.toNat ++ [0, 0] ++ toBytes 4 k.crc.toNat
    ++ padBytes 192 k.data

/-- TYPE of a flit. -/
def FlitBody.type : FlitBody → Nat
  | .null => 0
  | .data _ => 1
  | .nak _ | .loadPropose _ _ _ _ _ | .loadAccept _ _ _ | .resync _ => 2

/-- The payload of a flit from byte 4 on. -/
def FlitBody.payload : FlitBody → List Byte
  | .null => []
  | .data k => dataFlitBytes k
  | .nak e => [1, 0] ++ toBytes 2 e.toNat
  | .loadPropose l h id sf t => [2, BitVec.ofNat 8 (l.toNat + 4 * bit h), id, 0] ++ toBytes 2 sf.toNat ++ [0, 0] ++ padBytes 240 t
  | .loadAccept l id sf => [3, l, id, 0] ++ toBytes 2 sf.toNat
  | .resync e => [4, 0] ++ toBytes 2 e.toNat

/-- The 256 bytes of a flit. -/
def TxFlit.bytes (f : TxFlit) : List Byte :=
  let l := toBytes 2 (f.fl.body.type + 16 * f.fl.seq.toNat) ++ toBytes 2 f.ack.toNat ++ padBytes 248 f.fl.body.payload
  l ++ toBytes 4 (crc32 l).toNat

/-- The body of a flit's bytes; none where its CRC is wrong or its TYPE or MSG reserved. -/
def flitBody (l : List Byte) : Option FlitBody :=
  let ty := bytesNum l 0 1 % 16
  let msg := bytesNum l 4 1
  let b5 := bytesNum l 5 1
  if crc32 (l.take 252) ≠ BitVec.ofNat 32 (bytesNum l 252 4) then none
  else if ty = 0 then some .null
  else if ty = 1 then some (.data (packetOf l))
  else if ty = 2 then
    if msg = 1 then some (.nak (BitVec.ofNat 12 (bytesNum l 6 2)))
    else if msg = 2 then some (.loadPropose (BitVec.ofNat 2 b5) (decide (b5 / 4 % 2 = 1)) (BitVec.ofNat 8 (bytesNum l 6 1))
      (BitVec.ofNat 16 (bytesNum l 8 2)) ((l.drop 12).take 240))
    else if msg = 3 then some (.loadAccept (BitVec.ofNat 8 b5) (BitVec.ofNat 8 (bytesNum l 6 1)) (BitVec.ofNat 16 (bytesNum l 8 2)))
    else if msg = 4 then some (.resync (BitVec.ofNat 12 (bytesNum l 6 2)))
    else none
  else none

/-- SEQ and ACK of a flit's bytes. -/
def flitSeq (l : List Byte) : BitVec 12 := BitVec.ofNat 12 (bytesNum l 0 2 / 16)
def flitAck (l : List Byte) : BitVec 12 := BitVec.ofNat 12 (bytesNum l 2 2)

/-! ### Scrambling and the code (R366, R367) -/

/-- One byte of the scrambler, least significant bit first. -/
def scrambleByte (x : BitVec 23) : Nat × BitVec 23 :=
  let (bits, y) := genBits 23 18 8 x
  (bitsNat bits, y)

/-- Scramble bytes, which also unscrambles them. -/
def scramble : List Byte → BitVec 23 → List Byte
  | [], _ => []
  | b :: bs, x =>
    let (k, y) := scrambleByte x
    (b ^^^ BitVec.ofNat 8 k) :: scramble bs y

/-- The scrambler's state at codeword `pos` of a burst. -/
def scramblerAt (pos : Nat) : BitVec 23 := genSkip 23 18 (8192 * pos) (BitVec.allOnes 23)

/-- The shift of the identity at an entry of the base matrix, if it is not zero. -/
def baseShift (i j : Nat) : Option Nat :=
  if j < 32 then some ((37 * i * j + 11 * i + 5 * j) % 256)
  else if j = 32 then (if i = 0 ∨ i = 3 then some 1 else if i = 2 then some 0 else none)
  else if j = 33 then (if i ≤ 1 then some 0 else none)
  else if j = 34 then (if i = 1 ∨ i = 2 then some 0 else none)
  else (if 2 ≤ i then some 0 else none)

/-- Block row `i` of the check matrix over the blocks of a codeword from `j0` on. The identity shifted right by `t` has the one of row r in
column (r + t) mod 256, so it rotates a block right by `t`. -/
def blockRow (i j0 : Nat) (blocks : List (BitVec 256)) : BitVec 256 :=
  blocks.zipIdx.foldl (fun x q =>
    match baseShift i (j0 + q.2) with
    | some t => x ^^^ q.1.rotateRight t
    | none => x) 0

/-- The 36 blocks of a codeword. -/
def wordBlocks (w : BitVec 9216) : List (BitVec 256) := (List.range 36).map (fun j => bitsAt w (256 * j) 256)

/-- Does a codeword fail: is its syndrome nonzero? -/
def codewordFails (w : BitVec 9216) : Bool := (List.range 4).any (fun i => decide (blockRow i 0 (wordBlocks w) ≠ 0))

/-- The four parity blocks of 32 information blocks: the rows sum to the first parity block, and rows 0, 1 and 3 give the others. -/
def parityBlocks (info : List (BitVec 256)) : List (BitVec 256) :=
  let r (i : Nat) := blockRow i 0 info
  let p0 := r 0 ^^^ r 1 ^^^ r 2 ^^^ r 3
  let q := p0.rotateRight 1
  let p1 := r 0 ^^^ q
  let p2 := r 1 ^^^ p1
  let p3 := r 3 ^^^ q
  [p0, p1, p2, p3]

/-- The bits of a word of blocks, block 0 first. -/
def blockBits (l : List (BitVec 256)) : List Bool := l.flatMap (fun b => (List.range 256).map (fun i => b.getLsbD i))

/-- The bits of a codeword: its four flits scrambled, then the parity. -/
def TxWord.bits (w : TxWord) : List Bool :=
  let bytes := scramble (w.flits.flatMap TxFlit.bytes) (scramblerAt w.pos)
  let info := (List.range 32).map (fun j => BitVec.ofNat 256 (bytesNum bytes (32 * j) 32))
  blockBits (info ++ parityBlocks info)

/-! ### Codewords to lanes, and symbols (R361, R368) -/

/-- Bits per symbol of a table. -/
def tableBits (t : List (BitVec 4)) : Nat := (t.map (fun b => b.toNat)).sum

/-- The active tables of a lane. -/
def Lane.rx (x : Lane) : List (BitVec 4) := if x.rxBank then x.rxB else x.rxA
def Lane.tx (x : Lane) : List (BitVec 4) := if x.txBank then x.txB else x.txA

/-- Lane `l` of a port. -/
def Port.lane (x : Port) (l : Nat) : Lane := Table.get Lane.reset x.lanes l
def Port.setLane (x : Port) (l : Nat) (y : Lane) : Port := { x with lanes := Table.set x.lanes l y }

/-- The table a lane transmits by: one bit a sub-carrier in EXCHANGE (R373). -/
def Port.loading (x : Port) (l : Nat) : List (BitVec 4) := if x.train = .exchange then List.replicate 960 1 else (x.lane l).tx

/-- The coded bits of a lane that wait. -/
def Lane.pendingBits (x : Lane) : Nat := 9216 * x.coded.length - x.sent

/-- Whether lane `a` is a better choice than lane `b`: fewer pending bits in proportion to its BITS. -/
def Port.lighter (x : Port) (a b : Nat) : Bool :=
  decide ((x.lane a).pendingBits * tableBits (x.loading b) < (x.lane b).pendingBits * tableBits (x.loading a))

/-- The lane of the next codeword; none where every lane has BITS 0. -/
def Port.nextLane (x : Port) : Option Nat :=
  ((List.range 4).filter (fun l => decide (0 < tableBits (x.loading l)))).foldl (fun best l =>
    match best with
    | none => some l
    | some b => if x.lighter l b then some l else some b) none

/-- Give a codeword to a lane. -/
def Port.code (x : Port) (l : Nat) (fs : List TxFlit) : Port :=
  let a := x.lane l
  let y := x.setLane l { a with coded := a.coded ++ [⟨x.words, fs⟩] }
  { y with words := x.words + 1 }

/-- A flit goes to the coder: the fourth completes a codeword. Without a lane to carry it the codeword is lost, as on a dead port. -/
def Port.transmit (x : Port) (f : TxFlit) : Port :=
  let g := x.group ++ [f]
  if g.length < 4 then { x with group := g }
  else
    match x.nextLane with
    | some l => { x with group := [] }.code l g
    | none => { x with group := [] }

/-- A NULL flit of a port: it shows the SEQ to be assigned next. -/
def Port.nullFlit (x : Port) : TxFlit := ⟨x.expected, ⟨x.nextSeq, .null⟩⟩

/-- Complete a started codeword with NULL flits: DESIGN CHOICE (log entry 138). -/
def Port.flush (x : Port) : Port :=
  if x.group.isEmpty then x
  else (List.replicate (4 - x.group.length) x.nullFlit).foldl (fun y f => y.transmit f) x

/-- A codeword of four NULL flits completes a partly filled symbol. -/
def Port.complete (x : Port) (l : Nat) : Port :=
  if (x.lane l).pendingBits < tableBits (x.loading l) then x.code l (List.replicate 4 x.nullFlit) else x

/-- One symbol of a lane, the `n`th of its superframe with `idles` IDLE symbols sent in it: an IDLE symbol where no coded bit is pending or
the superframe needs its remaining symbols for MEAS_MIN, else a DATA symbol. -/
def Port.symbol (x : Port) (l min n idles : Nat) : (List Tone × Bool) × Port :=
  let t := x.loading l
  let bits := tableBits t
  let a := x.lane l
  let idle := decide (a.pendingBits = 0) || decide (bits = 0) || decide (idles + (256 - n) ≤ min)
  let (base, pg) := genBits 11 9 16 a.pilotGen
  let pilots := pilotTones base idle (decide (n = 0) && a.txBank)
  if idle then
    let (tones, ig) := idleTones a.idleGen
    ((symbolBins tones pilots, true), x.setLane l { a with pilotGen := pg, idleGen := ig })
  else
    let y := (x.complete l).complete l
    let b := y.lane l
    let tones := dataTones t ((b.coded.flatMap TxWord.bits).drop b.sent)
    let done := b.sent + bits
    ((symbolBins tones pilots, false),
      y.setLane l { b with pilotGen := pg, coded := b.coded.drop (done / 9216), sent := done % 9216 })

/-- The 256 symbols of a superframe on a lane. -/
def Port.symbols (x : Port) (l min : Nat) : List (List Tone) × Port :=
  let r := (List.range 256).foldl (fun (r : List (List Tone) × (Nat × Port)) n =>
    let (t, y) := r.2.2.symbol l min n r.2.1
    (t.1 :: r.1, (r.2.1 + bit t.2, y))) (([], (0, x)) : List (List Tone) × (Nat × Port))
  (r.1.reverse, r.2.2)

/-- A burst begins: every generator at its seed, nothing coded, superframe 0 (R359, R361, R366). -/
def Port.beginBurst (x : Port) : Port :=
  let y := (List.range 4).foldl (fun (y : Port) l =>
    y.setLane l { y.lane l with pilotGen := 0x7FF, idleGen := 0x7FFF, coded := [], sent := 0 }) x
  { y with group := [], words := 0, superframe := 0, txFrame := 0 }

/-- A burst ends: the AGC and the equaliser are free again, what is coded has no carrier, and pending swaps are cancelled. -/
def Port.endBurst (x : Port) : Port :=
  let y := (List.range 4).foldl (fun (y : Port) l =>
    y.setLane l { y.lane l with coded := [], sent := 0, cwFails := 0, rxSwap := none, txSwap := none }) x
  { y with group := [], agcFrozen := false, equalised := false }

end Sys2Proof.Machine
end

