-- ==== Sys2Proof/Machine/Route.lean ====
section
/-! DEFINITION. The torus: fabric IDs, port roles, cuts and the next hop (R378, R379, R383, R395), and handing a packet or
a LINK message to a port's transmitter (R371, R393). -/
namespace Sys2Proof.Machine

/-- GEN_FAB_ID. -/
def State.fabReg (s : State) : W32 := s.reg 0x200
/-- This device's fabric ID, and whether it has one. -/
def State.fabId (s : State) : BitVec 12 := bitsAt s.fabReg 0 12
def State.fabValid (s : State) : Bool := s.fabReg.getLsbD 31

/-- Coordinate of a fabric ID in dimension 0 x, 1 y, 2 z (R378). -/
def coord (id : BitVec 12) (dim : Nat) : Nat := (bitsAt id (8 - 4 * dim) 4).toNat
/-- The torus size of a dimension. -/
def State.dimSize (s : State) (dim : Nat) : Nat := (bitsAt s.fabReg (16 + 4 * dim) 4).toNat + 1
/-- A fabric ID with one coordinate replaced. -/
def setCoord (id : BitVec 12) (dim v : Nat) : BitVec 12 := putBits id (8 - 4 * dim) (BitVec.ofNat 4 v)

/-- Does an ID lie inside the torus? -/
def State.inTorus (s : State) (id : BitVec 12) : Bool :=
  (List.range 3).all (fun d => decide (coord id d < s.dimSize d))

/-- EVL_ROLE (R379). -/
def State.role (s : State) (p : PortId) : Nat := (bitsAt (s.reg (evlBase p + 0x34)) 0 4).toNat
/-- The role of a STANDBY port. -/
def roleStandby : Nat := 6

/-- All ports in ascending order. -/
def allPorts : List PortId := List.finRange 8

/-- A port that carries traffic, awake or asleep (R380). -/
def Port.carries (x : Port) : Bool := decide (x.lstate = 2 ∨ x.lstate = 3 ∨ x.lstate = 4)

/-- Does a port's role serve direction `plus` of dimension `dim`? With size 2 both directions reach one neighbour. -/
def State.serves (s : State) (p : PortId) (dim : Nat) (plus : Bool) : Bool :=
  let r := s.role p % 8
  let torus := decide (s.role p ≠ 6 ∧ s.role p ≠ 7 ∧ s.role p < 14)
  torus && decide (r / 2 = dim) && (decide (s.dimSize dim = 2) || decide ((r % 2 = 0) = (plus = true)))

/-- Flits a port holds for its neighbour (R383). -/
def Port.load (x : Port) : Nat := x.replay.length + x.waiting.length

/-- The carrying port of least load, the lower number on a tie. -/
def State.leastLoaded (s : State) (ps : List PortId) : Option PortId :=
  (ps.filter (fun p => (s.port p).carries)).foldl (fun best p =>
    match best with
    | none => some p
    | some b => if (s.port p).load < (s.port b).load then some p else some b) none

/-- The cut mask of a dimension (R395). -/
def State.cutMask (s : State) (dim : Nat) : BitVec 16 := Table.get 0 s.fabric.cuts dim

/-- The links from coordinate `c` over `n` steps in a direction are all uncut. -/
def State.uncut (s : State) (dim : Nat) (plus : Bool) : Nat → Nat → Bool
  | 0, _ => true
  | n + 1, c =>
    let size := s.dimSize dim
    let link := if plus then c else (c + (size - 1)) % size
    let c' := if plus then (c + 1) % size else (c + (size - 1)) % size
    !(s.cutMask dim).getLsbD link && s.uncut dim plus n c'

/-- The direction to take in a dimension: the shorter live one; with no cut and equal lengths the one of least load, and
plus on a tie. -/
def State.direction (s : State) (dim src dst : Nat) : Option Bool :=
  let size := s.dimSize dim
  let up := (dst + (size - src)) % size
  let down := size - up
  let okUp := s.uncut dim true up src
  let okDown := s.uncut dim false down src
  let load (plus : Bool) : Nat :=
    match s.leastLoaded (allPorts.filter (fun p => s.serves p dim plus)) with
    | some p => (s.port p).load
    | none => 0
  if okUp && okDown then
    if up < down then some true
    else if down < up then some false
    else if load false < load true then some false else some true
  else if okUp then some true
  else if okDown then some false
  else none

/-- The next hop to a destination: the port, and whether the packet's VCB is set there. `fresh` says that the packet
enters this dimension here. `none` when no live path leads on. -/
def State.hop (s : State) (dst : BitVec 12) (vcb : Bool) (srcDim : Option Nat) : Option (PortId × Bool) :=
  match allPorts.find? (fun p => decide (s.role p = roleStandby) && ((s.port p).neighValid
      && (decide ((s.port p).neigh = dst) && (s.port p).carries))) with
  | some p => some (p, false)
  | none =>
    match (List.range 3).find? (fun d => decide (coord s.fabId d ≠ coord dst d)) with
    | none => none
    | some dim =>
      let src := coord s.fabId dim
      match s.direction dim src (coord dst dim) with
      | none => none
      | some plus =>
        match s.leastLoaded (allPorts.filter (fun p => s.serves p dim plus)) with
        | none => none
        | some p =>
          let size := s.dimSize dim
          let crosses := if plus then decide (src = size - 1) else decide (src = 0)
          let inherited := vcb && decide (srcDim = some dim)
          some (p, decide (s.cutMask dim = 0) && (inherited || crosses))

/-- The dimension of a port's role, if it is a torus or EXPRESS role. -/
def State.roleDim (s : State) (p : PortId) : Option Nat :=
  if s.role p = 6 ∨ s.role p = 7 ∨ 14 ≤ s.role p then none else some (s.role p % 8 / 2)

/-- May the port send a new flit now: ACTIVE, not entering sleep, fewer than 512 flits unacknowledged (R371, R393)? -/
def Port.canSend (x : Port) : Bool :=
  decide (x.lstate = 2) && decide (x.replay.length < 512) && !x.draining
    && decide (x.sleep = .none ∨ x.sleep = .requested ∨ x.sleep = .aborted)

/-- A flit goes out on a port: it shows the SEQ expected next as its ACK, and goes into the coder (R366, R369). -/
def State.sendFlit (s : State) (p : PortId) (f : Flit) : State :=
  (s.modPort p (fun x => x.transmit ⟨x.expected, f⟩)).emit (.flit p (s.port p).expected f)

/-- Send the flits that wait for a port, as far as it may send them. -/
def State.pumpPort : Nat → State → PortId → State
  | 0, s, _ => s
  | n + 1, s, p =>
    let x := s.port p
    match x.waiting with
    | [] => s
    | b :: bs =>
      if x.canSend then
        let fl : Flit := { seq := x.nextSeq, body := b }
        State.pumpPort n ((s.setPort p { x with
          nextSeq := x.nextSeq + 1
          replay := x.replay ++ [fl]
          waiting := bs }).sendFlit p fl) p
      else s

/-- Send what waits for a port. -/
def State.pump (s : State) (p : PortId) : State := s.pumpPort (s.port p).waiting.length p

/-- Hand a flit to a port: it goes out at once or waits for the port, waking it if it sleeps (R393). -/
def State.sendBody (s : State) (p : PortId) (b : FlitBody) : State :=
  (s.modPort p (fun x => { x with
    waiting := x.waiting ++ [b]
    wake := x.wake || decide (x.lstate = 3 ∨ x.lstate = 4) || decide (x.sleep ≠ .none) })).pump p

/-- Send `k` superframes of symbols on the four lanes of a port, numbered by symbols of the burst (R361, R368). -/
def State.sendFrames : Nat → State → PortId → State
  | 0, s, _ => s
  | k + 1, s, p =>
    let min := (bitsAt (s.reg (evlBase p)) 8 5).toNat
    let first := 256 * (s.port p).txFrame.toNat
    let s1 := (List.range 4).foldl (fun (s : State) l =>
      let (t, x) := (s.port p).symbols l min
      (s.setPort p x).emit (.symbols p l first t)) (s.modPort p Port.flush)
    State.sendFrames k (s1.modPort p (fun x => { x with superframe := x.superframe + 1, txFrame := x.txFrame + 1 })) p

/-- A burst opens with PA and PB on every lane (R360). -/
def State.openBurst (s : State) (p : PortId) : State :=
  (List.range 4).foldl (fun (s : State) l => s.emit (.symbols p l 0 preamble)) (s.modPort p Port.beginBurst)

/-- Send a packet on a port. -/
def State.sendPacket (s : State) (p : PortId) (pkt : Packet) : State := s.sendBody p (.data pkt)

end Sys2Proof.Machine
end

