-- ==== Sys2Proof/Machine/Streams.lean ====
section
/-! DEFINITION. Streams and their descriptors: the header, terminal, interim and cause records and their order, halting, and
the states of streams and jobs that follow from what is pending. -/
namespace Sys2Proof.Machine

/-! ### Status codes (R87) and opcodes (R74) -/

def stDone : Nat := 0x00
def stLateDropped : Nat := 0x10
def stJobAborted : Nat := 0x11
def stJobRestarted : Nat := 0x12
def stBadDescriptor : Nat := 0x20
def stFaultSuspended : Nat := 0x30
def stResumed : Nat := 0x31
def stSealFail : Nat := 0x40
def stResidueFail : Nat := 0x41
def stTalonFrozen : Nat := 0x50
def stFenced : Nat := 0x51

def opNop : Nat := 0x00
def opJobStart : Nat := 0x01
def opJobEnd : Nat := 0x02
def opFence : Nat := 0x03
def opTimestamp : Nat := 0x04
def opPeriodMark : Nat := 0x05
def opCodeSync : Nat := 0x06
def opKernel : Nat := 0x10
def opCopy : Nat := 0x11
def opConvert : Nat := 0x12
def opConvStripe : Nat := 0x20
def opConvLoaf : Nat := 0x21
def opPool : Nat := 0x22
def opAttn : Nat := 0x28
def opKvAppend : Nat := 0x29
def opRangeUpdate : Nat := 0x30
def opWithdraw : Nat := 0x31
def opMigrate : Nat := 0x32
def opResume : Nat := 0x38
def opCheckpoint : Nat := 0x39

/-! ### The descriptor header (R73) -/

def Desc.opcode (d : Desc) : Nat := (fieldAt d.bits 0 0 8).toNat
def Desc.wait (d : Desc) : Bool := flagAt d.bits 1 0
def Desc.irq (d : Desc) : Bool := flagAt d.bits 1 1
def Desc.norec (d : Desc) : Bool := flagAt d.bits 1 2
def Desc.tag (d : Desc) : BitVec 16 := fieldAt d.bits 2 0 16
def Desc.period (d : Desc) : W32 := fieldAt d.bits 4 0 32
/-- A 64-bit payload field. -/
def Desc.word (d : Desc) (b : Nat) : Word := fieldAt d.bits b 0 64
/-- A 32-bit payload field. -/
def Desc.half (d : Desc) (b : Nat) : W32 := fieldAt d.bits b 0 32
/-- A field of `len` bits from bit `lo` of byte `b`, as a number. -/
def Desc.num (d : Desc) (b lo len : Nat) : Nat := (fieldAt d.bits b lo len).toNat

/-- Is the descriptor begun and not finished? -/
def Desc.isRunning (d : Desc) : Bool := decide (d.phase = .running)
/-- Is the descriptor fetched and not begun? -/
def Desc.isFetched (d : Desc) : Bool := decide (d.phase = .fetched)
/-- Has the descriptor its terminal status? -/
def Desc.isFinished (d : Desc) : Bool :=
  match d.phase with
  | .finished _ _ _ _ => true
  | _ => false

/-- A descriptor as it is fetched. -/
def Desc.fresh (idx : W32) (bits : Line) : Desc :=
  { idx := idx, bits := bits, phase := .fetched, faults := [], heldBy := none, progress := 0, stage := 0
    aux0 := 0, aux1 := 0, aux2 := 0, nan := false, inf := false, flags := 0, left := 0, hdr := 0, pages := []
    late := [] }

/-- JOB_END with ABORT set (R80). -/
def Desc.isAbort (d : Desc) : Bool := decide (d.opcode = opJobEnd) && flagAt d.bits 16 0

/-- The job cluster index whose mover runs the descriptor: of COPY, CONVERT, KV_APPEND and CHECKPOINT. -/
def Desc.workJci (d : Desc) : Option Nat :=
  let op := d.opcode
  if op = opCopy then some (d.num 40 0 6)
  else if op = opConvert then some (d.num 39 0 6)
  else if op = opKvAppend then some (d.num 44 0 6)
  else if op = opCheckpoint then some (d.num 20 0 6)
  else none

/-- The descriptor of an index among those a stream holds. -/
def State.desc (s : State) (st : StreamId) (idx : W32) : Option Desc :=
  (s.stream st).descs.find? (fun d => decide (d.idx = idx))

/-- Change the descriptor of an index. -/
def State.modDesc (s : State) (st : StreamId) (idx : W32) (f : Desc → Desc) : State :=
  s.modStream st (fun x => { x with descs := replaceFirst (fun d => decide (d.idx = idx)) f x.descs })

/-! ### Records (R84, R88, R94) -/

/-- The attempt a record made now belongs to (R84). -/
def State.attemptOf (s : State) (j : JobId) : BitVec 4 :=
  match s.job j with
  | some x => x.attempt
  | none => 0

/-- A record that names a descriptor. -/
def State.descRecord (s : State) (st : StreamId) (d : Desc) (status detail : Nat) : Record :=
  let x := s.stream st
  { stream := st, status := BitVec.ofNat 8 status, opcode := BitVec.ofNat 8 d.opcode, tag := d.tag
    job := BitVec.ofNat 8 x.job.val, attempt := s.attemptOf x.job, nodesc := false, index := d.idx
    period := if x.periodic then d.period else 0, tick := none, detail := BitVec.ofNat 32 detail, irq := d.irq }

/-- A record that names no descriptor: the period is the stream's current one. -/
def State.streamRecord (s : State) (st : StreamId) (status detail : Nat) : Record :=
  let x := s.stream st
  { stream := st, status := BitVec.ofNat 8 status, opcode := 0, tag := 0, job := BitVec.ofNat 8 x.job.val
    attempt := s.attemptOf x.job, nodesc := true, index := 0, period := if x.periodic then x.current else 0
    tick := none, detail := BitVec.ofNat 32 detail, irq := false }

/-- Is a JOB_RESTARTED of the stream still held (R94)? -/
def Stream.restartHeld (x : Stream) : Bool := !x.restarts.isEmpty

/-- A stream as JOB_RESTARTED leaves it: a periodic one reads on from the first descriptor of the period that is open then, if a
PERIOD_MARK has shown it (R38, R94). -/
def Stream.restarted (x : Stream) : Stream :=
  match if x.periodic && !x.halted then x.starts.find? (fun p => decide (p.1 = x.current)) else none with
  | some p => { x with restarts := [], readIdx := p.2, nextTerminal := p.2, position := x.current }
  | none => { x with restarts := [] }

/-- A NOREC descriptor that is DONE has its terminal record once every earlier index has, whatever the state of its ring (R88). -/
def Stream.closeNorec (x : Stream) : List Desc → Stream
  | [] => { x with descs := [] }
  | d :: ds =>
    match d.phase with
    | .finished status _ _ _ =>
      if d.norec && decide (status = 0) then { x with nextTerminal := d.idx + 1 }.closeNorec ds else { x with descs := d :: ds }
    | _ => { x with descs := d :: ds }

/-- Write what a stream holds back, as far as its completion ring has room: first its interim and cause records,
then terminal records in index order (a NOREC descriptor that is DONE takes no place), then the JOB_RESTARTED records as they
were made (R88, R94). `fuel` bounds the number of records. -/
def State.flushFuel : Nat → State → StreamId → State
  | 0, s, _ => s
  | n + 1, s, st =>
    let x := (s.stream st).closeNorec (s.stream st).descs
    let room := s.ringRoom (cring x.cring)
    match x.notices with
    | r :: rs =>
      if room then State.flushFuel n ((s.setStream st { x with notices := rs }).putRecord x.cring r) st else s.setStream st x
    | [] =>
      match x.descs with
      | d :: ds =>
        match d.phase with
        | .finished status detail attempt tick =>
          let s1 := s.setStream st { x with descs := ds, nextTerminal := d.idx + 1 }
          if room then
            let r := s.descRecord st d status.toNat detail.toNat
            State.flushFuel n (s1.putRecord x.cring { r with attempt := attempt, tick := tick }) st
          else s.setStream st x
        | _ => s.setStream st x
      | [] =>
        match x.restarts with
        | r :: rs =>
          if room then
            State.flushFuel n ((s.setStream st (if rs.isEmpty then x.restarted else { x with restarts := rs })).putRecord x.cring r) st
          else s.setStream st x
        | [] => s.setStream st x

/-- Write what a stream holds back. -/
def State.flushStream (s : State) (st : StreamId) : State :=
  s.flushFuel ((s.stream st).notices.length + (s.stream st).descs.length + (s.stream st).restarts.length + 1) st

/-- Queue an interim or cause record and write what can be written. -/
def State.postNotice (s : State) (st : StreamId) (r : Record) : State :=
  (s.modStream st (fun x => { x with notices := x.notices ++ [r] })).flushStream st

/-- A cause record for the descriptor whose execution detected the failure, or NODESC (R88). -/
def State.postCause (s : State) (st : StreamId) (idx : Option W32) (status detail : Nat) : State :=
  match idx.bind (s.desc st) with
  | some d => s.postNotice st (s.descRecord st d status detail)
  | none => s.postNotice st (s.streamRecord st status detail)

/-- Give a descriptor its terminal status, without writing records. -/
def State.markFinished (s : State) (st : StreamId) (idx : W32) (status detail : Nat) (tick : Option Word) : State :=
  let p : DescPhase := .finished (BitVec.ofNat 8 status) (BitVec.ofNat 32 detail) (s.attemptOf (s.stream st).job) tick
  s.modDesc st idx (fun d => { d with phase := p })

/-! ### What follows for the states of streams and jobs (R40, R43) -/

/-- Does a stream hold a descriptor that runs or is ready? On a periodic stream only descriptors of the open period,
or of an ended one, are ready. -/
def Stream.hasWork (x : Stream) : Bool :=
  x.descs.any (fun d => d.isRunning
    || (d.isFetched && (!x.periodic || (x.periodOpen && !before32 x.current d.period))))

/-- A job whose clusters may run work. -/
def JobPhase.runs : JobPhase → Bool
  | .running => true
  | .suspended => true
  | _ => false

/-- IDLE and ACTIVE follow from the descriptors a stream holds: a stream leaves IDLE only while its job is RUNNING (R43). -/
def State.settleStream (s : State) (st : StreamId) : State :=
  let x := s.stream st
  let runs := match s.job x.job with
    | some j => j.phase.runs && !j.ended.contains st
    | none => false
  match x.phase with
  | .idle =>
    if (runs && x.hasWork) && decide ((s.job x.job).map (·.phase) = some .running) then s.setStream st { x with phase := .active } else s
  | .active => if runs && x.hasWork then s else s.setStream st { x with phase := .idle }
  | _ => s

/-- RUNNING and SUSPENDED follow from the states of a job's streams (R40); a job that runs again lets its IDLE streams start. -/
def State.settleJob (s : State) (j : JobId) : State :=
  let phases := (s.jobStreams j).map (fun st => (s.stream st).phase)
  match s.job j with
  | some x =>
    if x.phase = .running ∧ !phases.contains .active
        ∧ (phases.contains .preempted || phases.contains .suspendedFault) then
      s.setJob j (some { x with phase := .suspended })
    else if x.phase = .suspended ∧ phases.contains .active then
      (s.jobStreams j).foldl (fun s st => s.settleStream st) (s.setJob j (some { x with phase := .running }))
    else s
  | none => s

/-- Is every context of a stream saved, one at least: none of its job's clusters holds one (R47)? -/
def State.contextSaved (s : State) (st : StreamId) : Bool :=
  let j := (s.stream st).job
  let mine (sh : Option Share) (t : Option StreamId) : Bool :=
    match sh with
    | some x => decide (x.st = st)
    | none => decide (t = some st)
  (match s.job j with
    | some x => x.saved.any (fun v => mine v.share v.stream)
    | none => false)
  && !(s.jobClusters j).any (fun c => mine (s.cluster c).share (s.cluster c).stream)

/-- Bring a stream and its job to the states that follow from what they hold. -/
def State.settle (s : State) (st : StreamId) : State :=
  (s.settleStream st).settleJob (s.stream st).job

/-- Finish a descriptor and write what can be written. -/
def State.finishAt (s : State) (st : StreamId) (idx : W32) (status detail : Nat) (tick : Option Word) : State :=
  ((s.markFinished st idx status detail tick).flushStream st).settle st

/-- Finish a descriptor with a status and DETAIL. -/
def State.finish (s : State) (st : StreamId) (idx : W32) (status detail : Nat) : State :=
  s.finishAt st idx status detail none

/-- When a stream has no job any more, the descriptors it has fetched and not begun wait unread, unless a JOB_START leads them
(R79, R80). -/
def Stream.unread (x : Stream) : Stream :=
  match x.descs.find? (·.isFetched) with
  | some d =>
    if d.opcode = opJobStart then x
    else { x with
      descs := x.descs.filter (fun e => !e.isFetched)
      readIdx := d.idx }
  | none => x

/-! ### When a descriptor may begin (R43, R55, R73, R79, R80, R94, R292) -/

/-- Opcodes that start while the stream is in SUSPENDED_FAULT (R292). -/
def startsSuspended (op : Nat) : Bool :=
  decide (op = opRangeUpdate ∨ op = opWithdraw ∨ op = opMigrate ∨ op = opResume)

/-- Is descriptor `d` next in ring order: every earlier descriptor has begun, or is passed over (R292), and no earlier FENCE still
waits (R83)? -/
def Stream.inOrder (x : Stream) (d : Desc) : Bool :=
  x.descs.all (fun e => !(before32 e.idx d.idx && e.isFetched)
    || (decide (x.phase = .suspendedFault) && !startsSuspended e.opcode))
    && x.descs.all (fun e => !(before32 e.idx d.idx && (decide (e.opcode = opFence) && e.isRunning))
    || (decide (x.phase = .suspendedFault) && startsSuspended d.opcode))

/-- Has every earlier descriptor of the stream its terminal record? -/
def Stream.earlierClosed (x : Stream) (d : Desc) : Bool := x.descs.all (fun e => !before32 e.idx d.idx)

/-- Descriptors that begin only after every earlier one has its terminal record: those with WAIT and those whose own
rule says so (R76, R80, R82, R83, R81). -/
def Desc.waits (d : Desc) : Bool :=
  d.wait || decide (d.opcode = opJobEnd ∨ d.opcode = opTimestamp ∨ d.opcode = opPeriodMark ∨ d.opcode = opCodeSync)

/-- Is the KV cache of a descriptor free of the earlier ATTN and KV_APPEND descriptors of its stream (R259)? -/
def Stream.kvOrder (x : Stream) (d : Desc) : Bool :=
  let kv (e : Desc) : Bool := decide (e.opcode = opAttn ∨ e.opcode = opKvAppend)
  !kv d || x.descs.all (fun e => !(before32 e.idx d.idx && (kv e && decide (e.word 16 = d.word 16))))

/-- Does a SAVE of another stream of the job hold a stream from starting descriptors (R401 step 1)? -/
def State.heldBySave (s : State) (st : StreamId) : Bool :=
  (s.jobStreams (s.stream st).job).any (fun t => decide (t ≠ st) && (s.stream t).descs.any (fun d =>
    d.isRunning && (decide (d.opcode = opCheckpoint) && (!flagAt d.bits 19 0 && decide (d.stage ≠ 0)))))

/-- May the descriptor of opcode `op` at `idx` begin now? The descriptor, when it may. -/
def State.beginning (s : State) (st : StreamId) (idx : W32) (op : Nat) : Option Desc :=
  let x := s.stream st
  match s.desc st idx with
  | none => none
  | some d =>
    let phaseOk := match x.phase with
      | .dropping => false
      | .suspendedFault => startsSuspended op
      | _ => true
    let jobOk := if op = opJobStart then true else
      match s.job x.job with
      | some j => (decide (j.phase = .running) || (decide (j.phase = .suspended) && (decide (x.phase = .active) || startsSuspended op)))
        && !j.ended.contains st
      | none => false
    if s.ready && x.enabled && !x.restartHeld && d.isFetched && decide (d.opcode = op) && phaseOk && jobOk && x.inOrder d
        && !s.heldBySave st && (!d.waits || x.earlierClosed d) && x.kvOrder d && s.ringRoom (cring x.cring)
        && (!x.periodic || decide (op = opJobStart) || (x.periodOpen && !before32 x.current d.period)) then some d
    else none

/-- Begin a descriptor: one of an ended period completes LATE_DROPPED without executing (R55); `f` runs any other. -/
def State.begin (s : State) (st : StreamId) (idx : W32) (op : Nat) (f : Desc → State → State) : State :=
  match s.beginning st idx op with
  | none => s
  | some d =>
    let x := s.stream st
    if x.periodic && decide (op ≠ opJobStart) && before32 d.period x.current then s.finish st idx stLateDropped 0
    else f d ((s.modDesc st idx (fun e => { e with phase := .running })).settle st)

/-- Table operations that a drop or an abort lets run on (R277, R298). -/
def Desc.tableBegun (d : Desc) : Bool :=
  d.isRunning && decide (d.opcode = opRangeUpdate ∨ d.opcode = opWithdraw)

/-- Put a table operation at the end of the turns of a space, at the front of them, or take it out (R277). -/
def State.opAdd (s : State) (a : Fin 1024) (o : StreamId × W32) : State := s.setSpace a { s.space a with ops := (s.space a).ops ++ [o] }
def State.opHold (s : State) (a : Fin 1024) (o : StreamId × W32) : State := s.setSpace a { s.space a with ops := o :: (s.space a).ops }
def State.opEnd (s : State) (a : Fin 1024) (o : StreamId × W32) : State :=
  s.setSpace a { s.space a with ops := (s.space a).ops.filter (fun x => decide (x ≠ o)) }

/-- Is the first table operation of a space under way, past its first step? -/
def State.tableRuns (s : State) (a : Fin 1024) : Bool :=
  match (s.space a).ops.head? with
  | some (st, idx) => ((s.desc st idx).map (fun d => decide (d.stage ≠ 0))).getD false
  | none => false

/-- Is a transaction open that was translated through an entry of a generation, in a span of an address space (R273): a request to a
peer that is not answered? -/
def State.openIn (s : State) (a : Fin 1024) (gen : BitVec 16) (va len : Nat) : Bool :=
  s.fabric.requests.any (fun r => r.answer.isNone && (decide (((s.job r.job).map (·.aspace)) = some a) && (decide (r.gen = gen)
    && (decide (va ≤ r.va.toNat) && decide (r.va.toNat < va + len)))))

/-- The span entry of a MIGRATE that has split its table. -/
def State.migrating (s : State) (a : Fin 1024) (d : Desc) : Option RangeEntry :=
  if d.isRunning && (decide (d.opcode = opMigrate) && decide (d.stage ≠ 0)) then
    (s.space a).entries.find? (fun e => decide (e.vbase = d.word 16) && decide (e.state = 2))
  else none

/-- May what a descriptor holds be undone (R260, R284): a MIGRATE waits for the transactions of its span and for the table operation
under way, a KV_APPEND that has set BUSY for its own transactions? -/
def State.undoReady (s : State) (st : StreamId) (d : Desc) : Bool :=
  let a := ((s.job (s.stream st).job).map (·.aspace)).getD 0
  (match s.migrating a d with
    | some e => !s.openIn a e.gen e.vbase.toNat e.length.toNat && !s.tableRuns a
    | none => true)
  && !(d.isRunning && (decide (d.opcode = opKvAppend) && (decide (d.stage ≠ 0)
    && s.fabric.requests.any (fun r => decide (r.work = some (st, d.idx)) && r.answer.isNone))))

/-- Go on with a descriptor that runs; anything else, and work of a dropping stream, is left alone. -/
def State.continuing (s : State) (st : StreamId) (idx : W32) (op : Nat) (f : Desc → State → State) : State :=
  match s.desc st idx with
  | some d => if s.ready && d.isRunning && decide (d.opcode = op)
      && (decide ((s.stream st).phase ≠ .dropping) || d.tableBegun) then f d s else s
  | none => s

end Sys2Proof.Machine
end

