-- ==== Sys2Proof/Machine/Memory.lean ====
section
/-! DEFINITION. Device memory at the point of coherence, poison, the lines of the L2, the range tables and their images,
and the access counters. -/
namespace Sys2Proof.Machine

/-! ### Device memory (R315, R319, R345) -/

/-- Bytes of device DRAM (R319). -/
def dramSize : Nat := 48 * 2 ^ 30
/-- The stack of a device address. -/
def stackOf (pa : Nat) : Nat := pa / 2 ^ 33

/-- Change the memory. -/
def State.withMem (s : State) (m : Mem) : State := { s with memory := { s.memory with mem := m } }

/-- Bytes of device memory, ascending. -/
def State.readMem (s : State) (pa n : Nat) : List Byte := Mem.readBytes s.memory.mem pa n
/-- A number of `n` bytes in device memory. -/
def State.readNum (s : State) (pa n : Nat) : Nat := ofBytes (s.readMem pa n)

/-- Does a device address lie in a stack that trained and is not lost (R22, R355)? -/
def State.stackLive (s : State) (pa : Nat) : Bool :=
  s.memory.stacksTrained.getLsbD (stackOf pa) && !s.memory.stacksLost.getLsbD (stackOf pa)

/-- Is a line (address div 64) poisoned (R345, R355)? -/
def State.poisoned (s : State) (line : Nat) : Bool :=
  s.memory.poison.contains line || s.memory.stacksLost.getLsbD (stackOf (64 * line))

/-- Does any line of a span hold poison? -/
def State.spanPoisoned (s : State) (pa n : Nat) : Bool :=
  (List.range (if n = 0 then 0 else (pa + (n - 1)) / 64 - pa / 64 + 1)).any (fun k => s.poisoned (pa / 64 + k))

/-- One write of bytes at a device address. A write that covers a whole line clears its poison (R345); a lost stack
keeps nothing. -/
def State.writeMem (s : State) (pa : Nat) (bytes : List Byte) : State :=
  let n := bytes.length
  let covered (l : Nat) : Bool := decide (pa ≤ 64 * l) && decide (64 * l + 64 ≤ pa + n)
  { s with memory := { s.memory with
    mem := Mem.writeBytes s.memory.mem pa bytes
    poison := s.memory.poison.filter (fun l => !covered l) } }

/-- Poison a line. -/
def State.poisonLine (s : State) (line : Nat) : State :=
  if s.memory.poison.contains line then s
  else { s with memory := { s.memory with poison := line :: s.memory.poison } }

/-! ### The L2 (R314-R318, R334, R442) -/

/-- The slice of a line (R314). -/
def sliceOf (line : Nat) : Nat :=
  (List.range 8).foldl (fun x n => x ^^^ (line / 2 ^ (6 * n) % 64)) 0

/-- The set of a line within its slice (R314). -/
def setOf (line : Nat) : Nat := line / 64 % 3072

/-- The lowest-numbered live slice of a slice's quadrant, for a lost slice (R334). -/
def State.servedBy (s : State) (slice : Nat) : Nat :=
  if s.memory.slicesLost.getLsbD slice then
    ((List.range 16).map (fun k => slice / 16 * 16 + k)).foldr
      (fun k best => if s.memory.slicesLost.getLsbD k then best else k) slice
  else slice

/-- A number as a quadrant. -/
def QuadId.ofNat' (n : Nat) : QuadId := ⟨n % 4, by omega⟩

/-- The quadrant of a line. -/
def lineQuad (line : Nat) : QuadId := QuadId.ofNat' (sliceOf line / 16)

/-- The quadrant that serves a line: while its own is off, the neighbouring one of number XOR 1 (R442). -/
def State.servingQuad (s : State) (line : Nat) : Nat :=
  let q := (lineQuad line).val
  if (s.quad (lineQuad line)).off then q ^^^ 1 else q

/-- Ways of a line's set that may be allocated (R316, R318): ON, not CLEANING, in a powered quadrant, in a slice that is not
lost. A quadrant that is off holds nothing (R442). -/
def State.freeWays (s : State) (line : Nat) : BitVec 16 :=
  let q := s.quad (lineQuad line)
  if q.off || s.memory.slicesLost.getLsbD (s.servedBy (sliceOf line)) then 0 else q.on &&& ~~~ q.cleaning

/-- The present line, if any. -/
def State.l2Find (s : State) (host : Option Nat) (line : Nat) : Option L2Line :=
  s.memory.l2.find? (fun l => decide (l.host = host) && decide (l.line = line))

/-- Change the L2. -/
def State.withL2 (s : State) (l : List L2Line) : State := { s with memory := { s.memory with l2 := l } }

/-- Remove a line. -/
def State.l2Drop (s : State) (host : Option Nat) (line : Nat) : State :=
  s.withL2 (s.memory.l2.filter (fun l => !(decide (l.host = host) && decide (l.line = line))))

/-- Put a line first in the least-recently-used order. -/
def State.l2Touch (s : State) (x : L2Line) : State :=
  (s.l2Drop x.host x.line).withL2 (x :: (s.l2Drop x.host x.line).memory.l2)

/-- The lines of a line's set, most recently used first. -/
def State.l2Set (s : State) (line : Nat) : List L2Line :=
  s.memory.l2.filter (fun l => decide (s.servedBy (sliceOf l.line) = s.servedBy (sliceOf line))
    && decide (setOf l.line = setOf line))

/-- The lowest of 16 ways set in a mask and not used by `used`. -/
def lowestWay (mask : BitVec 16) (used : List Nat) : Option Nat :=
  (List.range 16).find? (fun w => mask.getLsbD w && !used.contains w)

/-- Allocate a line, displacing the least recently used one of its set (R316). An empty way is taken lowest first:
DESIGN CHOICE (log entry 12). A displaced dirty line is written back, which changes no content at the point of coherence. -/
def State.l2Alloc (s : State) (host : Option Nat) (line : Nat) (dirty : Bool) (bytes : Line) : State :=
  let free := s.freeWays line
  let here := s.l2Set line
  match lowestWay free (here.map (·.way)) with
  | some w => s.withL2 ({ host := host, line := line, way := w, dirty := dirty, bytes := bytes } :: s.memory.l2)
  | none =>
    match (here.filter (fun l => free.getLsbD l.way)).getLast? with
    | none => s
    | some v =>
      let s1 := s.l2Drop v.host v.line
      s1.withL2 ({ host := host, line := line, way := v.way, dirty := dirty, bytes := bytes } :: s1.memory.l2)

/-- Is a present line in a CLEANING way (R318)? -/
def State.inCleaning (s : State) (x : L2Line) : Bool := (s.quad (lineQuad x.line)).cleaning.getLsbD x.way

/-- A request reaches a stack's controller, which leaves self-refresh (R437). -/
def State.wakeStack (s : State) (line : Nat) : State :=
  { s with card := { s.card with selfRefresh := s.card.selfRefresh &&& ~~~ (1#6 <<< stackOf (64 * line)) } }

/-- The quadrant of the line that a pending fill of an L1D waits for. -/
def L1Line.fillQuad (l : L1Line) : Option QuadId :=
  match l.target with
  | .device pa => if l.pending then some (lineQuad (pa / 64)) else none
  | _ => none

/-- Is a quadrant under pressure (R316)? The misses under way that the state holds are the pending fills of the L1Ds. DEDUCED (log
entry 13). -/
def State.quadPressure (s : State) (q : QuadId) : Bool :=
  decide (384 ≤ (s.clusters.map (fun e => (e.2.l1d.filter (fun l => decide (l.fillQuad = some q))).length)).sum)

/-- A fill on a read miss allocates under the rows for a clean line, DECL aside (R316). -/
def State.l2Fill (s : State) (host : Option Nat) (line : Nat) (bytes : Line) : State :=
  if s.quadPressure (lineQuad line) then s else s.l2Alloc host line false bytes

/-! ### Corrected errors of the L2 and of DRAM (R344, R352, R353) -/

/-- Structure codes of R353. -/
def ecL2Data : Nat := 0x0D
def ecL2Tags : Nat := 0x0E
def ecDram : Nat := 0x0F

/-- Does a read of a line meet the place of a mark: the line in the L2 or in DRAM, or a tag of its slice and set? -/
def State.lineMark (s : State) (line : Nat) (m : EccMark) : Bool :=
  if m.code.toNat = ecL2Tags then
    decide (m.index % 64 = s.servedBy (sliceOf line)) && decide (m.index / 65536 % 4096 = setOf line)
  else decide (m.index = 64 * line)

/-- The entry of a corrected error, against the stack or the slice. -/
def State.correctedEntry (s : State) (line : Nat) (m : EccMark) : LogEntry :=
  let dram := decide (m.code.toNat = ecDram)
  bodyPut (bodyPut (s.logEntry 3 (if dram then 1 else 2) (if dram then stackOf (64 * line) else s.servedBy (sliceOf line)) 0)
    48 1 m.code.toNat) 56 8 m.index

/-- A read of a line corrects the errors it meets, which are logged. -/
def State.correctLine (s : State) (line : Nat) : State :=
  match s.memory.marks.filter (s.lineMark line) with
  | [] => s
  | ms => ms.foldl (fun s m => s.logCorrected (s.correctedEntry line m))
      { s with memory := { s.memory with marks := s.memory.marks.filter (fun m => !s.lineMark line m) } }

/-- A DEVICE read transaction at the L2: a hit updates the order, a miss on a CACHEABLE range allocates (R315, R316). -/
def State.l2Read (s : State) (line : Nat) (cacheable : Bool) : State :=
  let s1 := s.correctLine line
  match s1.l2Find none line with
  | some x => s1.l2Touch x
  | none => if cacheable then (s1.wakeStack line).l2Fill none line 0 else s1.wakeStack line

/-- A DEVICE write transaction at the L2: a hit merges (a CLEANING way then writes back and invalidates, R318), a miss on a
CACHEABLE range allocates. -/
def State.l2Write (s : State) (line : Nat) (cacheable : Bool) : State :=
  match s.l2Find none line with
  | some x => if s.inCleaning x then s.l2Drop none line else s.l2Touch { x with dirty := true }
  | none => if cacheable then (s.wakeStack line).l2Alloc none line true 0 else s.wakeStack line

/-! ### Range entries (R267, R268) -/

/-- The 32-byte image of an entry (R267). -/
def RangeEntry.bits (e : RangeEntry) : BitVec 256 :=
  BitVec.ofNat 256 (e.vbase.toNat + 2 ^ 64 * e.length.toNat + 2 ^ 128 * e.target.toNat + 2 ^ 192 * e.gen.toNat
    + 2 ^ 208 * (e.type.toNat + 4 * bit e.r + 8 * bit e.w + 16 * bit e.a)
    + 2 ^ 216 * (bit e.cacheable + 2 * bit e.sealedR + 4 * bit e.counted + 8 * bit e.scratch
        + 16 * bit e.checkpoint + 32 * bit e.pinned)
    + 2 ^ 224 * (e.gran.toNat + 16 * e.state.toNat) + 2 ^ 232 * e.cntIndex.toNat)

/-- The entry of an image. -/
def RangeEntry.ofBits (x : BitVec 256) : RangeEntry :=
  { vbase := fieldAt x 0 0 64, length := fieldAt x 8 0 64, target := fieldAt x 16 0 64, gen := fieldAt x 24 0 16
    type := fieldAt x 26 0 2, r := flagAt x 26 2, w := flagAt x 26 3, a := flagAt x 26 4
    cacheable := flagAt x 27 0, sealedR := flagAt x 27 1, counted := flagAt x 27 2, scratch := flagAt x 27 3
    checkpoint := flagAt x 27 4, pinned := flagAt x 27 5, gran := fieldAt x 28 0 4, state := fieldAt x 28 4 2
    cntIndex := fieldAt x 29 0 24 }

/-- Entry types and states (R267). -/
def tyDevice : BitVec 2 := 0
def tyHost : BitVec 2 := 1
def tyPeer : BitVec 2 := 2
def esLive : BitVec 2 := 0
def esWithdrawing : BitVec 2 := 1
def esMigrating : BitVec 2 := 2

/-- First address and length as numbers, and the end of the span. -/
def RangeEntry.lo (e : RangeEntry) : Nat := e.vbase.toNat
def RangeEntry.len (e : RangeEntry) : Nat := e.length.toNat
def RangeEntry.hi (e : RangeEntry) : Nat := e.lo + e.len
/-- Does the range cover an address? -/
def RangeEntry.covers (e : RangeEntry) (va : Nat) : Bool := decide (e.lo ≤ va) && decide (va < e.hi)
/-- Do two spans overlap? -/
def spansMeet (a n b m : Nat) : Bool := decide (a < b + m) && decide (b < a + n)

/-- Bytes of the counting granule. -/
def RangeEntry.granule (e : RangeEntry) : Nat := 2 ^ (16 + e.gran.toNat)

/-- The base of the dump area (R452): below the seal area of the lowest-numbered stack that trained. -/
def State.dumpArea (s : State) : Option Nat := if s.integ.dumpBase = 0 then none else some s.integ.dumpBase

/-- The checkpoint area's base and bytes (R378, R399). -/
def State.ckptBase (s : State) : Nat := s.regPair 0x310
def State.ckptSlotBytes (s : State) : Nat := 2 ^ 20 * (bitsAt (s.reg 0x318) 0 16).toNat

/-- Does a span touch a reserved area (R452)? `ckpt` includes the checkpoint area. -/
def State.meetsReserved (s : State) (pa n : Nat) (ckpt : Bool) : Bool :=
  (List.range 6).any (fun i => spansMeet pa n (2 ^ 33 * (i + 1) - 2 ^ 23) (2 ^ 23))
    || (match s.dumpArea with
        | some b => spansMeet pa n b (2 ^ 28)
        | none => false)
    || (ckpt && decide (s.ckptSlotBytes ≠ 0) && spansMeet pa n s.ckptBase (16 * s.ckptSlotBytes))

/-- Is a span device DRAM outside the reserved areas (R268, R22)? -/
def State.plainDram (s : State) (pa n : Nat) : Bool :=
  decide (pa + n ≤ dramSize) && decide (s.memory.stacksTrained ≠ 0) && !s.meetsReserved pa n true

/-- The device address field of a target (R267), [47:12], and the fabric ID of a PEER target. -/
def targetPa (t : Word) : Nat := (bitsAt t 0 48).toNat
def targetDev (t : Word) : BitVec 12 := bitsAt t 52 12

/-- What in an entry image breaks R268, by byte offset in the image (R479). `cntSize` is the space's ASP_CNT_SIZE. -/
def State.entryChecks (s : State) (cntSize : Nat) (raw : BitVec 256) : List (Nat × Bool) :=
  let e := RangeEntry.ofBits raw
  let dev := decide (e.type = tyDevice)
  let host := decide (e.type = tyHost)
  let peer := decide (e.type = tyPeer)
  [reservedBits raw 0 0 8, reservedBits raw 1 0 4,
   (0, decide (e.lo < 0x800000) || decide (2 ^ 57 < e.hi)),
   (8, decide (e.len % 4096 ≠ 0) || decide (e.len = 0) || decide (2 ^ 52 < e.len)),
   (8, e.counted && (decide (e.len % e.granule ≠ 0) || decide (cntSize < e.cntIndex.toNat + e.len / e.granule))),
   (8, dev && !s.plainDram (targetPa e.target) e.len),
   reservedBits raw 16 0 8, reservedBits raw 17 0 4,
   (22, (dev && decide (fieldAt raw 22 0 8 ≠ 0)) || (peer && decide (fieldAt raw 22 0 4 ≠ 0))),
   (23, dev && decide (fieldAt raw 23 0 8 ≠ 0)),
   (16, peer && decide (targetDev e.target = s.fabId)),
   (26, peer && !s.fabValid),
   (26, decide (e.type = 3)), reservedBits raw 26 5 3,
   (26, e.a && (!e.r || !e.w || host)),
   (26, (e.cacheable && peer) || (e.sealedR && host) || ((e.pinned || e.checkpoint) && !dev)),
   reservedBits raw 27 6 2,
   (27, !e.counted && (decide (e.gran ≠ 0) || decide (e.cntIndex ≠ 0))),
   (28, decide (e.gran = 15)), reservedBits raw 28 6 2]

/-- The offset in an entry image of what breaks R268 first, if anything does. -/
def State.entryError (s : State) (cntSize : Nat) (raw : BitVec 256) : Option Nat :=
  firstBad (s.entryChecks cntSize raw)

/-! ### Address spaces and range tables (R263, R269, R277) -/

/-- Write the DRAM image of a space's range table. -/
def State.storeTable (s : State) (a : Fin 1024) : State :=
  let sp := s.space a
  s.withMem (Mem.writeBytes s.memory.mem sp.tableBase
    (sp.entries.flatMap (fun e => toBytes 32 e.bits.toNat)))

/-- Replace the entries of a space, keeping its DRAM image. -/
def State.setEntries (s : State) (a : Fin 1024) (es : List RangeEntry) : State :=
  (s.setSpace a { s.space a with entries := es }).storeTable a

/-- Does an entry's target exist (R268, R319)? An entry that names device addresses beyond DRAM is not valid. -/
def RangeEntry.exists (e : RangeEntry) : Bool :=
  decide (e.type ≠ tyDevice) || decide (targetPa e.target + e.len ≤ dramSize)

/-- The entry that contains an address (R263: an address above bit 56 lies in no range). -/
def State.entryAt (s : State) (a : Fin 1024) (va : Nat) : Option RangeEntry :=
  if va < 2 ^ 57 ∧ (s.space a).enabled then (s.space a).entries.find? (fun e => e.covers va && e.exists) else none

/-- Insert by VBASE. -/
def insertEntry (e : RangeEntry) : List RangeEntry → List RangeEntry
  | [] => [e]
  | x :: xs => if e.lo < x.lo then e :: x :: xs else x :: insertEntry e xs

/-- The next generation of a space (R273). -/
def State.nextGen (s : State) (a : Fin 1024) : BitVec 16 × State :=
  let g := (s.space a).genctr + 1
  (g, s.setSpace a { s.space a with genctr := g })

/-- Invalidate every range cache entry of an address space (R276, R282, R298). -/
def State.flushRanges (s : State) (a : Fin 1024) : State :=
  let keep (l : List (Nat × RangeEntry)) : List (Nat × RangeEntry) := l.filter (fun e => decide (e.1 ≠ a.val))
  { s with clusters := s.clusters.map (fun c => (c.1, { c.2 with
    moverCache := keep c.2.moverCache
    loadCache := keep c.2.loadCache
    storeCache := keep c.2.storeCache })) }

/-- The probes of a walk (R272): the binary search over `n` entries from `lo`, by place in the table. -/
def walkProbes (es : List RangeEntry) (va : Nat) : Nat → Nat → Nat → List Nat
  | 0, _, _ => []
  | fuel + 1, lo, hi =>
    if hi ≤ lo then []
    else
      let mid := (lo + hi) / 2
      match es[mid]? with
      | none => []
      | some e =>
        if e.covers va then [mid]
        else if va < e.lo then mid :: walkProbes es va fuel lo mid
        else mid :: walkProbes es va fuel (mid + 1) hi

/-- A walk (R272): the probes read the table through the L2; a WITHDRAWING entry is not installed. -/
def State.walk (s : State) (a : Fin 1024) (va : Nat) : Option RangeEntry × State :=
  let sp := s.space a
  let ps := if sp.enabled && decide (va < 2 ^ 57) then walkProbes sp.entries va 13 0 sp.entries.length else []
  (s.entryAt a va, ps.foldl (fun s p => s.l2Read ((sp.tableBase + 32 * p) / 64) true) s)

/-- The range cache of a port (R271). -/
def Cluster.rangeCache (c : Cluster) : CachePort → List (Nat × RangeEntry)
  | .mover => c.moverCache
  | .harrierLoad => c.loadCache
  | .harrierStore => c.storeCache
def Cluster.setRangeCache (c : Cluster) (p : CachePort) (l : List (Nat × RangeEntry)) : Cluster :=
  match p with
  | .mover => { c with moverCache := l }
  | .harrierLoad => { c with loadCache := l }
  | .harrierStore => { c with storeCache := l }

/-- Look an address up through a cluster's range cache of 64 entries, least recently used replaced, walking on a miss
(R269, R271, R272). The answer is the entry to use; a WITHDRAWING one is no entry. -/
def State.lookup (s : State) (c : ClusterId) (port : CachePort) (a : Fin 1024) (va : Nat) : Option RangeEntry × State :=
  let cl := s.cluster c
  let l := cl.rangeCache port
  match l.find? (fun e => decide (e.1 = a.val) && e.2.covers va) with
  | some e =>
    (some e.2, s.setCluster c (cl.setRangeCache port (e :: l.filter (fun x => decide (x ≠ e)))))
  | none =>
    let (r, s1) := s.walk a va
    match r with
    | none => (none, s1)
    | some e =>
      if e.state = esWithdrawing then (none, s1)
      else (some e, s1.setCluster c (cl.setRangeCache port (((a.val, e) :: l).take 64)))

/-- Where the byte at an address lies (R267). -/
def State.targetOf (s : State) (a : Fin 1024) (e : RangeEntry) (va : Nat) : Target :=
  let t := e.target.toNat + (va - e.lo)
  if e.type = tyDevice then .device t
  else if e.type = tyHost then .host (s.space a).function.val t
  else .peer (t / 2 ^ 52) (t % 2 ^ 48)

/-! ### Access counters (R278, R279) -/

/-- The address of the counter of an address in a COUNTED entry. -/
def State.counterAddr (s : State) (a : Fin 1024) (e : RangeEntry) (va : Nat) : Nat :=
  (s.space a).cntBase + 2 * (e.cntIndex.toNat + (va - e.lo) / e.granule)

/-- Count one line transaction or atomic translated through an entry, saturating, and post HOT at THRESHOLD. -/
def State.count (s : State) (a : Fin 1024) (e : RangeEntry) (va : Nat) : State :=
  if e.counted then
    let k := s.counterAddr a e va
    let n := s.readNum k 2
    let th := (s.space a).threshold.toNat
    let s1 := if n = 65535 then s else s.withMem (Mem.writeBytes s.memory.mem k (toBytes 2 (n + 1)))
    if th ≠ 0 ∧ n + 1 = th then
      s1.postEvent (s1.event 2 a.val
        [(16, a.val), (24, e.lo + (va - e.lo) / e.granule * e.granule), (32, th)])
    else s1
  else s

/-- Count every line transaction of a span. -/
def State.countSpan (s : State) (a : Fin 1024) (e : RangeEntry) (va n : Nat) : State :=
  forBelow (fun k s => s.count a e (if k = 0 then va else (va / 64 + k) * 64))
    (if n = 0 then 0 else (va + (n - 1)) / 64 - va / 64 + 1) s

/-- Zero the counters of a span of an entry (R276, R282). -/
def State.clearCounters (s : State) (a : Fin 1024) (e : RangeEntry) : State :=
  if e.counted then
    s.withMem (Mem.clear s.memory.mem ((s.space a).cntBase + 2 * e.cntIndex.toNat) (2 * (e.len / e.granule)))
  else s

/-! ### Device memory at the L2, and what a MIGRATE has copied (R283) -/

/-- The MIGRATE that runs over an address of a space (R283): its stream and descriptor. -/
def State.migration (s : State) (a : Fin 1024) (va : Nat) : Option (StreamId × Desc) :=
  match (s.space a).entries.find? (fun e => e.covers va && decide (e.state = esMigrating)) with
  | none => none
  | some e =>
    (s.streamIds.flatMap (fun st =>
      if ((s.job (s.stream st).job).map (·.aspace)) = some a then (s.stream st).descs.map (fun d => (st, d)) else [])).find?
      (fun p => p.2.isRunning && decide (p.2.opcode = opMigrate) && decide ((p.2.word 16).toNat = e.lo))

/-- Lines of a span. -/
def linesOf (pa n : Nat) : List Nat :=
  (List.range (if n = 0 then 0 else (pa + (n - 1)) / 64 - pa / 64 + 1)).map (fun k => pa / 64 + k)

/-- Write device memory at the point of coherence. -/
def State.deviceWrite (s : State) (pa : Nat) (bytes : List Byte) (cacheable : Bool) : State :=
  ((linesOf pa bytes.length).foldl (fun s l => s.l2Write l cacheable) s).writeMem pa bytes

/-- The new target of an address that a MIGRATE has copied already: its type and address (R283). -/
def State.mirrorAt (s : State) (a : Fin 1024) (va : Nat) : Option (BitVec 2 × Nat × Nat × W32 × StreamId) :=
  match s.migration a va with
  | none => none
  | some (st, d) =>
    let off := va - (d.word 16).toNat
    if off < d.progress then
      some (fieldAt d.bits 40 0 2, (targetDev (d.word 32)).toNat, (d.word 32).toNat + off, d.idx, st)
    else none

/-! ### Seals (R335, R336, R338) -/

/-- Bytes of a sealed block. -/
def blockSize : Nat := 4096

/-- Where the seal of a device address lies. -/
def sealAddr (pa : Nat) : Nat := 2 ^ 33 * (stackOf pa + 1) - 2 ^ 23 + 4 * (pa % 2 ^ 33 / blockSize)

/-- The block of a device address. -/
def blockOf (pa : Nat) : Nat := blockSize * (pa / blockSize)

/-- The seal a block should have, and the one stored for it. -/
def State.blockSeal (s : State) (pa : Nat) : W32 := crc32c (s.readMem (blockOf pa) blockSize)
def State.storedSeal (s : State) (pa : Nat) : W32 := BitVec.ofNat 32 (s.readNum (sealAddr pa) 4)

/-- Write the seal of a block after its last byte. -/
def State.writeSeal (s : State) (pa : Nat) : State := s.writeMem (sealAddr pa) (toBytes 4 (s.blockSeal pa).toNat)

end Sys2Proof.Machine
end

