-- ==== Sys2Proof/Machine/JobOps.lean ====
section
/-! DEFINITION. What failures, faults and freezes do to jobs: unit resets, fault records, the abort of an attempt, suspect
events and the Talon freeze. -/
namespace Sys2Proof.Machine

/-! ### Partial resets (R443, R446, R447) -/

/-- Unit kinds of R443. -/
def ukCluster : Nat := 1
def ukMover : Nat := 2
def ukPort : Nat := 3
def ukController : Nat := 4
def ukQuadrant : Nat := 5
def ukVf : Nat := 6

/-- Start a unit's reset or power-down: its epoch increments (R443). -/
def State.bumpEpoch (s : State) (kind number : Nat) (inReset : Bool) : State :=
  let u := s.unit kind number
  s.setUnit kind number { u with epoch := u.epoch + 1, inReset := inReset, lastTick := some s.tick, again := false }

/-- Request a reset: one within 1 µs of the unit's last is held until the interval ends (R447). -/
def State.startReset (s : State) (kind number : Nat) : State :=
  let u := s.unit kind number
  match u.lastTick with
  | some t =>
    if (s.tick - t).toNat < 200 then s.setUnit kind number { u with again := true }
    else s.bumpEpoch kind number true
  | none => s.bumpEpoch kind number true

/-! ### Masters in Talon (R301-R305) -/

/-- Master kinds (R301). -/
def masterCode : MasterKind → Nat
  | .kestrel => 1 | .harrier => 2 | .mover => 3 | .hearth => 4 | .vf => 5 | .evoirIn => 6

/-- Is a master held in Talon? -/
def State.frozen (s : State) (k : MasterKind) (n : Nat) : Bool :=
  s.integ.talon.any (fun f => decide (f.kind = k) && decide (f.number.toNat = n))

/-- Is any master of a cluster held (R306)? -/
def State.clusterHeld (s : State) (c : ClusterId) : Bool :=
  s.frozen .kestrel c.val || s.frozen .harrier c.val || s.frozen .mover c.val || s.frozen .hearth c.val

/-- Release a master (R305): the unit's partial reset is applied. -/
def State.unfreeze (s : State) (k : MasterKind) (n : Nat) : State :=
  let s1 := { s with integ := { s.integ with
    talon := s.integ.talon.filter (fun f => !(decide (f.kind = k) && decide (f.number.toNat = n))) } }
  match k with
  | .kestrel | .harrier | .hearth =>
    if s1.frozen .kestrel n || s1.frozen .harrier n || s1.frozen .hearth n then s1 else s1.startReset ukCluster n
  | .mover => s1.startReset ukMover n
  | .vf => s1.startReset ukVf n
  | .evoirIn => s1

/-! ### Fault records (R93, R291) -/

/-- The layout of a fault record (R93). -/
def faultBits (f : FaultInfo) (phase : Bool) : Line :=
  BitVec.ofNat 512 (f.stream.val + 2 ^ 16 * f.job.val + 2 ^ 24 * f.access.toNat + 2 ^ 32 * f.id.toNat
    + 2 ^ 64 * f.va.toNat + 2 ^ 128 * f.aspace.val + 2 ^ 144 * f.master.toNat
    + 2 ^ 152 * (match f.cluster with
        | some c => c.val
        | none => 0)
    + 2 ^ 160 * f.period.toNat + 2 ^ 192 * f.tick.toNat + 2 ^ 256 * f.length.toNat
    + 2 ^ (8 * 63) * (128 * bit phase))

/-- Write the fault records that wait, as far as the fault ring has room, oldest first. -/
def State.drainFaults : Nat → State → State
  | 0, s => s
  | n + 1, s =>
    match s.sched.faults.find? (fun f => !f.written) with
    | none => s
    | some f =>
      if s.ringRoom faultRing then
        let rg := s.ring faultRing
        let s1 := s.emit (.faultRecord (s.ringIova faultRing 64) (s.ringSlot faultRing)
          (faultBits f (s.ringPhase faultRing)))
        let s2 := s1.setRing faultRing { rg with k := rg.k + 1 }
        let mark := replaceFirst (fun x => decide (x.id = f.id)) (fun x => { x with written := true }) s2.sched.faults
        let s3 := { s2 with sched := { s2.sched with faults := mark } }
        State.drainFaults n (s3.signalRing faultRing)
      else s

/-- Write the fault records that wait. -/
def State.flushFaults (s : State) : State := s.drainFaults s.sched.faults.length

/-- FAULT_SUSPENDED for every pending descriptor of a stream (R291 step 2). -/
def State.suspendNotices (s : State) (st : StreamId) (id : W32) : State :=
  let recs := (s.stream st).descs.map (fun d => s.descRecord st d stFaultSuspended id.toNat)
  (s.modStream st (fun x => { x with
    descs := x.descs.map (fun d => { d with faults := id :: d.faults })
    notices := x.notices ++ recs })).flushStream st

/-- Post a fault (R291): a fault record with a new FAULT_ID, FAULT_SUSPENDED records, and SUSPENDED_FAULT. -/
def State.postFault (s : State) (st : StreamId) (master : Nat) (c : Option ClusterId) (access : BitVec 4) (va : Word)
    (len : Nat) (idx : Option W32) : State :=
  let x := s.stream st
  let id := s.sched.nextFault
  let f : FaultInfo := { id := id, stream := st, job := x.job, access := access, va := va
                         aspace := ((s.job x.job).map (·.aspace)).getD 0, master := BitVec.ofNat 8 master
                         cluster := c, period := if x.periodic then x.current else 0, tick := s.tick
                         length := BitVec.ofNat 32 len, idx := idx, written := false, outstanding := true }
  let s1 := { s with sched := { s.sched with nextFault := id + 1, faults := s.sched.faults ++ [f] } }
  let s2 := s1.flushFaults.suspendNotices st id
  let s3 := s2.modStream st (fun x => { x with phase :=
    if x.phase = .active ∨ x.phase = .preempted then .suspendedFault else x.phase })
  s3.settleJob x.job

/-- Void fault records (R57 step 6, R307): one not yet written never is, and none is outstanding any more. -/
def State.voidFaults (s : State) (p : FaultInfo → Bool) : State :=
  { s with sched := { s.sched with faults := s.sched.faults.map (fun f =>
      if p f then { f with written := true, outstanding := false } else f) } }

/-! ### Suspect events (R346, R347) -/

/-- Ticks of one hour. -/
def hourTicks : Nat := 720000000000

/-- ERR_RETIRE_CFG. -/
def State.retireThreshold (s : State) : Nat := (bitsAt (s.reg 0x60010) 0 4).toNat
def State.retireWindow (s : State) : Nat := (bitsAt (s.reg 0x60010) 8 8).toNat * hourTicks

/-- Suspect events of a cluster within WINDOW. -/
def State.suspectCount (s : State) (c : ClusterId) : Nat :=
  ((Table.get [] s.integ.suspects c.val).filter (fun t => decide (s.tick.toNat ≤ t.toNat + s.retireWindow))).length

/-- Charge a suspect event to a cluster; at THRESHOLD the Steward is to retire it. -/
def State.suspect (s : State) (c : ClusterId) : State :=
  let s1 := { s with integ := { s.integ with
    suspects := Table.set s.integ.suspects c.val (s.tick :: Table.get [] s.integ.suspects c.val) } }
  if s1.suspectCount c = s1.retireThreshold ∧ s.isLive c ∧ s1.integ.retiring.contains c = false then
    { s1 with integ := { s1.integ with retiring := s1.integ.retiring ++ [c] } }
  else s1

/-- Charge a suspect event and log an entry that carries it (R351 FLAGS). -/
def State.suspectLog (s : State) (c : ClusterId) (e : LogEntry) : State :=
  let s1 := s.suspect c
  let atThreshold := decide (s1.suspectCount c = s1.retireThreshold)
  s1.addLog { s.logCluster c e with flags := e.flags ||| 1 ||| (if atThreshold then 2 else 0) }

/-! ### Discarding contexts -/

/-- Forget requests to peers: a late response to one is discarded (R387). -/
def State.forget (s : State) (p : PeerReq → Bool) : State :=
  { s with fabric := { s.fabric with requests := s.fabric.requests.filter (fun r => !p r) } }


/-- The failures that wait at a Kestrel whose causes charge a suspect event (R346): they are charged and logged though what they belong to
is discarded. -/
def State.chargeWaiting (s : State) (c : ClusterId) : State :=
  (s.cluster c).k.reports.foldl (fun s r =>
    match r with
    | .failure cause _ _ =>
      if cause = 0x0B ∨ cause = 0x0C ∨ cause = 0x0D then s.suspectLog c (bodyPut (s.logEntry 8 0 c.val 1) 48 1 cause.toNat) else s
    | _ => s) s

/-- A cluster leaves its job and its context is discarded. The L1D and the store buffer stay until the next grant cleans
them (R333), and a master held in Talon keeps its state (R303). -/
def State.releaseCluster (s : State) (c : ClusterId) : State :=
  (s.chargeWaiting c).modCluster c (fun x => { Cluster.reset with
    k := if s.frozen .kestrel c.val then x.k else { Kestrel.reset with run := if x.k.run = .halted then .halted else .running }
    h := if s.frozen .harrier c.val then x.h else Harrier.reset
    m := if s.frozen .hearth c.val then x.m else Hearth.reset
    queue := if s.frozen .mover c.val then x.queue else []
    store := x.store
    storeBad := x.storeBad
    marks := x.marks
    upsets := x.upsets
    storeBuf := x.storeBuf
    l1d := x.l1d
    l1i := x.l1i
    powered := x.powered })

/-- A running MIGRATE is stopped before its swap (R284): its span entry returns to LIVE with a new GEN; one that still waits for its
turn gives it up. -/
def State.revertMigrate (s : State) (a : Fin 1024) (st : StreamId) (d : Desc) : State :=
  let s0 := s.opEnd a (st, d.idx)
  match s0.migrating a d with
  | none => s0
  | some x =>
    let (g, s1) := s0.nextGen a
    let es := (s1.space a).entries.map (fun e =>
      if e.lo = x.lo ∧ e.state = esMigrating then { e with state := esLive, gen := g } else e)
    (s1.setEntries a es).flushRanges a

/-- Clear BUSY of the header of a KV_APPEND that ends before its commit (R260), at the L2 as the append set it; a sealed block whose
seal held takes its new seal, and what a MIGRATE has copied to device memory follows. A copy elsewhere does not: DESIGN CHOICE (log
entry 38). -/
def State.kvClear (s : State) (a : Fin 1024) (d : Desc) : State :=
  let va := (d.word 16).toNat + 7
  match s.entryAt a va with
  | none => s
  | some e =>
    match s.targetOf a e va with
    | .device pa =>
      let b := nthD (s.readMem pa 1) 0 0 &&& 0xFE
      let s1 := s.deviceWrite pa [b] e.cacheable
      let s2 := if e.sealedR && decide (s.storedSeal pa = s.blockSeal pa) then s1.writeSeal pa else s1
      match s2.mirrorAt a va with
      | some (ty, _, t, _, _) => if ty = tyDevice then s2.writeMem t [b] else s2
      | none => s2
    | _ => s

/-- What a drop or an abort undoes of a descriptor that runs: a MIGRATE before its swap, a KV_APPEND that holds BUSY (R260, R284). -/
def State.revertDesc (s : State) (a : Fin 1024) (st : StreamId) (d : Desc) : State :=
  if d.isRunning && decide (d.opcode = opMigrate) then s.revertMigrate a st d
  else if d.isRunning && (decide (d.opcode = opKvAppend) && decide (d.stage ≠ 0)) then s.kvClear a d
  else s

/-- Discard a context in place: the cluster stays with its job (R57 step 2), its Hearth seeded as at the grant (R191, R192); one that
was being taken by a pre-emption is freed (02, "When things collide"). -/
def State.discardContext (s : State) (c : ClusterId) : State :=
  let x := s.cluster c
  if x.stopped then s.releaseCluster c
  else (s.releaseCluster c).modCluster c (fun y => { y with
    job := x.job
    stream := x.stream
    window := x.window
    windowBad := x.windowBad
    h := { y.h with amax := x.h.amax }
    m := if s.frozen .hearth c.val then x.m else Hearth.reset.begin (s.seedOf c) 0
    k := if x.k.run = .parked ∨ x.k.run = .halted then x.k else y.k })

/-- A descriptor that its stream drops with a halt leaves nothing behind: what it holds is undone, its requests are forgotten, and the
contexts that run a share of it are discarded in place, their AMAX slots kept. DESIGN CHOICE (log entry 114). -/
def State.cancelDesc (s : State) (st : StreamId) (d : Desc) : State :=
  let j := (s.stream st).job
  let asp := ((s.job j).map (·.aspace)).getD 0
  let s1 := (s.revertDesc asp st d).forget (fun r => decide (r.work = some (st, d.idx)))
  let mine (sh : Option Share) : Bool := decide (sh.map (fun x => (x.st, x.idx)) = some (st, d.idx))
  let s2 := s1.modJob j (fun x => { x with saved := x.saved.filter (fun v => !mine v.share) })
  (s2.jobClusters j).foldl (fun s c => if mine (s.cluster c).share then s.discardContext c else s) s2

/-- Halt a stream (R44): reason 1 BAD_DESCRIPTOR at index `idx`, 2 DOORBELL_OVERRUN, 3 HOST_ERROR. Descriptors fetched after the
halting one are dropped, whether begun or not; a table operation that has begun runs on (R277), DESIGN CHOICE (log entry 114). -/
def State.haltStream (s : State) (st : StreamId) (reason : Nat) (idx : W32) : State :=
  let drop (d : Desc) : Bool := decide (reason = 1) && (before32 idx d.idx && !d.tableBegun)
  let s1 := (s.stream st).descs.foldl (fun s d => if drop d then s.cancelDesc st d else s) s
  (s1.modStream st (fun x => { x with
    halted := true
    haltReason := BitVec.ofNat 2 reason
    descs := x.descs.filter (fun d => !drop d)
    readIdx := if reason = 1 then idx + 1 else x.readIdx })).postHalted st reason idx

/-- BAD_DESCRIPTOR with a DETAIL (R75, R479): the descriptor completes and its stream halts. -/
def State.badDescriptor (s : State) (st : StreamId) (idx : W32) (detail : Nat) : State :=
  (((s.markFinished st idx stBadDescriptor detail none).haltStream st 1 idx).flushStream st).settle st

/-! ### The abort of an attempt (R37, R41) -/

/-- The index from which a stream's fetched descriptors no longer belong to the attempt: what follows its first JOB_END. -/
def Stream.attemptEnd (x : Stream) : Option W32 :=
  (x.descs.find? (fun d => decide (d.opcode = opJobEnd))).map (fun d => d.idx)

/-- Does a descriptor belong to the attempt? -/
def Stream.inAttempt (x : Stream) (d : Desc) : Bool :=
  match x.attemptEnd with
  | some e => !before32 e d.idx
  | none => true

/-- Does the abort complete this descriptor: unfinished, of the attempt, no JOB_END with ABORT, no JOB_START, no table
operation already begun? -/
def Stream.aborts (x : Stream) (d : Desc) : Bool :=
  !d.isFinished && x.inAttempt d && !d.isAbort && decide (d.opcode ≠ opJobStart) && !d.tableBegun

/-- JOB_ABORTED for the descriptors of a stream (R37 step 3); its waits and suspensions end, and it goes to IDLE, for which R43 has no row:
DESIGN CHOICE (log entry 124). -/
def State.abortStream (s : State) (j : JobId) (st : StreamId) : State :=
  let x := s.stream st
  let ended := ((s.job j).map (fun y => y.ended.contains st)).getD false
  let asp := ((s.job j).map (·.aspace)).getD 0
  let s1 := x.descs.foldl (fun s d => s.revertDesc asp st d) s
  let close (d : Desc) : Desc :=
    if !ended && x.aborts d then
      { d with phase := .finished (BitVec.ofNat 8 stJobAborted) 0 (s.attemptOf j) none }
    else d
  (s1.modStream st (fun y => { y with
    descs := y.descs.map close
    phase := if y.phase = .dropping then y.phase else .idle })).flushStream st

/-- May the abort discard the job's contexts: no cluster at O that has not parked (R153), no failure of a Harrier held in
Talon still to be accepted, no drop in progress (R60), nothing in flight of what it undoes (R260, R284)? -/
def State.abortReady (s : State) (j : JobId) : Bool :=
  (s.jobClusters j).all (fun c =>
    let k := (s.cluster c).k
    (decide (k.level ≠ 2) || decide (k.run = .parked) || decide (k.run = .halted))
      && !(s.frozen .harrier c.val && k.reports.any (fun r => match r with
          | .failure _ _ _ => true
          | _ => false) && decide (k.run ≠ .parked)))
    && (s.jobStreams j).all (fun st => decide ((s.stream st).phase ≠ .dropping) && (s.stream st).descs.all (s.undoReady st))

/-- Where an aperiodic stream resumes (R38). -/
def State.resumePoint (s : State) (x : Job) (st : StreamId) : Option W32 :=
  let y := s.stream st
  match x.ckpt with
  | some k =>
    if x.fromCheckpoint then
      match k.resume.find? (fun p => decide (p.1 = st)) with
      | some p => some p.2
      | none => y.afterStart
    else y.afterStart
  | none => y.afterStart

/-- Set a stream of a restarting job back to its restart point (R38): unread descriptors are as though never fetched, and
JOB_RESTARTED is to be written; a periodic stream finds its place when it is. -/
def State.restartStream (s : State) (x : Job) (st : StreamId) : State :=
  let y := s.stream st
  let keep := y.descs.filter (fun d => !d.isFetched)
  let idx := if y.periodic then y.readIdx else (s.resumePoint x st).getD y.readIdx
  let r := s.streamRecord st stJobRestarted (s.attemptOf y.job).toNat
  let y' := if y.halted then { y with restarts := y.restarts ++ [r] } else { y with
    descs := keep
    readIdx := idx
    nextTerminal := if keep.isEmpty ∧ y.periodic = false then idx else y.nextTerminal
    restarts := y.restarts ++ [r] }
  (s.setStream st y').flushStream st

/-- A job ends in DONE or FAILED (R41, R305): its JOB_STATE event is posted, and its masters in Talon are released: those that are
dumped now, the others once they are. -/
def State.endJob (s : State) (j : JobId) (p : JobPhase) : State :=
  match s.job j with
  | none => s
  | some x =>
    let s1 := s.setJob j (some { x with phase := p, attemptPending := false })
    let held := s1.integ.talon.filter (fun f => decide (f.job = some j) && f.dumped)
    let late := s1.integ.talon.map (fun f => if f.job = some j ∧ f.dumped = false then { f with release := true } else f)
    let s2 := held.foldl (fun s f => s.unfreeze f.kind f.number.toNat) { s1 with integ := { s1.integ with talon := late } }
    let s3 := (s2.jobStreams j).foldl (fun s st =>
      (s.stream st).descs.foldl (fun s d =>
        if d.isAbort && d.isRunning then s.finish st d.idx stDone 0 else s) s) s2
    let s4 := (s3.jobStreams j).foldl (fun s st => s.modStream st (fun y => y.unread)) s3
    s4.postJobState j p x.attempt

/-- Go on with the abort of a job in ABORTING as far as it can: discard its contexts, complete its descriptors, and, once no
begun table operation is left, restart or fail it (R37). -/
def State.continueAbort (s : State) (j : JobId) : State :=
  match s.job j with
  | none => s
  | some x =>
    if x.phase = .aborting ∧ s.abortReady j then
      let s1 := (s.jobClusters j).foldl (fun s c => s.releaseCluster c) s
      let s2 := ((s1.setJob j (some { x with saved := [] })).voidFaults (fun f => decide (f.job = j))).forget
        (fun r => decide (r.job = j))
      let s3 := (s2.jobStreams j).foldl (fun s st => s.abortStream j st) s2
      if (s3.jobStreams j).any (fun st => (s3.stream st).descs.any (·.tableBegun)) then s3
      else if x.attempt < x.attempts ∧ x.aborted = false then
        let x' := { x with phase := .restarting, attempt := x.attempt + 1, saved := [], ended := [], attemptPending := true, restore := none }
        (s3.jobStreams j).foldl (fun s st => s.restartStream x' st) (s3.setJob j (some x'))
      else s3.endJob j .failed
    else s

/-- The aborts under way go on as far as they can. -/
def State.goOnAborts (s : State) : State :=
  s.jobIds.foldl (fun s j => if (s.job j).map (·.phase) = some .aborting then s.continueAbort j else s) s

/-- A failure of a job (R3, R37, R40): only a job in RUNNING, SUSPENDED or RESTARTING has an attempt to abort. -/
def State.failJob (s : State) (j : JobId) : State :=
  match s.job j with
  | none => s
  | some x =>
    if x.phase = .running ∨ x.phase = .suspended ∨ x.phase = .restarting then
      (s.setJob j (some { x with phase := .aborting, stripping := false })).continueAbort j
    else s

/-- May a job be aborted by host software (R42)? -/
def JobPhase.abortable : JobPhase → Bool
  | .created | .waitCapacity | .running | .suspended | .restarting => true
  | _ => false

/-- Abort a job in whatever state it has an attempt or waits for one. -/
def State.abortJob (s : State) (j : JobId) : State :=
  match s.job j with
  | none => s
  | some x =>
    if x.phase.abortable then (s.setJob j (some { x with phase := .aborting, stripping := false })).continueAbort j else s

/-- An abort requested by host software (R41): it ends in FAILED. -/
def State.requestAbort (s : State) (j : JobId) : State :=
  match s.job j with
  | none => s
  | some x =>
    if x.phase.abortable then
      (s.setJob j (some { x with phase := .aborting, aborted := true, stripping := false })).continueAbort j
    else if x.phase = .aborting then s.setJob j (some { x with aborted := true })
    else s

/-- The stream and descriptor that a cluster's work belongs to: those of its share, else its stream, else the job's first
stream. -/
def State.clusterWork (s : State) (c : ClusterId) : Option (StreamId × Option W32) :=
  let x := s.cluster c
  match x.share, x.stream, x.job with
  | some sh, _, _ => some (sh.st, some sh.idx)
  | none, some st, _ => some (st, none)
  | none, none, some (j, _) => (s.jobStreams j).head?.map (fun st => (st, none))
  | none, none, none => none

/-- A cause record for a cluster's work. -/
def State.causeOf (s : State) (c : ClusterId) (status detail : Nat) : State :=
  match s.clusterWork c with
  | some (st, idx) => s.postCause st idx status detail
  | none => s

/-- Fail the job that holds a cluster. -/
def State.failCluster (s : State) (c : ClusterId) : State :=
  match (s.cluster c).job with
  | some (j, _) => s.failJob j
  | none => s

/-! ### The Talon freeze (R300-R303) -/

/-- Freeze causes of R302 that no exception raises. -/
def fcRights : Nat := 0x06
def fcXactTimeout : Nat := 0x20
def fcHostError : Nat := 0x21
def fcVfAccess : Nat := 0x22
def fcFabric : Nat := 0x23
def fcClusterFatal : Nat := 0x24
def fcRetirement : Nat := 0x25

/-- The job byte of a master: 0xFF when no job owns it (R302). -/
def jobByte (job : Option JobId) : Nat :=
  match job with
  | some j => j.val
  | none => 0xFF

/-- The source of a TALON event (R92): the cluster of the master, a VF or a port. -/
def talonSource (k : MasterKind) (n : Nat) : Nat :=
  match k with
  | .vf => 1000 + n
  | .evoirIn => 2000 + n
  | _ => n

/-- Hold a master in Talon and post its TALON event (R303 steps 1-4), without failing a job. -/
def State.holdMaster (s : State) (k : MasterKind) (n : Nat) (job : Option JobId) (cause : Nat) : State :=
  if s.frozen k n then s
  else
    let f : Frozen := { kind := k, number := BitVec.ofNat 8 n, dumped := false, job := job
                        cause := BitVec.ofNat 8 cause, release := false }
    let s1 := { s with integ := { s.integ with talon := s.integ.talon ++ [f] } }
    s1.postEvent (s1.event 3 (talonSource k n) [(16, masterCode k), (17, n), (18, jobByte job), (19, cause)])

/-- The DETAIL of a TALON_FROZEN record (R87). -/
def talonDetail (k : MasterKind) (n : Nat) : Nat := masterCode k + 256 * n

/-- The job that owns a cluster's masters. -/
def State.clusterJob (s : State) (c : ClusterId) : Option JobId := (s.cluster c).job.map (·.1)

/-- Freeze a master of a cluster: it is held, the TALON_FROZEN cause record is written and its job fails (R303). A held
Kestrel has parked. -/
def State.freezeCluster (s : State) (k : MasterKind) (c : ClusterId) (cause : Nat) : State :=
  if s.frozen k c.val then s
  else
    let s1 := s.holdMaster k c.val (s.clusterJob c) cause
    let s2 := if k = .kestrel then s1.modCluster c (fun x => { x with k := { x.k with run := .parked } }) else s1
    (s2.causeOf c stTalonFrozen (talonDetail k c.val)).failCluster c

/-- Abort every job of some streams, with one cause record each. -/
def State.abortStreams (s : State) (p : Stream → Bool) (status detail : Nat) : State :=
  s.jobIds.foldl (fun s j =>
    match (s.jobStreams j).find? (fun st => p (s.stream st)) with
    | some st => (s.postCause st none status detail).abortJob j
    | none => s) s

/-- Freeze a VF (R303): every job whose streams have its FUNCTION is aborted, one that waits for capacity too: DESIGN CHOICE (log entry
133). -/
def State.freezeVf (s : State) (f : FunctionId) : State :=
  if s.frozen .vf f.val then s
  else (s.holdMaster .vf f.val none fcVfAccess).abortStreams (fun x => decide (x.function = f)) stTalonFrozen
    (talonDetail .vf f.val)

/-- A unit answers FENCED (R444): the FENCED cause record, and the job fails. -/
def State.fencedFor (s : State) (c : ClusterId) (kind number : Nat) : State :=
  (s.causeOf c stFenced (kind + 256 * number)).failCluster c

end Sys2Proof.Machine
end

