-- ==== Sys2Proof/Machine/Sieve.lean ====
section
/-! DEFINITION. The Sieve (R341-R343) and SECDED (R344, R352, R353): what a fault in a checked datapath or a protected structure of a
cluster does. No command makes such a fault: State holds it, and a claim holds whatever it is. DESIGN CHOICE (log entry 126). -/
namespace Sys2Proof.Machine

/-! ### Residues (R341) -/

/-- The residue of a value. -/
def residue (x : Nat) : Nat := x % 7

/-- The check of an adder of `n` bits: sum `t` and carry `k` out of the top bit. -/
def adderHolds (n a b t k : Nat) : Bool := decide ((residue a + residue b) % 7 = (residue t + k * residue (2 ^ n)) % 7)

/-- The check of a multiplier on its full product. -/
def productHolds (a b p : Int) : Bool := decide (a % 7 * (b % 7) % 7 = p % 7)

/-- The check of a divider: quotient and remainder against the dividend. -/
def quotientHolds (q d r a : Nat) : Bool := decide ((residue q * residue d + residue r) % 7 = residue a)

/-! ### The datapaths (R342) -/

/-- The rows of R342 that the model names. -/
def rwAdder : Nat := 0
def rwLogic : Nat := 1
def rwMul : Nat := 2
def rwDiv : Nat := 3
def rwVInt : Nat := 4
def rwVMul : Nat := 5
def rwVLogic : Nat := 6
def rwVFloat : Nat := 7
def rwVExp : Nat := 8
def rwVNorm : Nat := 9
def rwVRound : Nat := 10
def rwVDiv : Nat := 11
def rwHearth : Nat := 12
def rwHRound : Nat := 13
def rwLfsr : Nat := 14
def rwConvert : Nat := 15
def rwSeal : Nat := 16
def rwAtomic : Nat := 17

/-- The rows checked by predicted parity. -/
def parityRow (row : Nat) : Bool := decide (row = rwLogic) || (decide (row = rwVLogic) || decide (row = rwLfsr))

/-- The rows whose result is made twice, or beside an anticipator, and compared. -/
def twiceRow (row : Nat) : Bool := [rwVNorm, rwVRound, rwHRound, rwConvert, rwSeal].contains row

/-- The check of a row of a result that should be `v` and is `t`: parity, comparison of two copies, or the residue. -/
def rowHolds (row v t : Nat) : Bool :=
  if parityRow row then decide (countBits (BitVec.ofNat 64 v) 64 % 2 = countBits (BitVec.ofNat 64 t) 64 % 2)
  else if twiceRow row then decide (v = t)
  else decide (residue v = residue t)

/-- The fault about to strike one of some datapaths of a cluster. -/
def State.upset (s : State) (c : ClusterId) (rows : List Nat) : Option Upset :=
  (s.cluster c).upsets.find? (fun u => rows.contains u.row)

/-- The log entry of a residue mismatch (R352): row, lane, and the residues of the result as it should be and as it was. -/
def State.residueEntry (s : State) (c : ClusterId) (u : Upset) (v : Nat) : LogEntry :=
  bodyPut (bodyPut { s.logCluster c (s.logEntry 2 0 c.val 1) with
    cause := 0x0C
    expected := BitVec.ofNat 32 (residue v)
    observed := BitVec.ofNat 32 (residue (v ^^^ u.mask.toNat)) } 48 1 u.row) 49 1 (u.lane % 256)

/-- A result `v` of one of some datapaths as a fault leaves it, and whether its check `holds` caught it, which is logged (R343). The
fault is spent. -/
def State.strike (s : State) (c : ClusterId) (rows : List Nat) (v : Nat) (holds : Nat → Nat → Bool) : Nat × Bool × State :=
  match s.upset c rows with
  | none => (v, false, s)
  | some u =>
    let s1 := s.modCluster c (fun x => { x with upsets := x.upsets.erase u })
    let t := v ^^^ u.mask.toNat
    if holds u.row t then (t, false, s1) else (t, true, s1.addLog (s.residueEntry c u v))

/-! ### SECDED (R344) -/

/-- Structure codes of R353. -/
def ecRegs : Nat := 0x01
def ecQueue : Nat := 0x02
def ecL1i : Nat := 0x03
def ecL1d : Nat := 0x04
def ecStoreBuf : Nat := 0x05
def ecRange : Nat := 0x06
def ecStore : Nat := 0x07
def ecWindow : Nat := 0x08
def ecVregs : Nat := 0x09
def ecPreds : Nat := 0x0A
def ecTiles : Nat := 0x0B
def ecPartials : Nat := 0x0C

/-- The place of a mark in a structure. -/
def EccMark.at (m : EccMark) (code index : Nat) : Bool := decide (m.code.toNat = code) && decide (m.index = index)

/-- The mark of an element of a structure that counts in 64-bit words, or in 32-bit words, over a span of bytes. -/
def EccMark.within (m : EccMark) (code off n : Nat) : Bool :=
  decide (m.code.toNat = code) && (decide (off < m.index + 8) && decide (m.index < off + n))

/-- An entry about an error of a place: type 3 ECC_CORRECTED or 4 ECC_UNCORR (R352, R353). -/
def State.eccAt (s : State) (c : ClusterId) (type code index : Nat) : LogEntry :=
  bodyPut (bodyPut { s.logCluster c (s.logEntry type 0 c.val (if type = 3 then 0 else 1)) with
    cause := if type = 3 then 0 else 0x0D } 48 1 code) 56 8 index

/-- Take marks away: their places have been corrected, or written whole. -/
def State.clearMarks (s : State) (c : ClusterId) (p : EccMark → Bool) : State :=
  if (s.cluster c).marks.isEmpty then s
  else s.modCluster c (fun x => { x with marks := x.marks.filter (fun m => !p m) })

/-- Read some places of a cluster's structures: correctable errors are corrected in place and logged; the answer is an uncorrectable one,
which is logged too. -/
def State.readMarks (s : State) (c : ClusterId) (p : EccMark → Bool) : Option EccMark × State :=
  match (s.cluster c).marks.filter p with
  | [] => (none, s)
  | ms =>
    let s1 := (s.clearMarks c (fun m => p m && m.correctable))
    let s2 := (ms.filter (·.correctable)).foldl (fun s m => s.logCorrected (s.eccAt c 3 m.code.toNat m.index)) s1
    match ms.find? (fun m => !m.correctable) with
    | some m => (some m, s2.addLog (s2.eccAt c 4 m.code.toNat m.index))
    | none => (none, s2)

/-- Reading the scalar registers of an instruction. -/
def readsRegs (rs : List (BitVec 5)) (m : EccMark) : Bool := rs.any (fun r => m.at ecRegs r.toNat)

/-- No structure of a cluster holds an error and no fault is about to strike it. -/
def Cluster.sound (x : Cluster) : Bool := x.marks.isEmpty && x.upsets.isEmpty

end Sys2Proof.Machine
end

