-- ==== Sys2Proof/Machine/Access.lean ====
section
/-! DEFINITION. Accesses of a cluster: translation and rights (R269, R270, R300, R308), host reads and writes, requests to
peers, the L1D, and the store buffer. -/
namespace Sys2Proof.Machine

/-! ### Translation and rights -/

/-- The right an access needs (R270). -/
inductive Right where
  | r | w | a
  deriving DecidableEq, Repr

/-- Does an entry grant a right? -/
def RangeEntry.grants (e : RangeEntry) : Right → Bool
  | .r => e.r
  | .w => e.w
  | .a => e.a

/-- The first address of the vector window (R133). -/
def windowBase : Nat := 0xFFFFFFFFFFFFF000
/-- Bytes of the cluster store (R308). -/
def storeSize : Nat := 0x800000
/-- The protected regions (R141). -/
def shadowBase : Nat := 0x7F4000
def owlBase : Nat := 0x7FC000

/-- May a master reach `n` bytes at an offset of its cluster's store (R141)? Only the Kestrel reaches the protected
regions: it reads the shadow stack at S and O and reads and writes the Owl region at O. -/
def storeGrants (m : MasterKind) (level : BitVec 2) (right : Right) (off n : Nat) : Bool :=
  let meets (b size : Nat) : Bool := spansMeet off n b size
  let kestrel := decide (m = .kestrel)
  (!meets shadowBase 0x8000 || (kestrel && decide (level ≠ 0) && decide (right = .r)))
    && (!meets owlBase 0x4000 || (kestrel && decide (level = 2)))

/-- How an access is treated (R269): performed at a target with the entry it went through, a translation fault, a rights violation, or
an uncorrectable error of the range cache it used (R344). -/
inductive Access where
  | ok (t : Target) (e : Option RangeEntry)
  | fault
  | violation
  | ecc
  deriving DecidableEq, Repr

/-- The address space of the job that holds a cluster. -/
def State.aspOf (s : State) (c : ClusterId) : Fin 1024 :=
  match (s.cluster c).job with
  | some (j, _) => ((s.job j).map (·.aspace)).getD 0
  | none => 0

/-- What a looked-up entry makes of an access (R269, R300, R337). -/
def State.judge (s : State) (a : Fin 1024) (m : MasterKind) (right : Right) (va : Nat) : Option RangeEntry → Access
  | none => .fault
  | some e =>
    let barred := match m with
      | .kestrel => e.sealedR
      | .harrier => e.sealedR || decide (e.type ≠ tyDevice)
      | _ => false
    if !e.grants right || barred then .violation else .ok (s.targetOf a e va) (some e)

/-- The number of a range cache (R353). -/
def cacheNumber : CachePort → Nat
  | .mover => 0
  | .harrierLoad => 1
  | .harrierStore => 2

/-- The errors that a lookup in a range cache meets: those of the entry it hits, by its place in the cache's order. DESIGN CHOICE (log
entry 126). -/
def State.rangeMark (s : State) (c : ClusterId) (port : CachePort) (v : Nat) (m : EccMark) : Bool :=
  match ((s.cluster c).rangeCache port).findIdx? (fun e => decide (e.1 = (s.aspOf c).val) && e.2.covers v) with
  | some i => m.at ecRange (cacheNumber port + 256 * i)
  | none => false

/-- Translate an access of `n` bytes by a master of a cluster. A correctable error of the store words or the range cache entry that it
reaches is corrected and logged on the way (R344). -/
def State.access (s : State) (c : ClusterId) (m : MasterKind) (port : CachePort) (right : Right) (va : Word) (n : Nat) :
    Access × State :=
  let v := va.toNat
  if v < storeSize then
    if storeGrants m (s.cluster c).k.level right v n then
      (.ok (.store v) none, (s.readMarks c (fun m => m.correctable && m.within ecStore v n)).2)
    else (.violation, s)
  else if windowBase ≤ v then (.violation, s)
  else
    match s.readMarks c (s.rangeMark c port v) with
    | (some _, s1) => (.ecc, s1)
    | (none, s1) =>
      let a := s1.aspOf c
      let (e, s2) := s1.lookup c port a v
      (s2.judge a m right v e, s2)

/-! ### Host accesses (R63, R300, R417, R418) -/

/-- A function reports an error through AER: its status bit is set (R416). -/
def State.aerReport (s : State) (f : FunctionId) (e : AerError) : State :=
  if s.host.aer.contains (f, e) then s else { s with host := { s.host with aer := s.host.aer ++ [(f, e)] } }

/-- The AER error of an error completion's KIND (R416, R418): UR and CA, which a requester receives, have none. -/
def aerOfKind : Nat → Option AerError
  | 3 => some .poisonedTlp
  | 4 => some .completionTimeout
  | 5 => some .ecrcError
  | _ => none

/-- Answer a host's request with Unsupported Request, and report it. -/
def State.unsupported (s : State) (f : FunctionId) : State := (s.emit .unsupportedRequest).aerReport f .unsupportedRequest

/-- Record an error of the host interface: HIF_ERR_LAST and a log entry with SOURCE 5, whose TYPE and SEVERITY the spec
does not give: free values. -/
def State.hostError (s : State) (f addr kind : Nat) : State :=
  let e := s.logEntry Config.hostErrorType.toNat 5 0 (Config.freeByte s.free 1).toNat
  ({ s with
    free := s.free + 1
    host := { s.host with
      errKind := BitVec.ofNat 3 kind
      errFunction := BitVec.ofNat 5 f
      errAddr := BitVec.ofNat 64 addr } } : State).addLog e |> fun s1 =>
    match aerOfKind kind with
    | some a => s1.aerReport (Fin.ofNat 32 f) a
    | none => s1

/-- Read host memory for a job: the bytes, or the KIND of an error completion. Both are free values. -/
def State.hostRead (s : State) (f iova n : Nat) : Except Nat (List Byte) × State :=
  let k := s.free
  let s1 := ({ s with free := k + 1 } : State).emit (.hostRead f (BitVec.ofNat 64 iova) n)
  if Config.hostStatus k % 6 = 0 then (.ok ((List.range n).map (fun i => Config.hostByte k f (iova + i))), s1)
  else (.error (Config.hostStatus k % 6), s1.hostError f iova (Config.hostStatus k % 6))

/-- A write reaches a present HOST line of the L2: it takes the bytes and comes first in the order, but in a CLEANING way it is
invalidated in the same operation (R315, R316, R318). -/
def State.hostLineWrite (s : State) (f iova : Nat) (bytes : List Byte) (line : Nat) : State :=
  match s.l2Find (some f) line with
  | none => s
  | some l =>
    if s.inCleaning l then s.l2Drop (some f) line
    else
      let put (x : Line) (i : Nat) : Line :=
        if 64 * line ≤ iova + i ∧ iova + i < 64 * line + 64 then putBits x (8 * (iova + i - 64 * line)) (nthD bytes i 0) else x
      s.l2Touch { l with bytes := (List.range bytes.length).foldl put l.bytes }

/-- Write host memory: the write is issued, and a present L2 line takes it (R315). -/
def State.hostWrite (s : State) (f iova : Nat) (bytes : List Byte) : State :=
  ((linesOf iova bytes.length).foldl (fun s line => s.hostLineWrite f iova bytes line) s).emit (.hostWrite f iova bytes)

/-- Bytes `i .. i+n-1` of a line. -/
def lineBytes (x : Line) (i n : Nat) : List Byte := toBytes n (x.toNat / 2 ^ (8 * i))

/-- Read host memory through a range: a CACHEABLE read of a line present in the L2 takes its bytes, a miss reads the whole
line and allocates it; other reads always go to the host (R315). The span lies within one line when it is cacheable. -/
def State.hostLoad (s : State) (f iova n : Nat) (cacheable : Bool) : Except Nat (List Byte) × State :=
  if cacheable then
    let line := iova / 64
    match s.l2Find (some f) line with
    | some x => (.ok (lineBytes x.bytes (iova % 64) n), s.l2Touch x)
    | none =>
      match s.hostRead f (64 * line) 64 with
      | (.error k, s1) => (.error k, s1)
      | (.ok bs, s1) =>
        (.ok ((bs.drop (iova % 64)).take n), s1.l2Fill (some f) line (BitVec.ofNat 512 (ofBytes bs)))
  else s.hostRead f iova n

/-! ### Requests to peers (R381, R384, R387) -/

/-- The unit kind of a fabric destination in FENCED records (R387). -/
def ukFabric : Nat := 0x40

/-- The port for a request: the one an unanswered request of the same master to the same device took, else the next hop. -/
def State.requestPort (s : State) (m : MasterKind) (c : ClusterId) (dst : BitVec 12) : Option (PortId × Bool) :=
  match s.fabric.requests.find? (fun r => decide (r.mkind = m) && decide (r.cluster = c) && decide (r.dst = dst)
      && r.answer.isNone) with
  | some r => some (r.port, match s.hop dst false none with
      | some (_, v) => v
      | none => false)
  | none => s.hop dst false none

/-- Send a request for a cluster's master; a destination that no live path reaches fails the job (R387, R395). -/
def State.sendRequest (s : State) (c : ClusterId) (m : MasterKind) (kind : Nat) (dst : BitVec 12) (addr : Nat) (len : Nat)
    (op : Nat) (sealedBlk : Bool) (crc : Option W32) (data : List Byte) (purpose : PeerFor) (va : Word)
    (work : Option (StreamId × W32)) : State :=
  match s.requestPort m c dst with
  | none => s.fencedFor c ukFabric 0
  | some (p, v) =>
    let tag := s.fabric.nextTag
    let pkt : Packet := { dst := dst, src := s.fabId, kind := BitVec.ofNat 8 kind, vcb := v, sealedBlk := sealedBlk
                          sealValid := crc.isSome, tag := tag, op := BitVec.ofNat 8 op, mkind := BitVec.ofNat 8 (masterCode m)
                          mnum := BitVec.ofNat 8 c.val, addr := BitVec.ofNat 48 addr, crc := crc.getD 0
                          len := BitVec.ofNat 8 len, data := data }
    let j : JobId := match work, (s.cluster c).job with
      | some (st, _), _ => (s.stream st).job
      | none, some (j, _) => j
      | none, none => 0
    let asp := ((s.job j).map (·.aspace)).getD 0
    let r : PeerReq := { tag := tag, dst := dst, mkind := m, cluster := c, job := j
                         purpose := purpose, va := va, sealedBlk := sealedBlk, len := len, port := p
                         work := work, answer := none, crc := 0
                         gen := ((s.entryAt asp va.toNat).map (·.gen)).getD 0 }
    let s1 := { s with fabric := { s.fabric with nextTag := tag + 1, requests := s.fabric.requests ++ [r] } }
    s1.sendPacket p pkt

/-- Is a request made for a descriptor that no cluster's mover runs? -/
def State.ownWork (s : State) (r : PeerReq) : Bool :=
  match r.work with
  | some (st, idx) =>
    match s.desc st idx with
    | some d => decide (d.opcode = opMigrate ∨ d.opcode = opCheckpoint ∨ d.opcode = opTimestamp)
    | none => false
  | none => false

/-- Does a master of a cluster have a request to a peer that is not answered? -/
def State.awaits (s : State) (c : ClusterId) (m : MasterKind) : Bool :=
  s.fabric.requests.any (fun r => decide (r.cluster = c) && decide (r.mkind = m) && r.answer.isNone && !s.ownWork r)

/-! ### Device accesses at the L2 -/

/-- The unit that answers FENCED for a device address: its L2 quadrant, or its memory controller when the line is not in
the L2 (R444). -/
def State.fencedUnit (s : State) (pa : Nat) : Option (Nat × Nat) :=
  let q := s.servingQuad (pa / 64)
  if (s.unit ukQuadrant q).inReset then some (ukQuadrant, q)
  else if (s.unit ukController (stackOf pa)).inReset && (s.l2Find none (pa / 64)).isNone then
    some (ukController, stackOf pa)
  else none

/-- Read device memory at the point of coherence. -/
def State.deviceRead (s : State) (pa n : Nat) (cacheable : Bool) : List Byte × State :=
  (s.readMem pa n, (linesOf pa n).foldl (fun s l => s.l2Read l cacheable) s)

/-- A write in the segment that a MIGRATE waits for, its bytes asked of the old target and not yet copied, is remembered and mirrored
once the segment's copy has completed (R283). DEDUCED (log entry 132). -/
def State.mirrorLate (s : State) (a : Fin 1024) (va : Nat) (bytes : List Byte) : State :=
  match s.migration a va with
  | none => s
  | some (st, d) =>
    let off := va - (d.word 16).toNat
    if d.progress ≤ off ∧ off < d.progress + 4096
        ∧ s.fabric.requests.any (fun r => decide (r.work = some (st, d.idx)) && decide (r.purpose = .moveRead)) then
      s.modDesc st d.idx (fun e => { e with late := e.late ++ [(va, bytes)] })
    else s

/-- Mirror a write to the new target of a MIGRATE whose cursor has passed it (R283). A sealed block goes to a peer with its seal
only. -/
def State.mirror (s : State) (a : Fin 1024) (va : Nat) (bytes : List Byte) : State :=
  match s.mirrorAt a va with
  | none => s.mirrorLate a va bytes
  | some (ty, dev, t, idx, st) =>
    if ty = tyDevice then s.writeMem t bytes
    else if ty = tyHost then s.hostWrite (s.space a).function.val t bytes
    else if (s.entryAt a va).any (·.sealedR) then s
    else s.sendRequest 0 .mover 3 (BitVec.ofNat 12 dev) (t % 2 ^ 48) bytes.length 0 false none bytes .moveWrite
      (BitVec.ofNat 64 va) (some (st, idx))

/-! ### The L1D (R310, R311, R316, R330) -/

/-- Does a target lie in cluster store? -/
def Target.isStore : Target → Bool
  | .store _ => true
  | _ => false

/-- The line that a target byte lies in. -/
def Target.line : Target → Target
  | .store o => .store (o / 64 * 64)
  | .device p => .device (p / 64 * 64)
  | .host f i => .host f (i / 64 * 64)
  | .peer d p => .peer d (p / 64 * 64)

/-- The address part of a target. -/
def Target.addr : Target → Nat
  | .store o => o
  | .device p => p
  | .host _ i => i
  | .peer _ p => p

/-- The L1D set of a target: bits [13:6]. -/
def Target.set (t : Target) : BitVec 8 := BitVec.ofNat 8 (t.addr / 64)

/-- The line of the L1D that holds a target. -/
def Cluster.l1Find (x : Cluster) (t : Target) : Option L1Line := x.l1d.find? (fun l => decide (l.target = t.line))
/-- Remove a line. -/
def Cluster.l1Drop (x : Cluster) (t : Target) : Cluster :=
  { x with l1d := x.l1d.filter (fun l => decide (l.target ≠ t.line)) }
/-- Put a line first in the least-recently-used order. -/
def Cluster.l1Put (x : Cluster) (l : L1Line) : Cluster :=
  { x with l1d := l :: (x.l1Drop l.target).l1d }

/-- The runs of dirty bytes of a line, as single bytes with their places. -/
def L1Line.dirtyBytes (l : L1Line) : List (Nat × Byte) :=
  (List.range 64).filterMap (fun i => if l.dirty.getLsbD i then some (i, fieldAt l.bytes i 0 8) else none)

/-- A write-back that reaches the L2 is a line transaction translated through the entry the line was filled by (R278). -/
def State.countBack (s : State) (l : L1Line) (pa : Nat) : State :=
  let a := AspId.ofNat' l.aspace
  match (s.space a).entries.find? (fun e => decide (e.type = tyDevice) && (decide (e.gen = l.gen)
      && (decide (targetPa e.target ≤ pa) && decide (pa < targetPa e.target + e.len)))) with
  | some e => s.count a e (e.lo + (pa - targetPa e.target))
  | none => s

/-- The log entry of a write whose target answers FENCED (R140, type STORE_DISCARD of R352): its address and size. -/
def State.logFenced (s : State) (c : ClusterId) (addr size : Nat) : State :=
  s.addLog (s.logCluster c (bodyPut (bodyPut (s.logEntry 7 0 c.val 1) 48 8 addr) 56 4 size))

/-- Write back a line (R311): only its dirty bytes land. A whole dirty line is one write of 64 bytes and clears poison
(R345); a partly written poisoned line passes its poison on. A line whose target answers FENCED counts as written and is logged (R333). -/
def State.writeBack (s : State) (c : ClusterId) (l : L1Line) : State :=
  match l.target with
  | .device pa =>
    if l.dirty = 0 then s
    else if (s.fencedUnit pa).isSome then s.logFenced c pa 64
    else
      let s1 := (s.countBack l pa).l2Write (pa / 64) true
      if l.dirty = BitVec.allOnes 64 then s1.writeMem pa (lineBytes l.bytes 0 64)
      else
        let s2 := l.dirtyBytes.foldl (fun s b => s.withMem (Mem.write s.memory.mem (pa + b.1) b.2)) s1
        if l.poison then s2.poisonLine (pa / 64) else s2
  | _ => s

/-- An evicted clean line is offered to the L2 (R316): a present line is refreshed; the quadrant's DECL range declines;
a quadrant under pressure declines too; otherwise it is allocated. -/
def State.offerClean (s : State) (l : L1Line) : State :=
  let host := match l.target with
    | .host f _ => some f
    | _ => none
  let line := l.target.addr / 64
  match s.l2Find host line with
  | some x => s.l2Touch x
  | none =>
    let decl := s.reg (0x20108 + 16 * (lineQuad line).val)
    if decl.getLsbD 31 ∧ (bitsAt decl 0 12).toNat ≤ setOf line ∧ setOf line ≤ (bitsAt decl 16 12).toNat then s
    else s.l2Fill host line l.bytes

/-- Evict a line: dirty ones are written back, clean ones offered. -/
def State.evict (s : State) (c : ClusterId) (l : L1Line) : State :=
  if l.dirty = 0 then s.offerClean l else s.writeBack c l

/-- A by-address or set/way operation on a line that is not pending (R325). -/
def State.maintain (s : State) (c : ClusterId) (l : L1Line) : CacheOp → State
  | .clean => (s.writeBack c l).modCluster c (fun x => x.l1Put { l with
      dirty := 0
      poison := l.poison && decide (l.dirty ≠ BitVec.allOnes 64) })
  | .inval => s.modCluster c (fun x => x.l1Drop l.target)
  | .cleanInval => (s.writeBack c l).modCluster c (fun x => x.l1Drop l.target)

/-- Merge the bytes of a fill under the dirty mask: a dirty byte is never overwritten (R310). -/
def mergeFill (l : L1Line) (bytes : List Byte) : Line :=
  (List.range 64).foldl (fun x i => if l.dirty.getLsbD i then x else putBits x (8 * i) (nthD bytes i 0)) l.bytes

/-- The pending fill of a line lands (R310, R320): it takes the bytes the slice holds now; maintenance held for it is then
performed (R330). -/
def State.landFill (s : State) (c : ClusterId) (t : Target) : State :=
  match (s.cluster c).l1Find t with
  | none => s
  | some l =>
    if l.pending then
      match l.target with
      | .device pa =>
        let (bs, s1) := s.deviceRead pa 64 true
        let l' := { l with bytes := mergeFill l bs, pending := false
                           poison := l.poison || s.poisoned (pa / 64), held := [] }
        let s2 := s1.modCluster c (fun x => x.l1Put l')
        l.held.foldl (fun s op =>
          match (s.cluster c).l1Find t with
          | some m => s.maintain c m op
          | none => s) s2
      | _ => s
    else s

/-- Make room for a line and put it into its set: an invalid way, lowest first (DESIGN CHOICE, log entry 12), else the least
recently used line of the set is evicted after any fill it waits for has landed. -/
def State.l1Alloc (s : State) (c : ClusterId) (l : L1Line) : State :=
  let here := (s.cluster c).l1d.filter (fun x => decide (x.set = l.set))
  match (List.range 4).find? (fun w => !(here.map (fun x => x.way.toNat)).contains w) with
  | some w => s.modCluster c (fun x => x.l1Put { l with way := BitVec.ofNat 2 w })
  | none =>
    match here.getLast? with
    | none => s
    | some v =>
      let s1 := s.landFill c v.target
      let s2 := match (s1.cluster c).l1Find v.target with
        | some v' => (s1.evict c v').modCluster c (fun x => x.l1Drop v'.target)
        | none => s1
      s2.modCluster c (fun x => x.l1Put { l with way := v.way })

/-- A fresh line for a target, nothing in it. -/
def L1Line.fresh (t : Target) (a : Nat) (gen : BitVec 16) : L1Line :=
  { set := t.set, way := 0, target := t.line, bytes := 0, dirty := 0, pending := true, poison := false
    aspace := a, gen := gen, held := [] }

/-- Write back every line of a cluster's L1D, landing pending fills first, and invalidate it when asked. -/
def State.cleanL1 (s : State) (c : ClusterId) (inval : Bool) : State :=
  let s1 := (s.cluster c).l1d.foldl (fun s l => s.landFill c l.target) s
  (s1.cluster c).l1d.foldl (fun s l => s.maintain c l (if inval then .cleanInval else .clean)) s1

/-- Clean and invalidate the lines of a target span in the L1D of every cluster whose job uses an address space (R276,
R282, R298). -/
def State.quiesceSpan (s : State) (a : Fin 1024) (p : L1Line → Bool) : State :=
  allClusters.foldl (fun s c =>
    if s.aspOf c = a ∧ (s.cluster c).job.isSome then
      let s1 := ((s.cluster c).l1d.filter p).foldl (fun s l => s.landFill c l.target) s
      ((s1.cluster c).l1d.filter p).foldl (fun s l => s.maintain c l .cleanInval) s1
    else s) s

/-! ### The cluster store (R344) -/

/-- Does a span of a cluster's store meet a word with an uncorrectable error? -/
def Cluster.storeFails (x : Cluster) (off n : Nat) : Bool :=
  (List.range (if n = 0 then 0 else (off + (n - 1)) / 8 - off / 8 + 1)).any (fun k => x.storeBad.contains (off / 8 + k))

/-- Where a span's first uncorrectable word or poisoned line lies. -/
def State.firstError (s : State) (c : ClusterId) (t : Target) (n : Nat) : Target :=
  match t with
  | .store off =>
    match (List.range ((off + (n - 1)) / 8 - off / 8 + 1)).find? (fun k => (s.cluster c).storeBad.contains (off / 8 + k)) with
    | some k => .store (8 * (off / 8 + k))
    | none => t
  | .device pa =>
    match (linesOf pa n).find? (fun l => s.poisoned l) with
    | some l => .device (64 * l)
    | none => t
  | _ => t

/-- Write one byte run within one 64-bit word of a cluster's store (R344): a write of the whole word clears its error, a
part write of a word with an error is lost and logged. -/
def State.storeWord (s : State) (c : ClusterId) (off : Nat) (bytes : List Byte) : State :=
  let x := s.cluster c
  let w := off / 8
  if x.storeBad.contains w ∧ bytes.length < 8 then
    s.addLog (s.eccAt c 4 ecStore (8 * w))
  else s.setCluster c { x with
    store := Mem.writeBytes x.store off bytes
    storeBad := if bytes.length = 8 then x.storeBad.filter (fun k => decide (k ≠ w)) else x.storeBad }

/-- Split bytes at word boundaries and write them to a cluster's store. `fuel` bounds the number of words. -/
def State.storeFuel : Nat → State → ClusterId → Nat → List Byte → State
  | 0, s, _, _, _ => s
  | n + 1, s, c, off, bytes =>
    match bytes with
    | [] => s
    | _ :: _ =>
      let k := 8 - off % 8
      State.storeFuel n (s.storeWord c off (bytes.take k)) c (off + k) (bytes.drop k)

/-- Write bytes to a cluster's store. -/
def State.storeWrite (s : State) (c : ClusterId) (off : Nat) (bytes : List Byte) : State :=
  s.storeFuel (bytes.length / 8 + 2) c off bytes

/-! ### The store buffer (R139, R140, R321) -/

/-- Log entries of the store buffer that are discarded (R140, type STORE_DISCARD of R352). -/
def State.logDiscard (s : State) (c : ClusterId) (es : List StoreEntry) : State :=
  let e := es.zipIdx.foldl (fun e p =>
    bodyPut (bodyPut e (48 + 12 * p.2) 8 p.1.va.toNat) (56 + 12 * p.2) 4 p.1.size) (s.logEntry 7 0 c.val 1)
  s.addLog (s.logCluster c e)

/-- The bytes a store-buffer entry writes. -/
def StoreEntry.bytes (e : StoreEntry) : List Byte := toBytes e.size e.data.toNat

/-- Put bytes into an L1D line, marking them dirty. -/
def L1Line.write (l : L1Line) (i : Nat) (bytes : List Byte) (mark : Bool) : L1Line :=
  let m : BitVec 64 := BitVec.ofNat 64 ((2 ^ bytes.length - 1) * 2 ^ i)
  { l with
    bytes := bytes.zipIdx.foldl (fun x b => putBits x (8 * (i + b.2)) b.1) l.bytes
    dirty := if mark then l.dirty ||| m else l.dirty }

/-- A write of the cluster's own Kestrel that does not go into the L1D reaches a present line of it too, whose dirty bits for the bytes
are cleared, so that a later load sees it (R321). DEDUCED (log entry 131). -/
def State.l1Follow (s : State) (c : ClusterId) (t : Target) (bytes : List Byte) : State :=
  match (s.cluster c).l1Find t with
  | none => s
  | some l =>
    let i := t.addr % 64
    let m : BitVec 64 := BitVec.ofNat 64 ((2 ^ bytes.length - 1) * 2 ^ i)
    let l1 : L1Line := { l.write i bytes false with dirty := l.dirty &&& ~~~ m }
    s.modCluster c (fun x => { x with l1d := replaceFirst (fun y => decide (y.target = l.target)) (fun _ => l1) x.l1d })

/-- A pending line that maintenance is held for takes its fill, and the maintenance, before a younger access (R321, R330). -/
def State.settleHeld (s : State) (c : ClusterId) (t : Target) : State :=
  match (s.cluster c).l1Find t with
  | some l => if l.held.isEmpty then s else s.landFill c t
  | none => s

/-- Every pending line of a cluster that maintenance is held for takes its fill and the maintenance. -/
def State.settleAllHeld (s : State) (c : ClusterId) : State :=
  (s.cluster c).l1d.foldl (fun s l => if l.held.isEmpty then s else s.landFill c l.target) s

/-- Drain one entry (R139, R140, R310, R315). An entry whose target answers FENCED counts as drained and is logged; so does one that
the store buffer holds with an uncorrectable error (R344). -/
def State.drainEntry (s : State) (c : ClusterId) (e : StoreEntry) : State :=
  let s := s.settleHeld c e.target
  let x := s.cluster c
  let a : Fin 1024 := AspId.ofNat' e.aspace
  let va := e.va.toNat
  let migrating := (s.migration a va).isSome
  let cached := e.cacheable && !x.k.det && !migrating
  let counted (s : State) : State :=
    match s.entryAt a va with
    | some r => s.count a r va
    | none => s
  match e.target with
  | .store off => s.storeWrite c off e.bytes
  | .device pa =>
    match if cached then x.l1Find e.target else none with
    | some l => s.setCluster c (x.l1Put (l.write (pa % 64) e.bytes true))
    | none =>
      if (s.fencedUnit pa).isSome then s.logDiscard c [e]
      else
        if cached then
          (counted s).l1Alloc c ((L1Line.fresh e.target a.val e.gen).write (pa % 64) e.bytes true)
        else (((counted s).deviceWrite pa e.bytes e.cacheable).l1Follow c e.target e.bytes).mirror a va e.bytes
  | .host f iova =>
    let s1 := match x.l1Find e.target with
      | some l => s.setCluster c (x.l1Put (l.write (iova % 64) e.bytes false))
      | none => s
    ((counted s1).hostWrite f iova e.bytes).mirror a va e.bytes
  | .peer dev pa =>
    match s.requestPort .kestrel c (BitVec.ofNat 12 dev) with
    | none => (s.logDiscard c [e]).fencedFor c ukFabric 0
    | some _ =>
      ((counted s).sendRequest c .kestrel 3 (BitVec.ofNat 12 dev) pa e.size 0 false none e.bytes .store e.va none).mirror a va
        e.bytes

/-- Drain the oldest `n` entries in order. -/
def State.drainN : Nat → State → ClusterId → State
  | 0, s, _ => s
  | n + 1, s, c =>
    match (s.cluster c).storeBuf with
    | [] => s
    | e :: es =>
      match (s.modCluster c (fun x => { x with storeBuf := es })).readMarks c (fun m => decide (m.code.toNat = ecStoreBuf)) with
      | (some _, s1) => State.drainN n ((s1.clearMarks c (fun m => decide (m.code.toNat = ecStoreBuf))).logDiscard c [e]) c
      | (none, s1) => State.drainN n (s1.drainEntry c e) c

/-- Drain a cluster's store buffer. -/
def State.drainStores (s : State) (c : ClusterId) : State := s.drainN (s.cluster c).storeBuf.length c

/-- A store enters the buffer of 16 entries; the oldest drains first when it is full. -/
def State.pushStore (s : State) (c : ClusterId) (e : StoreEntry) : State :=
  let s1 := if (s.cluster c).storeBuf.length < 16 then s else s.drainN 1 c
  s1.modCluster c (fun x => { x with storeBuf := x.storeBuf ++ [e] })

/-- The byte of a target as the cluster's own buffered stores leave it (R321). -/
def forwardByte (buf : List StoreEntry) (t : Target) (b : Byte) : Byte :=
  buf.foldl (fun b e =>
    let same : Bool := match e.target, t with
      | .store _, .store _ => true
      | .device _, .device _ => true
      | .host f _, .host g _ => decide (f = g)
      | .peer f _, .peer g _ => decide (f = g)
      | _, _ => false
    if same ∧ e.target.addr ≤ t.addr ∧ t.addr < e.target.addr + e.size then
      nthD e.bytes (t.addr - e.target.addr) b
    else b) b

/-- A target moved on by `k` bytes. -/
def Target.plus (t : Target) (k : Nat) : Target :=
  match t with
  | .store o => .store (o + k)
  | .device p => .device (p + k)
  | .host f i => .host f (i + k)
  | .peer d p => .peer d (p + k)

/-- Bytes as the cluster's own buffered stores leave them. -/
def forward (buf : List StoreEntry) (t : Target) (bytes : List Byte) : List Byte :=
  bytes.zipIdx.map (fun b => forwardByte buf (t.plus b.2) b.1)

/-- A consumer's ECC_UNCORR from a poisoned device line is logged against its source too, for the consumer's job (R345, R351, R353):
the slice that holds the line, else the stack. -/
def State.logSource (s : State) (j : Option JobId) (t : Target) : State :=
  match t with
  | .device pa =>
    let a := pa / 64 * 64
    let here := (s.l2Find none (pa / 64)).isSome
    let e := { s.logEntry 4 (if here then 2 else 1) (if here then s.servedBy (sliceOf (pa / 64)) else stackOf pa) 1 with
      cause := 0x0D
      paddr := BitVec.ofNat 64 a
      job := (j.map (fun j => BitVec.ofNat 8 j.val)).getD 0xFF
      attempt := ((j.bind s.job).map (·.attempt)).getD 0 }
    s.addLog (bodyPut (bodyPut e 48 1 (if here then 0x0D else 0x0F)) 56 8 a)
  | _ => s

/-- The log entry of an uncorrectable error that an access of a cluster consumes: a word of the cluster store, or a poisoned line. -/
def State.logConsumed (s : State) (c : ClusterId) (t : Target) : State :=
  match t with
  | .store off => s.addLog (s.eccAt c 4 ecStore (8 * (off / 8)))
  | _ => s.logSource (s.clusterJob c) t

/-! ### What a Kestrel reads -/

/-- What a read gives: bytes, an uncorrectable error at its target, one of the L1D that is logged already, an error completion of the
host, FENCED by a unit, or a wait for a peer. -/
inductive Got where
  | bytes (b : List Byte)
  | bad
  | badLine
  | hostError
  | fenced (kind number : Nat)
  | remote (dev pa : Nat)
  deriving DecidableEq, Repr

/-- The error marks of a line of the L1D (R353). -/
def L1Line.mark (l : L1Line) (m : EccMark) : Bool := m.at ecL1d (l.set.toNat + 256 * l.way.toNat)

/-- A load hits a line of the L1D: it comes first in its set's order. -/
def State.l1Hit (s : State) (c : ClusterId) (l : L1Line) (i n : Nat) : Got × State :=
  match s.readMarks c l.mark with
  | (some _, s1) => (.badLine, s1)
  | (none, s1) => (if l.poison then .bad else .bytes (lineBytes l.bytes i n), s1.modCluster c (fun y => y.l1Put l))

/-- The bytes at a device target as the cluster's own dirty L1D bytes leave them: a load through a range that is not CACHEABLE sees its
own earlier stores too (R321). DEDUCED (log entry 131). -/
def Cluster.overlay (x : Cluster) (t : Target) (bytes : List Byte) : List Byte :=
  match x.l1Find t with
  | none => bytes
  | some l => bytes.zipIdx.map (fun p =>
      let i := t.addr % 64 + p.2
      if l.dirty.getLsbD i then fieldAt l.bytes i 0 8 else p.1)

/-- Is a line at a target present, with nothing pending? -/
def Cluster.l1Holds (x : Cluster) (t : Target) : Bool :=
  match x.l1Find t with
  | some l => !l.pending
  | none => false

/-- Read `n` bytes within one line for a Kestrel load or instruction (R310, R315, R329), counting what reaches the L2. -/
def State.kestrelRead (s : State) (c : ClusterId) (a : Fin 1024) (va : Nat) (t : Target) (e : Option RangeEntry) (n : Nat) :
    Got × State :=
  let x := s.cluster c
  let cacheable := match e with
    | some r => r.cacheable
    | none => false
  let cached := cacheable && !x.k.det && !(s.migration a va).isSome
  let counted (s : State) : State :=
    match e with
    | some r => s.count a r va
    | none => s
  match t with
  | .store off => if x.storeFails off n then (.bad, s) else (.bytes (Mem.readBytes x.store off n), s)
  | .device pa =>
    match if cached && x.l1Holds t then none else s.fencedUnit pa with
    | some (k, u) => (.fenced k u, s)
    | none =>
      if cached then
        let s0 := s.settleHeld c t
        let s1 := match (s0.cluster c).l1Find t with
          | some _ => s0.landFill c t
          | none => ((counted s0).l1Alloc c (L1Line.fresh t a.val (match e with
              | some r => r.gen
              | none => 0))).landFill c t
        match (s1.cluster c).l1Find t with
        | some l => s1.l1Hit c l (pa % 64) n
        | none => (.bytes (s1.readMem pa n), s1)
      else if s.poisoned (pa / 64) then (.bad, counted s)
      else
        let (b, s1) := (counted s).deviceRead pa n cacheable
        (.bytes (x.overlay t b), s1)
  | .host f iova =>
    match if cached then x.l1Find t else none with
    | some l => s.l1Hit c l (iova % 64) n
    | none =>
      let counted (s : State) : State := if cacheable && (s.l2Find (some f) (iova / 64)).isSome then s else counted s
      if cached then
        match (counted s).hostLoad f (iova / 64 * 64) 64 true with
        | (.error _, s1) => (.hostError, s1)
        | (.ok bs, s1) =>
          let l := { L1Line.fresh t a.val (match e with
            | some r => r.gen
            | none => 0) with bytes := BitVec.ofNat 512 (ofBytes bs), pending := false }
          (.bytes ((bs.drop (iova % 64)).take n), s1.l1Alloc c l)
      else
        match (counted s).hostLoad f iova n cacheable with
        | (.error _, s1) => (.hostError, s1)
        | (.ok bs, s1) => (.bytes bs, s1)
  | .peer dev pa => (.remote dev pa, counted s)

end Sys2Proof.Machine
end

