-- ==== Sys2Proof/Machine/Context.lean ====
section
/-! DEFINITION. The context image of a cluster (R123, R124, R177, R197, R198, R217): its bytes, the checks of a restore
(R129), and the sections of the dump area (R456, R457). -/
namespace Sys2Proof.Machine

/-! ### Registers of the Kestrel -/

/-- A scalar register; g0 reads as zero (R96). -/
def Kestrel.get (k : Kestrel) (r : BitVec 5) : Word := if r = 0 then 0 else Table.get 0 k.g r.toNat
/-- Write a scalar register; a write to g0 is discarded (R96). -/
def Kestrel.set (k : Kestrel) (r : BitVec 5) (v : Word) : Kestrel :=
  if r = 0 then k else { k with g := Table.set k.g r.toNat v }

/-- STATUS (R97). -/
def Kestrel.status (k : Kestrel) : Word := BitVec.ofNat 64 (k.level.toNat + 4 * bit k.ie + 8 * bit k.det)

/-- IRQ_PEND (R110): TIMER follows TIME and TIMECMP, the other lines are latched. -/
def State.irqPend (s : State) (k : Kestrel) : Word :=
  (k.irqPend &&& 0x3E) ||| (if k.timecmp.toNat ≤ s.tick.toNat then 1 else 0)

/-- A vector register, a predicate, a tile and an AMAX slot. -/
def Harrier.reg (h : Harrier) (n : Nat) : BitVec 16384 := Table.get 0 h.v n
def Harrier.setReg (h : Harrier) (n : Nat) (x : BitVec 16384) : Harrier := { h with v := Table.set h.v n x }
def Harrier.pred (h : Harrier) (n : Nat) : BitVec 2048 := Table.get 0 h.p n
def Harrier.setPred (h : Harrier) (n : Nat) (x : BitVec 2048) : Harrier := { h with p := Table.set h.p n x }
def Harrier.slot (h : Harrier) (n : Nat) : AmaxSlot := Table.get AmaxSlot.zero h.amax n
def Harrier.setSlot (h : Harrier) (n : Nat) (x : AmaxSlot) : Harrier := { h with amax := Table.set h.amax n x }
def Hearth.tile (m : Hearth) (n : Nat) : BitVec 131072 := Table.get 0 m.tiles n
def Hearth.setTile (m : Hearth) (n : Nat) (x : BitVec 131072) : Hearth := { m with tiles := Table.set m.tiles n x }

/-- VPROG (R162). -/
def Harrier.vprog (h : Harrier) : Nat := h.vprogIndex.toNat + 2 ^ 31 * bit h.vprogValid

/-! ### The image -/

/-- Bytes of the image and of one snapshot (R34). -/
def imageSize : Nat := 229376
def snapshotSize : Nat := 256

/-- The AMAX region: sixteen slots of 16 bytes (R217). -/
def amaxBytes (h : Harrier) : List Byte :=
  (List.range 16).flatMap (fun n =>
    let x := h.slot n
    toBytes 8 x.value.toNat ++ toBytes 8 (bit x.nanSeen + 2 * bit x.infSeen))

/-- The job-relative period that JOBINFO and the image show: that of the cluster's stream (R98, R124). -/
def State.periodOf (s : State) (c : ClusterId) : W32 :=
  match (s.cluster c).stream with
  | some st => if (s.stream st).periodic then (s.stream st).current else 0
  | none => 0

/-- The first 16 bytes of the scalar region with a CHECK value. -/
def State.imageHead (s : State) (c : ClusterId) (check : W32) : List Byte :=
  let (j, jci) := match (s.cluster c).job with
    | some (j, i) => (j.val, i.toNat)
    | none => (0, 0)
  let attempt := match (s.cluster c).job with
    | some (j, _) => (s.attemptOf j).toNat
    | none => 0
  toBytes 2 1 ++ toBytes 1 j ++ toBytes 1 attempt ++ toBytes 4 jci ++ toBytes 4 (s.periodOf c).toNat
    ++ toBytes 4 check.toNat

/-- The rest of the scalar region (R124), from TICK on. -/
def State.imageScalars (s : State) (k : Kestrel) : List Byte :=
  toBytes 8 s.tick.toNat ++ List.replicate 40 0
    ++ (List.range 32).flatMap (fun r => toBytes 8 (k.get (BitVec.ofNat 5 r)).toNat)
    ++ [k.pc, k.status, k.cause.setWidth 64, k.tval, k.esp, k.irqEn, k.timecmp, BitVec.ofNat 64 (bit k.det),
        k.csback, k.cslive, k.ssp.setWidth 64, s.irqPend k].flatMap (fun x => toBytes 8 x.toNat)
    ++ List.replicate 3680 0

/-- The Hearth control word (R198). -/
def Hearth.control (m : Hearth) : Nat :=
  m.openTile.toNat + 8 * bit m.isOpen + 16 * m.steps.toNat + 2 ^ 8 * m.pi1.toNat + 2 ^ 12 * bit m.rndm
    + 2 ^ 13 * bit m.scaled + 2 ^ 14 * m.atype.toNat + 2 ^ 18 * m.btype.toNat

/-- The image up to the scalar region (R123). -/
def imageUnits (h : Harrier) (m : Hearth) : List Byte :=
  (List.range 32).flatMap (fun n => toBytes 2048 (h.reg n).toNat)
    ++ (List.range 8).flatMap (fun n => toBytes 16384 (m.tile n).toNat)
    ++ (List.range 4096).flatMap (fun n => toBytes 3 (bitsAt m.partials (20 * n) 20).toNat)
    ++ toBytes 8192 m.lfsr.toNat
    ++ (List.range 8).flatMap (fun n => toBytes 256 (h.pred n).toNat)
    ++ amaxBytes h
    ++ toBytes 4 h.vl.toNat ++ toBytes 4 h.vctl.toNat ++ toBytes 4 h.vflags.toNat ++ toBytes 4 h.vprog
    ++ List.replicate 240 0
    ++ toBytes 4 m.control ++ toBytes 4 m.scale.toNat ++ toBytes 4 m.hctl.toNat ++ toBytes 4 m.hflags.toNat
    ++ List.replicate 496 0

/-- The context image of a cluster, CHECK over the whole with the field taken as zero (R124). -/
def State.contextImage (s : State) (c : ClusterId) : List Byte :=
  let x := s.cluster c
  let units := imageUnits x.h x.m
  let rest := s.imageScalars x.k ++ List.replicate 5120 0
  units ++ s.imageHead c (crc32c (units ++ s.imageHead c 0 ++ rest)) ++ rest

/-- A number of `n` bytes at an offset of an image. -/
def at_ (image : List Byte) (off n : Nat) : Nat := ofBytes ((image.drop off).take n)

/-- Is a run of an image zero? -/
def zeroAt (image : List Byte) (off n : Nat) : Bool := ((image.drop off).take n).all (fun b => decide (b = 0))

/-- May ESP, CSBACK or CSLIVE hold a value (R98)? -/
def espOk (v : Nat) : Bool := decide (v % 32 = 0) && decide (v ≤ 0x800000)
def csbackOk (v : Nat) : Bool := decide (v % 4096 = 0) && (decide (v = 0) || decide (0x800000 ≤ v))
def csliveOk (v : Nat) : Bool := decide (v % 4096 = 0) && decide (v ≤ 131072)
/-- May AMV hold a value (R218): not negative, no NaN, no infinity? -/
def amvOk (v : Nat) : Bool := decide (v < 0x7FF0000000000000)

/-- An AMAX region whose slots keep their definitions (R217). -/
def amaxOk (b : List Byte) : Bool :=
  (List.range 16).all (fun n => amvOk (at_ b (16 * n) 8) && decide (at_ b (16 * n + 8) 8 < 4))

/-- The slots of an AMAX region. -/
def amaxOf (b : List Byte) : Table AmaxSlot :=
  (List.range 16).map (fun n => (n, AmaxSlot.mk (BitVec.ofNat 64 (at_ b (16 * n) 8))
    (decide (at_ b (16 * n + 8) 1 % 2 = 1)) (decide (at_ b (16 * n + 8) 1 / 2 % 2 = 1))))

/-- Does an image verify (R125, R129): CHECK, FORMAT, zero fields, no LFSR at zero (R191), and values that an MTSR would accept? DET is
taken from MODE, whatever bit 3 of STATUS is: DESIGN CHOICE (log entry 129). -/
def imageOk (b : List Byte) : Bool :=
  let sc := 0x35C00
  let reg (i : Nat) : Nat := at_ b (sc + 0x140 + 8 * i) 8
  decide (b.length = imageSize)
    && decide (at_ b (sc + 0xC) 4 = (crc32c (b.take (sc + 0xC) ++ [0, 0, 0, 0] ++ b.drop (sc + 0x10))).toNat)
    && (List.range 4096).all (fun n => decide (at_ b (0x30000 + 3 * n) 3 < 2 ^ 20))
    && (List.range 4096).all (fun n => decide (at_ b (0x33000 + 2 * n) 2 ≠ 0))
    && amaxOk ((b.drop 0x35800).take 256)
    && decide (at_ b 0x35900 4 ≤ 2048) && decide (at_ b 0x35904 4 < 256) && decide (at_ b 0x35908 4 < 32)
    && decide (at_ b 0x3590C 4 % 2 ^ 31 ≤ 2047) && zeroAt b 0x35910 240
    && decide (at_ b 0x35A00 4 < 2 ^ 22) && decide (at_ b 0x35A08 4 < 8) && decide (at_ b 0x35A0C 4 < 8)
    && zeroAt b 0x35A10 496
    && decide (at_ b sc 2 = 1) && decide (at_ b (sc + 3) 1 < 16) && decide (at_ b (sc + 4) 1 < 64)
    && zeroAt b (sc + 5) 3 && zeroAt b (sc + 0x18) 40 && zeroAt b (sc + 0x40) 8
    && decide (reg 1 < 16) && decide (reg 1 % 4 ≤ 1) && decide (reg 2 < 256) && espOk (reg 4) && decide (reg 5 < 64)
    && decide (reg 7 < 2) && csbackOk (reg 8) && csliveOk (reg 9) && decide (reg 10 ≤ 4096) && decide (reg 11 < 64)
    && zeroAt b (sc + 0x1A0) 3680 && zeroAt b 0x36C00 5120

/-- The Kestrel of an image; lines that became pending meanwhile stay pending (R124). -/
def imageKestrel (b : List Byte) (pend : Word) : Kestrel :=
  let sc := 0x35C00
  let reg (i : Nat) : Word := BitVec.ofNat 64 (at_ b (sc + 0x140 + 8 * i) 8)
  let regs : Table Word := (List.range 31).map (fun r => (r + 1, BitVec.ofNat 64 (at_ b (sc + 0x48 + 8 * r) 8)))
  { Kestrel.reset with
    g := regs
    pc := reg 0
    level := bitsAt (reg 1) 0 2
    ie := (reg 1).getLsbD 2
    det := (reg 7).getLsbD 0
    cause := bitsAt (reg 2) 0 8
    tval := reg 3
    esp := reg 4
    irqEn := reg 5
    timecmp := reg 6
    csback := reg 8
    cslive := reg 9
    ssp := bitsAt (reg 10) 0 13
    irqPend := (reg 11 &&& 0x3E) ||| pend }

/-- The Harrier of an image. -/
def imageHarrier (b : List Byte) : Harrier :=
  { v := (List.range 32).map (fun n => (n, BitVec.ofNat 16384 (at_ b (2048 * n) 2048)))
    p := (List.range 8).map (fun n => (n, BitVec.ofNat 2048 (at_ b (0x35000 + 256 * n) 256)))
    vl := BitVec.ofNat 12 (at_ b 0x35900 4)
    vctl := BitVec.ofNat 8 (at_ b 0x35904 4)
    vflags := BitVec.ofNat 5 (at_ b 0x35908 4)
    vprogIndex := BitVec.ofNat 12 (at_ b 0x3590C 4)
    vprogValid := decide (at_ b 0x3590C 4 / 2 ^ 31 = 1)
    amax := amaxOf ((b.drop 0x35800).take 256) }

/-- The Hearth of an image. -/
def imageHearth (b : List Byte) : Hearth :=
  let w : W32 := BitVec.ofNat 32 (at_ b 0x35A00 4)
  { tiles := (List.range 8).map (fun n => (n, BitVec.ofNat 131072 (at_ b (0x10000 + 16384 * n) 16384)))
    partials := (List.range 4096).foldl (fun x n =>
      putBits x (20 * n) (BitVec.ofNat 20 (at_ b (0x30000 + 3 * n) 3))) 0
    lfsr := BitVec.ofNat 65536 (at_ b 0x33000 8192)
    openTile := bitsAt w 0 3
    isOpen := w.getLsbD 3
    steps := bitsAt w 4 4
    pi1 := bitsAt w 8 4
    rndm := w.getLsbD 12
    scaled := w.getLsbD 13
    atype := bitsAt w 14 4
    btype := bitsAt w 18 4
    scale := BitVec.ofNat 32 (at_ b 0x35A04 4)
    hctl := BitVec.ofNat 3 (at_ b 0x35A08 4)
    hflags := BitVec.ofNat 3 (at_ b 0x35A0C 4) }

/-! ### Sections of the dump area (R456, R457) -/

/-- A section: its entry in the table, type, unit and offset. -/
structure SectionId where
  entry : Nat
  type : Nat
  unit : Nat
  off : Nat
  size : Nat
  deriving DecidableEq, Repr

/-- The cluster's section and a Talon section for a VF or an EVOIR_IN port. -/
def clusterSection (c : Nat) : SectionId := ⟨80 + c, 6, c, 0x1000000 + 0x100000 * c, 0x100000⟩
def talonSection (t : Nat) : SectionId := ⟨128 + t, 7, t, 0x400000 + 0x10000 * t, 0x10000⟩

/-- STATUS codes of a section entry. -/
def secEmpty : Nat := 0
def secComplete : Nat := 1
def secPartial : Nat := 2
def secFailed : Nat := 3

/-- Write an entry of the section table over the section's bytes. -/
def State.writeEntry (s : State) (x : SectionId) (cause status : Nat) (bytes : List Byte) : State :=
  match s.dumpArea with
  | none => s
  | some base =>
    let entry := toBytes 1 x.type ++ toBytes 1 x.unit ++ toBytes 1 cause ++ toBytes 1 status ++ toBytes 4 0
      ++ toBytes 8 x.off ++ toBytes 4 x.size ++ toBytes 4 (crc32c bytes).toNat ++ toBytes 8 s.tick.toNat
    let s1 := s.writeMem (base + 0x1000 + 32 * x.entry) entry
    let sec : Section := ⟨BitVec.ofNat 8 cause, BitVec.ofNat 8 status, s.tick⟩
    { s1 with integ := { s1.integ with sections := Table.set s1.integ.sections x.entry sec } }

/-- Write a section's data, given as runs at offsets within it, and then its entry; the rest of the section is zero. Where
the area's stack is lost nothing is written (R452). -/
def State.writeSection (s : State) (x : SectionId) (cause : Nat) (runs : List (Nat × List Byte)) : State :=
  match s.dumpArea with
  | none => s
  | some base =>
    if s.stackLive base then
      let s1 := runs.foldl (fun s r => s.writeMem (base + x.off + r.1) r.2)
        (s.withMem (Mem.clear s.memory.mem (base + x.off) x.size))
      s1.writeEntry x cause secComplete (s1.readMem (base + x.off) x.size)
    else s

/-- Free bytes: what a layout the spec does not give holds. -/
def freeBytes (k n : Nat) : List Byte := (List.range n).map (fun i => Config.freeByte k i)

/-- The freeze cause of the first master of a cluster that Talon holds, or zero (R302). -/
def State.freezeCause (s : State) (c : ClusterId) : Byte :=
  match s.integ.talon.find? (fun f => decide (f.number.toNat = c.val ∧ f.kind ≠ .vf ∧ f.kind ≠ .evoirIn)) with
  | some f => f.cause
  | none => 0

/-- The runs of a cluster's section (R457): the context image, the protected regions, the vector window, the store buffer
and range caches, the mover queue, and cluster-store bytes 0 to 753,663. The spec gives no layout for the store buffer, the caches and
the queue: free values. It puts the freeze cause into the section and says not where: byte 0, DESIGN CHOICE (log entry 135). -/
def State.clusterRuns (s : State) (c : ClusterId) : List (Nat × List Byte) :=
  let x := s.cluster c
  [(0, [s.freezeCause c]), (0x1000, s.contextImage c), (0x39000, Mem.readBytes x.store shadowBase 0xC000),
   (0x45000, toBytes 4096 x.window.toNat), (0x46000, freeBytes s.free 0x1000), (0x47000, freeBytes (s.free + 1) 0x1000),
   (0x48000, Mem.readBytes x.store 0 753664)]

/-- Write a cluster's section with a CAUSE of R457. -/
def State.dumpCluster (s : State) (c : ClusterId) (cause : Nat) : State :=
  ({ s with free := s.free + 2 } : State).writeSection (clusterSection c.val) cause (s.clusterRuns c)

end Sys2Proof.Machine
end

