-- ==== Sys2Proof/Machine/Traps.lean ====
section
/-! DEFINITION. Where a Kestrel's exceptions go (R130-R153): the S entry, the fault stop, the Owl entry, the park and the
cluster-fatal stop; the fetch of an instruction and the condition under which one issues. -/
namespace Sys2Proof.Machine

/-! ### Cause codes (R130) -/

def exIllegalOp : Nat := 0x01
def exRsvdEnc : Nat := 0x02
def exPriv : Nat := 0x03
def exMisalign : Nat := 0x04
def exXlate : Nat := 0x05
def exRights : Nat := 0x06
def exCfMismatch : Nat := 0x07
def exSsOverflow : Nat := 0x08
def exFpTrap : Nat := 0x09
def exIntDivZero : Nat := 0x0A
def exSealFail : Nat := 0x0B
def exResidueFail : Nat := 0x0C
def exEccUncorr : Nat := 0x0D
def exWatchdog : Nat := 0x0E
def exTrapi : Nat := 0x0F
def exBreak : Nat := 0x10
def exEscalated : Nat := 0x1F

/-- Causes that enter the Owl directly. -/
def toOwl (code : Nat) : Bool := [6, 7, 8, 0xB, 0xC, 0xD, 0xE].contains code

/-- The window address of an offset (R133). -/
def windowAt (off : Nat) : Word := BitVec.ofNat 64 (windowBase + off)

/-- The Kestrel of a cluster. -/
def State.kestrel (s : State) (c : ClusterId) : Kestrel := (s.cluster c).k
/-- Change the Kestrel of a cluster. -/
def State.modK (s : State) (c : ClusterId) (f : Kestrel → Kestrel) : State :=
  s.modCluster c (fun x => { x with k := f x.k })

/-- The 160 bytes of an entry frame (R112): g1-g15, a PC, a STATUS and 24 zero bytes. -/
def frameBytes (k : Kestrel) (pc status : Word) : List Byte :=
  (List.range 15).flatMap (fun i => toBytes 8 (k.get (BitVec.ofNat 5 (i + 1))).toNat)
    ++ toBytes 8 pc.toNat ++ toBytes 8 status.toNat ++ List.replicate 24 0

/-- CAUSE and TVAL of an exception (R131). -/
def Kestrel.setCause (k : Kestrel) (code : Nat) (tval : Word) : Kestrel :=
  { k with cause := BitVec.ofNat 8 code, tval := tval }

/-! ### The fault stop (R130, R287, R291) -/

/-- The Kestrel stops with precise state at `pc`, and the fault of a master (1 Kestrel, 2 Harrier) is posted for its work. -/
def State.faultStop (s : State) (c : ClusterId) (master : Nat) (pc : Word) (access : BitVec 4) (va : Word) (len : Nat) :
    State :=
  let s1 := (s.drainStores c).modK c (fun k => { k.setCause exXlate va with run := .faultStop, pc := pc })
  match s1.clusterWork c with
  | some (st, idx) =>
    let id := s1.sched.nextFault
    (s1.modCluster c (fun x => { x with fault := some id })).postFault st master (some c) access va len idx
  | none => s1

/-! ### Cluster-fatal (R152) and power-down (R438) -/

/-- The domain of a cluster powers down: its store buffer is drained and its L1D cleaned, its epoch increments, and what it
held is lost. Its grant and share stay until the job is aborted. -/
def State.powerDown (s : State) (c : ClusterId) : State :=
  let s1 := ((s.drainStores c).cleanL1 c true).bumpEpoch ukCluster c.val true
  s1.modCluster c (fun x => { Cluster.reset with
    k := { Kestrel.reset with run := if x.k.run = .halted then .halted else .running }
    job := x.job
    stream := x.stream
    share := x.share })

/-- Mark the masters of a cluster in Talon as dumped. -/
def State.markDumped (s : State) (c : ClusterId) : State :=
  let mark (f : Frozen) : Frozen :=
    if f.number.toNat = c.val ∧ (f.kind ≠ .vf ∧ f.kind ≠ .evoirIn) then { f with dumped := true } else f
  { s with integ := { s.integ with talon := s.integ.talon.map mark } }

/-- Hold the four masters of a cluster in Talon, those that are not held yet. -/
def State.holdCluster (s : State) (c : ClusterId) (cause : Nat) : State :=
  let j := s.clusterJob c
  (((s.holdMaster .kestrel c.val j cause).holdMaster .harrier c.val j cause).holdMaster .mover c.val j cause).holdMaster
    .hearth c.val j cause

/-- Fence a cluster and take it out of service (R152 steps 4-6, R347 steps 4-6); its L1D is written back before that (R333). -/
def State.takeOut (s : State) (c : ClusterId) : State :=
  let s1 := ((s.drainStores c).cleanL1 c true).bumpEpoch ukCluster c.val true
  let s2 := { s1 with card := { s1.card with live := s1.card.live &&& ~~~ (1#48 <<< c.val) } }
  (s2.postCapacity 0 (s2.site c) (clusterStop c)).powerDown c

/-- The TALON_FROZEN record of each master of a cluster (R303 step 4). -/
def State.frozenRecords (s : State) (c : ClusterId) : State :=
  [MasterKind.kestrel, .harrier, .mover, .hearth].foldl (fun s k => s.causeOf c stTalonFrozen (talonDetail k c.val)) s

/-- An exception at O makes the cluster fatal (R152). The store-buffer entries are discarded at fencing (R140). -/
def State.clusterFatal (s : State) (c : ClusterId) (code : Nat) : State :=
  let s1 := (s.modK c (fun k => { k with run := .halted })).suspectLog c
    (bodyPut { s.logEntry 6 0 c.val 2 with cause := BitVec.ofNat 8 code } 48 8 code)
  let s2 := ((s1.holdCluster c fcClusterFatal).frozenRecords c).dumpCluster c 1
  ((s2.markDumped c).modCluster c (fun x => { x with storeBuf := [] })).takeOut c |>.failCluster c

/-! ### Stacking (R112, R146, R148) -/

/-- The first of the five 32-byte beats of a frame at an offset of cluster store that falls on an uncorrectable word. -/
def Cluster.badBeat (x : Cluster) (off : Nat) : Option Nat := (List.range 5).find? (fun i => x.storeFails (off + 32 * i) 32)

/-- Write the first `n` beats of a frame. -/
def State.stackBeats (s : State) (c : ClusterId) (off n : Nat) (frame : List Byte) : State :=
  s.storeWrite c off (frame.take (32 * n))

/-! ### The Owl (R146-R148, R482) -/

/-- Enter the Owl with OCAUSE fields and the saved values; ESP and SSP are as before any abandoned S entry. A stacking write that meets
an uncorrectable error is an exception at O (R152). -/
def State.owlEntry (s : State) (c : ClusterId) (code orig entry : Nat) (otval oepc : Word) : State :=
  let s1 := s.drainStores c
  let k := s1.kestrel c
  let regs (s : State) : State := s.modK c (fun y => { y with
    level := 2
    ie := false
    ocause := BitVec.ofNat 64 (code + 2 ^ 8 * orig + 2 ^ 16 * entry + 2 ^ 24 * k.level.toNat)
    otval := otval
    oepc := oepc
    ostatus := k.status
    oesp := k.esp
    osp := 0x7FFF60
    pc := windowAt 0x800
    run := .running })
  match (s1.cluster c).badBeat 0x7FFF60 with
  | some n => (regs (s1.stackBeats c 0x7FFF60 n (frameBytes k oepc k.status))).clusterFatal c exEccUncorr
  | none => regs (s1.stackBeats c 0x7FFF60 5 (frameBytes k oepc k.status))

/-! ### The S entry (R112, R142, R146) -/

/-- Push a value on the shadow stack. -/
def State.shadowPush (s : State) (c : ClusterId) (v : Word) : State :=
  let n := (s.kestrel c).ssp
  (s.storeWrite c (shadowBase + 8 * n.toNat) (toBytes 8 v.toNat)).modK c (fun k => { k with ssp := n + 1 })

/-- The top entry of the shadow stack. -/
def State.shadowTop (s : State) (c : ClusterId) : Word :=
  let x := s.cluster c
  BitVec.ofNat 64 (ofBytes (Mem.readBytes x.store (shadowBase + 8 * (x.k.ssp.toNat - 1)) 8))

/-- The first 32-bit word with an uncorrectable error among `n` bytes of the vector window (R133, R344). -/
def Cluster.windowFails (x : Cluster) (off n : Nat) : Option Nat :=
  (List.range (n / 4)).find? (fun k => x.windowBad.contains (off / 4 + k))

/-- An uncorrectable word of the vector window that a fetch meets is logged (R352, R353). -/
def State.logWindow (s : State) (c : ClusterId) (off : Nat) : State := s.addLog (s.eccAt c 4 ecWindow off)

/-- The checks of an S entry between KCLK 4 and 8 (R112, R146), in the order their KCLKs come: the beat of a stacking write, at KCLK 4 to
8, before the window fetch that ends at its KCLK, 7 or 8. The answer is how many beats have been written, and the address that fails. A
write of a beat whose words hold an error is the check of R146, although R344 lets a whole word be replaced: DEDUCED (log entry 127). -/
def Cluster.entryFails (x : Cluster) (frame vector : Nat) : Option (Nat × Bool × Word) :=
  let beat := x.badBeat frame
  let first := (x.windowFails vector 16).map (fun w => (vector, vector + 4 * w))
  let second := (x.windowFails (vector + 16) 16).map (fun w => (vector + 16, vector + 16 + 4 * w))
  match beat with
  | some i =>
    if i = 4 then
      match first with
      | some (v, _) => some (4, true, windowAt v)
      | none => some (4, false, BitVec.ofNat 64 (frame + 128))
    else some (i, false, BitVec.ofNat 64 (frame + 32 * i))
  | none =>
    match first, second with
    | some (v, _), _ => some (4, true, windowAt v)
    | none, some (v, _) => some (5, true, windowAt v)
    | none, none => none

/-- An S entry with a CAUSE byte and TVAL, through a vector of the window. A failed check escalates it to the Owl; CAUSE and
TVAL are then written all the same (R112 KCLK 1), and so are the beats before it (R148). -/
def State.sEntry (s : State) (c : ClusterId) (cause : Nat) (tval savedPc : Word) (vector : Nat) : State :=
  let s1 := s.drainStores c
  let k := s1.kestrel c
  let s2 := s1.modK c (fun k => { k.setCause cause tval with run := .running })
  let esp := k.esp.toNat
  if esp < 160 ∨ shadowBase < esp then s2.owlEntry c exEscalated exRights cause (k.esp - 160) savedPc
  else if k.ssp = 4096 then s2.owlEntry c exEscalated exSsOverflow cause (savedPc ||| 1) savedPc
  else
    let s3 := s2.shadowPush c (savedPc ||| 1)
    match (s3.cluster c).entryFails (esp - 160) vector with
    | some (n, w, a) =>
      let s4 := (s3.stackBeats c (esp - 160) n (frameBytes k savedPc k.status)).modK c (fun y => { y with ssp := k.ssp })
      (if w then s4.logWindow c (a.toNat % 4096) else s4).owlEntry c exEscalated exEccUncorr cause a savedPc
    | none => (s3.stackBeats c (esp - 160) 5 (frameBytes k savedPc k.status)).modK c (fun k => { k with
        level := 1, ie := false, esp := k.esp - 160, pc := windowAt vector })

/-! ### Routing (R130) -/

/-- Raise a cause with its TVAL and saved PC: at O the cluster is fatal, else it enters the Owl or S. -/
def State.raise (s : State) (c : ClusterId) (code : Nat) (tval savedPc : Word) : State :=
  if (s.kestrel c).level = 2 then s.clusterFatal c code
  else if toOwl code then (s.modK c (fun k => k.setCause code tval)).owlEntry c code 0 0 tval savedPc
  else s.sEntry c code tval savedPc (if code = exTrapi then 0x80 else 0)

/-- A translation fault of the Kestrel: a fault stop, or cluster-fatal at O. -/
def State.xlateFault (s : State) (c : ClusterId) (access : BitVec 4) (va : Word) (len : Nat) : State :=
  if (s.kestrel c).level = 2 then s.clusterFatal c exXlate else s.faultStop c 1 (s.kestrel c).pc access va len

/-! ### The park at O (R149, R150) -/

/-- The log entry that the Owl firmware writes (R149, R352). -/
def State.owlLog (s : State) (c : ClusterId) : State :=
  let x := s.cluster c
  let k := x.k
  let code := (bitsAt k.ocause 0 8).toNat
  let frame := Mem.readBytes x.store 0x7FFF60 160
  let viaEscalate := decide (code = exEscalated) && decide (bitsAt k.ocause 16 8 = 0)
  let saved := if viaEscalate then ofBytes (Mem.readBytes x.store (k.oesp.toNat + 120) 8) else 0
  let e := { s.logEntry 5 0 c.val 1 with cause := BitVec.ofNat 8 code }
  let e := bodyPut (bodyPut (bodyPut (bodyPut (bodyPut e 48 8 k.ocause.toNat) 56 8 k.otval.toNat) 64 8 k.oepc.toNat)
    72 8 k.ostatus.toNat) 80 8 k.oesp.toNat
  let e := bodyPut (bodyPut e 88 160 (ofBytes frame)) 248 8 saved
  if code = exSealFail ∨ code = exResidueFail ∨ code = exEccUncorr then s.suspectLog c e else s.addLog (s.logCluster c e)

/-- Go on with, or start, the abort of the job of a parked cluster. -/
def State.abortParked (s : State) (c : ClusterId) : State :=
  match (s.cluster c).job with
  | none => s
  | some (j, _) =>
    if (s.job j).map (·.phase) = some .aborting then s.continueAbort j else s.failJob j

/-- The Kestrel parks: its job is aborted, and it is held in Talon when its own access or an S frame violated rights, else the
cluster takes a warm reset (R150, R306). -/
def State.park (s : State) (c : ClusterId) : State :=
  let k := s.kestrel c
  let code := (bitsAt k.ocause 0 8).toNat
  let orig := (bitsAt k.ocause 8 8).toNat
  let s1 := (s.owlLog c).modK c (fun k => { k with run := .parked })
  if code = exRights ∧ (s.frozen .harrier c.val = false ∧ s.frozen .hearth c.val = false)
      ∨ (code = exEscalated ∧ orig = exRights) then
    (s1.holdMaster .kestrel c.val (s1.clusterJob c) fcRights).causeOf c stTalonFrozen (talonDetail .kestrel c.val)
      |>.abortParked c
  else (s1.abortParked c).startReset ukCluster c.val

/-! ### Issuing an instruction -/

/-- Does the Kestrel sample an interrupt at this point (R111)? None while VPROG holds an index (R168). -/
def State.irqReady (s : State) (c : ClusterId) : Bool :=
  let k := s.kestrel c
  k.ie && (decide (k.level ≠ 2) && (decide (s.irqPend k &&& k.irqEn ≠ 0) && !(s.cluster c).h.vprogValid))

/-- Is a cluster's context being dropped (R57 step 2)? -/
def State.inDrop (s : State) (c : ClusterId) : Bool :=
  match (s.cluster c).stream with
  | some st => decide ((s.stream st).phase = .dropping)
  | none => false

/-- Is a cluster stopped to be saved (R47)? One at O runs on until it has parked, or has left O (R128, R151). -/
def State.taken (s : State) (c : ClusterId) : Bool := (s.cluster c).stopped && decide ((s.cluster c).k.level ≠ 2)

/-- May a Kestrel of a cluster run at all: the device is READY, the cluster live, powered, granted, out of reset and neither
held, stalled, stopped for a save, waiting for a restore nor, below O, being dropped? -/
def State.mayRun (s : State) (c : ClusterId) : Bool :=
  let x := s.cluster c
  s.ready && (s.isLive c && (x.powered && (x.job.isSome && (!s.frozen .kestrel c.val && (!s.taken c && (!x.restoring
    && (!s.card.stall && (!(s.unit ukCluster c.val).inReset && (!s.inDrop c || decide (x.k.level = 2))))))))))

/-- May a Kestrel issue an instruction now: it runs, and no report or interrupt is taken first (R111, R136, R137)? -/
def State.canIssue (s : State) (c : ClusterId) : Bool :=
  s.mayRun c && (decide ((s.kestrel c).run = .running)
    && ((decide ((s.kestrel c).level = 2) || (s.kestrel c).reports.isEmpty) && !s.irqReady c))

/-- Put a line first in the L1I's order; 4 ways of 256 sets, the least recently used of a set leaves (R114). -/
def Cluster.l1iPut (x : Cluster) (t : Target) : Cluster :=
  let rest := x.l1i.filter (fun u => decide (u ≠ t.line))
  let same := rest.filter (fun u => decide (u.set = t.set))
  let out := if same.length < 4 then rest else
    match same.getLast? with
    | some u => rest.filter (fun v => decide (v ≠ u))
    | none => rest
  { x with l1i := t.line :: out }

/-- Read the line of an instruction at a target (R114): the L1I, the cluster's L1D, or the L2 and the target. -/
def State.fetchLine (s : State) (c : ClusterId) (va : Word) (t : Target) (e : Option RangeEntry) (n : Nat) : Got × State :=
  let x := s.cluster c
  let cacheable := match e with
    | some r => r.cacheable && !x.k.det
    | none => false
  match t with
  | .store off => if x.storeFails off n then (.bad, s) else (.bytes [], s)
  | .peer d _ =>
    (match s.requestPort .kestrel c (BitVec.ofNat 12 d) with
      | none => .fenced ukFabric 0
      | some _ => .bytes []
    , match e with
      | some r => s.count (s.aspOf c) r va.toNat
      | none => s)
  | _ =>
    if cacheable && x.l1i.contains t.line then
      match s.readMarks c (fun m => decide (m.code.toNat = ecL1i) && decide (m.index % 256 = t.set.toNat)) with
      | (some _, s1) => (.badLine, s1)
      | (none, s1) => (.bytes [], s1.modCluster c (fun y => y.l1iPut t))
    else
      let leaves := match t with
        | .host f iova => !(cacheable && (s.l2Find (some f) (iova / 64)).isSome)
        | _ => !(cacheable && x.l1Holds t)
      let s1 := match e with
        | some r => if leaves then s.count (s.aspOf c) r va.toNat else s
        | none => s
      let keep (s : State) : State := if cacheable then s.modCluster c (fun y => y.l1iPut t) else s
      match if cacheable then x.l1Find t else none with
      | some l =>
        match s1.readMarks c l.mark with
        | (some _, s2) => (.badLine, s2)
        | (none, s2) => if l.poison then (.bad, s2) else (.bytes [], keep s2)
      | none =>
        match t with
        | .device pa =>
          match s1.fencedUnit pa with
          | some (k, u) => (.fenced k u, s1)
          | none => if s1.poisoned (pa / 64) then (.bad, s1) else (.bytes [], keep (s1.l2Read (pa / 64) cacheable))
        | .host f iova =>
          match s1.hostLoad f (iova / 64 * 64) 64 cacheable with
          | (.error _, s2) => (.hostError, s2)
          | (.ok _, s2) => (.bytes [], keep s2)
        | _ => (.bytes [], s1)

/-- The fetch of the instruction of `n` bytes at the PC, with the causes of R134 priorities 1-4. The first component is true
when the instruction may be decoded; otherwise the cause has been taken. -/
def State.fetch (s : State) (c : ClusterId) (n : Nat) : Bool × State :=
  let pc := (s.kestrel c).pc
  let v := pc.toNat
  let aligned (s : State) : Bool × State :=
    if v % n ≠ 0 then (false, s.raise c exMisalign pc pc) else (true, s)
  let taken (t : Target) (r : Got × State) : Bool × State :=
    match r.1 with
    | .bytes _ => aligned r.2
    | .bad => (false, (r.2.raise c exEccUncorr pc pc).logConsumed c t)
    | .badLine => (false, r.2.raise c exEccUncorr pc pc)
    | .hostError => (false, r.2.freezeCluster .kestrel c fcHostError)
    | .fenced k u => (false, r.2.fencedFor c k u)
    | .remote _ _ => aligned r.2
  if windowBase ≤ v then
    match (s.cluster c).windowFails (v - windowBase) n with
    | some w => (false, (s.logWindow c (v - windowBase + 4 * w)).raise c exEccUncorr pc pc)
    | none => aligned (s.readMarks c (fun m => m.correctable && (decide (m.code.toNat = ecWindow)
        && (decide (v - windowBase ≤ m.index + 3) && decide (m.index < v - windowBase + n))))).2
  else
    match s.access c .kestrel .mover .r pc n with
    | (.fault, s1) => (false, s1.xlateFault c 8 pc n)
    | (.violation, s1) => (false, s1.raise c exRights pc pc)
    | (.ecc, s1) => (false, s1.raise c exEccUncorr pc pc)
    | (.ok t e, s1) => taken t (s1.fetchLine c pc t e n)

/-- Read scalar registers for `f`: one with an uncorrectable error raises ECC_UNCORR at the instruction (R131, R344). -/
def State.withRegs (s : State) (c : ClusterId) (reads : List (BitVec 5)) (f : State → State) : State :=
  match s.readMarks c (readsRegs reads) with
  | (some _, s1) => s1.raise c exEccUncorr (s1.kestrel c).pc (s1.kestrel c).pc
  | (none, s1) => f s1

/-- Issue an instruction of `n` bytes that reads some scalar registers: where the Kestrel cannot issue now nothing happens; a cause of
the fetch is taken first; then `f` runs it. -/
def State.issue (s : State) (c : ClusterId) (n : Nat) (f : State → State) (reads : List (BitVec 5) := []) : State :=
  if s.canIssue c then
    match s.fetch c n with
    | (true, s1) => s1.withRegs c reads f
    | (false, s1) => s1
  else s

/-- Is an AMAX slot of a cluster used by an unfinished CONVERT (R218, R226)? -/
def State.slotBusy (s : State) (c : ClusterId) (n : Nat) : Bool :=
  match (s.cluster c).job with
  | some (j, i) => (s.jobStreams j).any (fun st => (s.stream st).descs.any (fun d =>
      d.isRunning && (decide (d.opcode = opConvert) && (decide (d.num 39 0 6 = i.toNat) && (decide (d.num 38 0 4 = n)
        && (flagAt d.bits 38 4 || decide (d.num 38 6 2 = 3)))))))
  | none => false

/-- Does an MFSR or MTSR of a register wait for a CONVERT? -/
def State.sysWaits (s : State) (c : ClusterId) (code : BitVec 12) : Bool :=
  decide (0x080 ≤ code.toNat ∧ code.toNat < 0x0A0) && s.slotBusy c (code.toNat % 16)

/-- Move the PC past an instruction. -/
def State.advance (s : State) (c : ClusterId) (n : Nat) : State :=
  s.modK c (fun k => { k with pc := k.pc + BitVec.ofNat 64 n })

/-- Write a scalar register and move past an instruction; an error the register held is gone (R344). -/
def State.writeReg (s : State) (c : ClusterId) (rd : BitVec 5) (v : Word) (n : Nat) : State :=
  (s.clearMarks c (readsRegs [rd])).modK c (fun k => { k.set rd v with pc := k.pc + BitVec.ofNat 64 n })

/-- Go on with a result `v` of the Kestrel's own datapath: a mismatch that its check `holds` catches raises RESIDUE_FAIL (R134 priority
16, R343), else `f` takes the value as it came out. -/
def State.checked (s : State) (c : ClusterId) (rows : List Nat) (v : Word) (holds : Nat → Nat → Bool) (f : Word → State → State) :
    State :=
  match s.strike c rows v.toNat holds with
  | (_, true, s1) => s1.raise c exResidueFail 0 (s1.kestrel c).pc
  | (t, false, s1) => f (BitVec.ofNat 64 t) s1

/-- Write a scalar register with a checked result. -/
def State.writeChecked (s : State) (c : ClusterId) (rows : List Nat) (rd : BitVec 5) (v : Word) (holds : Nat → Nat → Bool) : State :=
  s.checked c rows v holds (fun v s => s.writeReg c rd v 4)

end Sys2Proof.Machine
end

