-- ==== Sys2Proof/Machine/Operands.lean ====
section
/-! DEFINITION. Operand forms: the instruction words of R100 and R159 (which TVAL receives, R131), and scalar operands of a
Kestrel. -/
namespace Sys2Proof.Machine

/-! ### Scalar instruction words (R100, R101) -/

/-- RR and, with `imm` in place of `rb` and MINOR10, RI, ST and CB share the register fields. -/
def wordRR (op : Nat) (rd ra rb : BitVec 5) (minor10 : Nat) : Word :=
  BitVec.ofNat 64 (op + 2 ^ 7 * rd.toNat + 2 ^ 12 * ra.toNat + 2 ^ 17 * rb.toNat + 2 ^ 22 * minor10)
def wordRI (op : Nat) (rd ra : BitVec 5) (minor3 : Nat) (imm : BitVec 12) : Word :=
  BitVec.ofNat 64 (op + 2 ^ 7 * rd.toNat + 2 ^ 12 * ra.toNat + 2 ^ 17 * minor3 + 2 ^ 20 * imm.toNat)
def wordLJ (op : Nat) (imm : BitVec 25) : Word := BitVec.ofNat 64 (op + 2 ^ 7 * imm.toNat)
def wordSY (minor3 : Nat) (rd ra : BitVec 5) (code : BitVec 12) : Word :=
  BitVec.ofNat 64 (0x14 + 2 ^ 7 * rd.toNat + 2 ^ 12 * ra.toNat + 2 ^ 17 * code.toNat + 2 ^ 29 * minor3)

/-- A scalar register of a cluster's Kestrel. -/
def State.g (s : State) (c : ClusterId) (r : BitVec 5) : Word := (s.kestrel c).get r

/-- Raise a cause of the decode stage, whose TVAL is the instruction word and whose saved PC is the instruction (R130, R131). -/
def State.raiseWord (s : State) (c : ClusterId) (code : Nat) (word : Word) : State :=
  s.raise c code word (s.kestrel c).pc

/-- A byte, halfword or word of a load result, extended (R101). `how` is the MINOR3 of LOAD. -/
def loadExtend (how : Nat) (x : Nat) : Word :=
  match how with
  | 0 => (BitVec.ofNat 8 x).signExtend 64
  | 1 => (BitVec.ofNat 16 x).signExtend 64
  | 2 => (BitVec.ofNat 32 x).signExtend 64
  | 3 => BitVec.ofNat 64 x
  | 4 => (BitVec.ofNat 8 x).setWidth 64
  | 5 => (BitVec.ofNat 16 x).setWidth 64
  | _ => (BitVec.ofNat 32 x).setWidth 64

/-- Bytes of a LOAD by its MINOR3. -/
def loadSize (how : Nat) : Nat := if how % 4 = 3 then 8 else 2 ^ (how % 4)

/-! ### Harrier and Hearth instruction words (R159, R181) -/

/-- The 64-bit word of a Harrier or Hearth instruction. -/
def wordV (major func : Nat) (f : VFields) : Word :=
  BitVec.ofNat 64 (major + 2 ^ 7 * f.vd.toNat + 2 ^ 12 * f.va.toNat + 2 ^ 17 * f.vb.toNat + 2 ^ 22 * f.vc.toNat
    + 2 ^ 27 * f.pg.toNat + 2 ^ 30 * bit f.pen + 2 ^ 31 * bit f.pz + 2 ^ 32 * f.span.toNat + 2 ^ 34 * f.etype.toNat
    + 2 ^ 38 * f.etype2.toNat + 2 ^ 42 * func + 2 ^ 48 * f.gs.toNat + 2 ^ 53 * f.rm.toNat + 2 ^ 56 * f.imm8.toNat)

end Sys2Proof.Machine
end

