-- ==== Sys2Proof/Machine/Flags.lean ====
section
/-! DEFINITION. The sticky float flags of the Harrier and the Hearth, their traps and interrupts (R162, R176, R196), and the
reports that wait at the Kestrel (R137). -/
namespace Sys2Proof.Machine

/-- Hand a report to the Kestrel: one that arrives at O is discarded and logged (R137, R352 REPORT_DISCARDED). -/
def State.pushReport (s : State) (c : ClusterId) (r : Report) : State :=
  if (s.kestrel c).level = 2 then
    let cause := match r with
      | .xlate _ _ _ _ => exXlate
      | .failure x _ _ => x.toNat
      | .fpTrap _ => exFpTrap
    s.addLog (s.logCluster c (bodyPut (s.logEntry 8 0 c.val 1) 48 1 cause))
  else s.modK c (fun k => { k with reports := k.reports ++ [r] })

/-- Set VFLAGS from an instruction's flags, and report FP_TRAP where TRAP_EN holds an enable bit of one of them (R176). -/
def State.setVflags (s : State) (c : ClusterId) (pc : Word) (fl : FFlags) : State :=
  let s1 := s.modCluster c (fun x => { x with h := { x.h with vflags := x.h.vflags ||| fl.bits } })
  if bitsAt (s.cluster c).h.vctl 3 5 &&& fl.bits ≠ 0 then s1.pushReport c (.fpTrap pc) else s1

/-- Set HFLAGS; a set bit whose IRQ_EN bit is set makes the HEARTH line pending (R196, R110 line 5). -/
def State.setHflags (s : State) (c : ClusterId) (fl : BitVec 3) : State :=
  let irq := decide ((s.cluster c).m.hctl &&& fl ≠ 0)
  s.modCluster c (fun x => { x with
    m := { x.m with hflags := x.m.hflags ||| fl }
    k := { x.k with irqPend := if irq then x.k.irqPend ||| 0x20 else x.k.irqPend } })

end Sys2Proof.Machine
end

