-- ==== Sys2Proof/Machine/HarrierOps.lean ====
section
/-! DEFINITION. What the Harrier's instructions share: element types, spans, the active elements, the encoding checks and the
write of a destination (R154-R162). -/
namespace Sys2Proof.Machine

/-! ### Element types (R155) -/

/-- Bytes of an element. -/
def esize (t : Nat) : Nat :=
  match t with
  | 0 | 1 | 9 | 10 => 1
  | 2 | 7 | 8 => 2
  | 3 | 6 => 4
  | _ => 8

/-- Elements per register, and the largest span. -/
def epr (t : Nat) : Nat := 2048 / esize t
/-- Is a type value assigned? -/
def typeOk (t : Nat) : Bool := decide (t ≤ 10)
/-- Integer types, float types that compute, and the storage types. -/
def isInt (t : Nat) : Bool := decide (t ≤ 4)
def isFloat (t : Nat) : Bool := decide (5 ≤ t ∧ t ≤ 8)
def isStorage (t : Nat) : Bool := decide (t = 9 ∨ t = 10)
/-- Signed integer types. -/
def isSigned (t : Nat) : Bool := isInt t && decide (t ≠ 1)

/-- The float format of a type. -/
def fmtOf (t : Nat) : Fmt :=
  match t with
  | 5 => fmtF64
  | 6 => fmtF32
  | 7 => fmtF16
  | 8 => fmtW16
  | 9 => fmtK5
  | _ => fmtK4

/-- An integer element as an integer. -/
def intOf (t x : Nat) : Int :=
  let w := 8 * esize t
  if isSigned t && decide (2 ^ (w - 1) ≤ x) then (x : Int) - (2 ^ w : Nat) else x
/-- An integer as an element, modulo its width. -/
def ofInt (t : Nat) (x : Int) : Nat := (x % (2 ^ (8 * esize t) : Nat)).toNat
/-- The range of an integer type. -/
def intLo (t : Nat) : Int := if isSigned t then -(2 ^ (8 * esize t - 1) : Nat) else 0
def intHi (t : Nat) : Int := if isSigned t then (2 ^ (8 * esize t - 1) : Nat) - 1 else (2 ^ (8 * esize t) : Nat) - 1

/-! ### Spans and elements (R154, R156) -/

/-- The number of registers of a SPAN field. -/
def spanOf (f : VFields) : Nat := 2 ^ f.span.toNat
/-- The element positions of an instruction. -/
def positions (f : VFields) : Nat := spanOf f * epr f.etype.toNat

/-- Element `i` of `b` bytes of an operand from a register. -/
def Harrier.elem (h : Harrier) (reg b i : Nat) : Nat :=
  ((h.reg (reg + i * b / 2048)).extractLsb' (8 * (i * b % 2048)) (8 * b)).toNat
/-- The first `n` elements of an operand. -/
def Harrier.elems (h : Harrier) (reg b n : Nat) : List Nat := (List.range n).map (h.elem reg b)

/-- Write elements of `b` bytes over an operand from a register; the count is whole registers, or the last register keeps the
rest. `fuel` is the number of registers. -/
def Harrier.setElems : Nat → Harrier → Nat → Nat → List Nat → Harrier
  | 0, h, _, _, _ => h
  | fuel + 1, h, reg, b, l =>
    match l with
    | [] => h
    | _ :: _ =>
      let here := l.take (2048 / b)
      let v : BitVec 16384 := BitVec.ofNat 16384 (pack (8 * b) here)
      let mask : BitVec 16384 := BitVec.ofNat 16384 (2 ^ (8 * b * here.length) - 1)
      let h1 := h.setReg reg ((h.reg reg &&& ~~~ mask) ||| v)
      Harrier.setElems fuel h1 (reg + 1) b (l.drop (2048 / b))

/-- Registers that `n` elements of `b` bytes take, at least one. -/
def regsFor (n b : Nat) : Nat := max 1 (ceilDiv (n * b) 2048)

/-- Does a span run past v31? -/
def pastEnd (reg n : Nat) : Bool := decide (32 < reg + n)
/-- Does a destination overlap a source without starting at the same register (R156)? -/
def badOverlap (d nd x nx : Nat) : Bool := decide (d ≠ x) && (decide (d < x + nx) && decide (x < d + nd))

/-! ### Active elements (R157, R158) -/

/-- Is element `i` active? -/
def active (h : Harrier) (f : VFields) (i : Nat) : Bool :=
  decide (i < h.vl.toNat) && (!f.pen || (h.pred f.pg.toNat).getLsbD i)

/-- Merge new values into old ones over a destination: inactive and tail elements keep their value, or are zero with PZ. -/
def merge (h : Harrier) (f : VFields) (old new : List Nat) : List Nat :=
  (old.zip new).zipIdx.map (fun p => if active h f p.2 then p.1.2 else if f.pz then 0 else p.1.1)

/-- Write a destination of the instruction's type. -/
def writeVd (h : Harrier) (f : VFields) (new : List Nat) : Harrier :=
  let b := esize f.etype.toNat
  let n := positions f
  Harrier.setElems (spanOf f) h f.vd.toNat b (merge h f (h.elems f.vd.toNat b n) new)

/-- The flags of the active elements together. -/
def flagsOf (h : Harrier) (f : VFields) (fl : List FFlags) : FFlags :=
  fl.zipIdx.foldl (fun acc p => if active h f p.2 then acc.or p.1 else acc) FFlags.none

/-- The rounding mode of an instruction (R159, R162, R205). -/
def rmOf (h : Harrier) (f : VFields) : Rm :=
  let code := if f.rm = 0 then (bitsAt h.vctl 0 2).toNat else f.rm.toNat - 1
  match code with
  | 0 => .rne
  | 1 => .rtz
  | 2 => .rdn
  | _ => .rup

/-- VCTL.FTZ. -/
def ftzOf (h : Harrier) : Bool := h.vctl.getLsbD 2

/-! ### Encoding checks (R156, R161) -/

/-- The fields an instruction uses; any other must be zero. `imm` has a bit set where IMM8 is used. PG is used with PEN = 1. -/
structure VUse where
  vd : Bool
  va : Bool
  vb : Bool
  vc : Bool
  pen : Bool
  pz : Bool
  span : Bool
  etype : Bool
  etype2 : Bool
  gs : Bool
  rm : Bool
  imm : Byte
  deriving DecidableEq, Repr

/-- Is a field that the instruction leaves unused nonzero, or a type or RM value reserved? -/
def fieldsBad (u : VUse) (f : VFields) : Bool :=
  (!u.vd && decide (f.vd ≠ 0)) || (!u.va && decide (f.va ≠ 0)) || (!u.vb && decide (f.vb ≠ 0))
    || (!u.vc && decide (f.vc ≠ 0)) || (!u.pen && f.pen) || (!f.pen && decide (f.pg ≠ 0)) || (!u.pz && f.pz)
    || (!u.span && decide (f.span ≠ 0)) || (!u.etype && decide (f.etype ≠ 0))
    || (!u.etype2 && decide (f.etype2 ≠ 0)) || (!u.gs && decide (f.gs ≠ 0)) || (!u.rm && decide (f.rm ≠ 0))
    || decide (f.imm8 &&& ~~~ u.imm ≠ 0) || decide (4 < f.rm.toNat)
    || !typeOk f.etype.toNat || !typeOk f.etype2.toNat

/-- Is the SPAN larger than the type's largest span, which is its element size (R155, R156)? -/
def spanBad (f : VFields) : Bool := decide (esize f.etype.toNat < spanOf f)

/-- Is a destination span bad against source spans, or any of them past v31? -/
def regsBad (d nd : Nat) (srcs : List (Nat × Nat)) : Bool :=
  pastEnd d nd || srcs.any (fun x => pastEnd x.1 x.2 || badOverlap d nd x.1 x.2)

/-! ### What an instruction reads and writes, for SECDED and the Sieve (R342-R344) -/

/-- Is IMM8[0] the broadcast of g(GS) in place of VB? -/
def vBroadcast (major : Nat) (f : VFields) : Bool := decide (0x70 ≤ major ∧ major ≤ 0x72) && f.imm8.getLsbD 0

/-- The vector registers an instruction reads, as spans. -/
def vSources (major func : Nat) (f : VFields) : List (Nat × Nat) :=
  let n := spanOf f
  let va := [(f.va.toNat, n)]
  let vb := if vBroadcast major f then [] else [(f.vb.toNat, n)]
  match major with
  | 0x70 => if func = 12 ∨ func = 13 ∨ func = 16 then va else va ++ vb
  | 0x71 => va ++ (vb ++ [(if func = 3 then f.vc.toNat else f.vd.toNat, n)])
  | 0x72 => va ++ vb
  | 0x73 => if func = 2 then va ++ vb else if func = 4 ∨ func = 6 then [] else va
  | 0x74 => [(f.va.toNat, regsFor (n * epr (if esize f.etype2.toNat < esize f.etype.toNat then f.etype.toNat else f.etype2.toNat))
      (esize f.etype2.toNat))]
  | 0x75 => va ++ [(f.vb.toNat, 1)]
  | 0x76 =>
    (if func = 4 ∨ func = 5 then [(f.vb.toNat, regsFor (positions f) (if f.imm8.getLsbD 0 then 8 else 4))] else [])
      ++ (if func % 2 = 1 then [(f.vd.toNat, if func = 7 then ((bitsAt f.imm8 0 3).toNat + 1) * n else n)] else [])
  | 0x78 => va ++ [(f.vb.toNat, n)]
  | 0x7A => if func = 1 then va else []
  | _ => []

/-- The vector registers an instruction writes, as a span. -/
def vTargets (major func : Nat) (f : VFields) : List (Nat × Nat) :=
  let n := spanOf f
  match major with
  | 0x70 => [(f.vd.toNat, n)]
  | 0x71 => [(f.vd.toNat, n)]
  | 0x73 => if func = 5 then [] else [(f.vd.toNat, n)]
  | 0x74 => [(f.vd.toNat, regsFor (n * epr (if esize f.etype2.toNat < esize f.etype.toNat then f.etype.toNat else f.etype2.toNat))
      (esize f.etype.toNat))]
  | 0x75 => [(f.vd.toNat, n)]
  | 0x76 => if func % 2 = 1 then [] else [(f.vd.toNat, if func = 6 then ((bitsAt f.imm8 0 3).toNat + 1) * n else n)]
  | 0x7A => if func = 0 then [(f.va.toNat, n)] else []
  | _ => []

/-- The scalar registers an instruction reads. -/
def vScalars (major func : Nat) (f : VFields) : List (BitVec 5) :=
  match major with
  | 0x73 => if func = 4 ∨ func = 6 then [f.gs] else []
  | 0x74 => if f.imm8.getLsbD 5 then [f.gs] else []
  | 0x76 => if func = 2 ∨ func = 3 then [f.gs, f.vc] else [f.gs]
  | 0x77 => if func = 0 then [f.va] else []
  | 0x78 => if f.imm8.getLsbD 5 then [f.gs] else []
  | 0x79 => if func = 2 then [f.gs] else []
  | _ => if vBroadcast major f then [f.gs] else []

/-- The scalar register an instruction writes: of MVG, VSETVL and VPCNT. -/
def vScalarTarget (major func : Nat) (f : VFields) : List (BitVec 5) :=
  if major = 0x73 ∧ func = 5 then [f.gs]
  else if major = 0x77 then (if func = 0 then [f.vd] else if func = 4 then [f.gs] else [])
  else []

/-- A mark in one of some vector registers (R353: the register stands in bits [4:0]). -/
def EccMark.inSpans (m : EccMark) (l : List (Nat × Nat)) : Bool :=
  decide (m.code.toNat = ecVregs) && l.any (fun x => decide (x.1 ≤ m.index % 32 ∧ m.index % 32 < x.1 + x.2))

/-- A mark in some rows of 8 of a tile (R353: the tile in [2:0], the cell from bit 16). -/
def EccMark.inTile (m : EccMark) (td lo n : Nat) : Bool :=
  decide (m.code.toNat = ecTiles) && (decide (m.index % 8 = td)
    && decide (512 * lo ≤ m.index / 65536 ∧ m.index / 65536 < 512 * (lo + n)))

/-- Does an instruction read the place of a mark? The queue entry it came through is one. DESIGN CHOICE (log entry 126). -/
def vReads (x : Hearth) (major func : Nat) (f : VFields) (m : EccMark) : Bool :=
  let pred (n : Nat) := m.at ecPreds n
  let td := (bitsAt f.vd 0 3).toNat
  let opened := x.isOpen && (decide (m.code.toNat = ecPartials) || m.inTile x.openTile.toNat 0 8)
  decide (m.code.toNat = ecQueue) || m.inSpans (vSources major func f) || (f.pen && pred f.pg.toNat)
    || (match major with
      | 0x74 => f.imm8.getLsbD 4 && pred (8 + (bitsAt f.imm8 0 4).toNat)
      | 0x77 => decide (func ≠ 0) && (pred f.va.toNat || (decide (func < 3) && pred f.vb.toNat))
      | 0x78 => opened || (decide (f.etype = 6) && m.inTile td 0 8)
      | 0x79 => decide (func = 1) && opened
      | 0x7A => decide (func = 0) && m.inTile td (bitsAt f.imm8 0 3).toNat (spanOf f)
      | _ => false)

/-- Does an instruction write the place of a mark whole, and does it write it at all (R344)? -/
def vReplaces (h : Harrier) (major func : Nat) (f : VFields) (m : EccMark) : Bool :=
  let td := (bitsAt f.vd 0 3).toNat
  let whole := decide (major = 0x7A) || (f.pz || (!f.pen && decide (positions f ≤ h.vl.toNat)) && decide (major ≠ 0x75))
  (whole && m.inSpans (vTargets major func f)) || readsRegs (vScalarTarget major func f) m
    || (match major with
      | 0x72 => m.at ecPreds td
      | 0x77 => decide (1 ≤ func ∧ func ≤ 3) && m.at ecPreds td
      | 0x79 => decide (func = 0) && m.inTile td 0 8
      | 0x7A => decide (func = 1) && m.inTile td (bitsAt f.imm8 0 3).toNat (spanOf f)
      | _ => false)

/-- The datapaths of an instruction, by their rows of R342. -/
def vRows (major func t : Nat) : List Nat :=
  let float := [rwVFloat, rwVExp, rwVNorm, rwVRound]
  match major with
  | 0x70 =>
    if 15 ≤ func then [rwVDiv, rwVRound]
    else if 6 ≤ func ∧ func ≤ 11 then [rwVLogic]
    else if isInt t then (if func = 2 ∨ func = 3 then [rwVMul] else [rwVInt])
    else float
  | 0x71 => if isInt t then [rwVInt, rwVMul] else float
  | 0x72 => if isInt t then [rwVInt] else [rwVFloat, rwVExp]
  | 0x73 => [rwVLogic]
  | 0x74 => [rwVRound, rwVNorm, rwVFloat]
  | 0x75 => if isInt t then [rwVInt] else float
  | 0x76 => if func = 4 ∨ func = 5 then [rwVLogic] else []
  | 0x77 => if func = 0 then [] else [rwVLogic]
  | 0x78 => [rwHearth, rwHRound, rwLfsr]
  | 0x79 => if func = 1 then [rwHearth] else []
  | _ => []

/-- A result word that a struck datapath gives: its width, and how a cluster holds the one of a lane. -/
structure VResult where
  bits : Nat
  get : Cluster → Nat
  put : Nat → Cluster → Cluster

/-- The result of a lane: an element of VD, a bit of a predicate, a cell of a tile, a partial or an LFSR; none for a store. -/
def vResult (major func : Nat) (f : VFields) (x : Cluster) (u : Upset) : Option VResult :=
  let b := esize f.etype.toNat
  let i := u.lane % positions f
  let reg := f.vd.toNat + i * b / 2048
  let element : VResult :=
    { bits := 8 * b
      get := fun x => x.h.elem f.vd.toNat b i
      put := fun v x => { x with h := x.h.setReg reg (putBits (x.h.reg reg) (8 * (i * b % 2048)) (BitVec.ofNat (8 * b) v)) } }
  let pred : VResult :=
    { bits := 1
      get := fun x => bit ((x.h.pred (f.vd.toNat % 8)).getLsbD (u.lane % 2048))
      put := fun v x =>
        let p := putBits (x.h.pred (f.vd.toNat % 8)) (u.lane % 2048) (BitVec.ofNat 1 v)
        { x with h := x.h.setPred (f.vd.toNat % 8) p } }
  let cell (td : Nat) : VResult :=
    { bits := 32
      get := fun x => (bitsAt (x.m.tile td) (32 * (u.lane % 4096)) 32).toNat
      put := fun v x => { x with m := x.m.setTile td (putBits (x.m.tile td) (32 * (u.lane % 4096)) (BitVec.ofNat 32 v)) } }
  let slot : VResult :=
    { bits := 20
      get := fun x => (bitsAt x.m.partials (20 * (u.lane % 4096)) 20).toNat
      put := fun v x => { x with m := { x.m with partials := putBits x.m.partials (20 * (u.lane % 4096)) (BitVec.ofNat 20 v) } } }
  let lfsr : VResult :=
    { bits := 16
      get := fun x => (bitsAt x.m.lfsr (16 * (u.lane % 4096)) 16).toNat
      put := fun v x => { x with m := { x.m with lfsr := putBits x.m.lfsr (16 * (u.lane % 4096)) (BitVec.ofNat 16 v) } } }
  match major with
  | 0x72 => some pred
  | 0x73 => if func = 5 then none else some element
  | 0x76 => if func % 2 = 1 then none else some element
  | 0x77 => if func = 4 then none else some pred
  | 0x78 => some (if u.row = rwLfsr then lfsr else if f.etype = 6 then cell (f.vd.toNat % 8) else slot)
  | 0x79 => some (cell x.m.openTile.toNat)
  | _ => some element

/-- A failure that a unit reports (R136 item 2). -/
def State.vfails (s : State) (c : ClusterId) (pc : Word) (cause : Nat) : State :=
  s.pushReport c (.failure (BitVec.ofNat 8 cause) pc (if cause = exEccUncorr then pc else 0))

/-- Run an instruction on a cluster whose structures hold errors, or whose datapaths a fault strikes: an uncorrectable error among what
it reads, or a residue mismatch, makes it fail with nothing written (R176, R196, R344). DESIGN CHOICE (log entry 126). -/
def State.vguard (s : State) (c : ClusterId) (major func : Nat) (f : VFields) (pc : Word) (run : State → State) : State :=
  match s.readMarks c (vReads (s.cluster c).m major func f) with
  | (some _, s1) => s1.vfails c pc exEccUncorr
  | (none, s1) =>
    let s2 := (run s1).clearMarks c (vReplaces (s1.cluster c).h major func f)
    let s3 := (s2.readMarks c (fun m => m.inSpans (vTargets major func f))).2
    match s1.upset c (vRows major func f.etype.toNat) with
    | none => s3
    | some u =>
      match vResult major func f (s1.cluster c) u with
      | none => s3
      | some w =>
        let v := w.get (s3.cluster c)
        let holds := fun row t => rowHolds row v (t % 2 ^ w.bits)
        match s3.strike c (vRows major func f.etype.toNat) v holds with
        | (_, true, _) => (s1.strike c (vRows major func f.etype.toNat) v holds).2.2.vfails c pc exResidueFail
        | (t, false, s4) => s4.modCluster c (w.put t)

/-- Issue a Harrier instruction (R161, R165, R168): bad encodings raise RSVD_ENC; `run` gets the PC of the instruction, VPROG is
cleared as it starts, and the PC moves on. The unit completes it at once. DESIGN CHOICE (log entry 25). -/
def State.vissue (s : State) (c : ClusterId) (major func : Nat) (f : VFields) (bad : Bool)
    (run : Word → State → State) : State :=
  s.issue c 8 (fun s =>
    if bad then s.raiseWord c exRsvdEnc (wordV major func f)
    else
      let pc := (s.kestrel c).pc
      let s1 := (s.modCluster c (fun x => { x with h := { x.h with vprogValid := false } })).advance c 8
      if (s1.cluster c).sound then run pc s1 else s1.vguard c major func f pc (run pc)) (vScalars major func f)

/-- Change the Harrier of a cluster and set the flags of an instruction; the counter of free values moves on. -/
def State.finishV (s : State) (c : ClusterId) (pc : Word) (h : Harrier) (fl : FFlags) : State :=
  ((s.fresh.2).modCluster c (fun x => { x with h := h })).setVflags c pc fl

end Sys2Proof.Machine
end

