-- ==== Sys2Proof/Machine/HarrierArith.lean ====
section
/-! DEFINITION. The Harrier's arithmetic, multiply-add, compare, permute, conversion, reduction and control instructions
(R157, R158, R160, R161, R170-R173, R203-R219). -/
namespace Sys2Proof.Machine

/-! ### VARITH (R160, R204-R208) -/

/-- The fields of a two-operand VARITH or VCMP: with IMM8[0] = 1, VB is replaced by g(GS). -/
def arithUse (f : VFields) (unary rounds : Bool) : VUse :=
  let bc := f.imm8.getLsbD 0
  { vd := true, va := true, vb := !unary && !bc, vc := false, pen := true, pz := true, span := true, etype := true
    etype2 := false, gs := !unary && bc, rm := rounds && isFloat f.etype.toNat, imm := if unary then 0 else 1 }

/-- The VB operand, or g(GS) broadcast. -/
def operandB (h : Harrier) (f : VFields) (g : Word) : List Nat :=
  let b := esize f.etype.toNat
  let n := positions f
  if f.imm8.getLsbD 0 then List.replicate n (g.toNat % 2 ^ (8 * b)) else h.elems f.vb.toNat b n

/-- A result with the flags it raises. -/
abbrev ElemOp := Nat → Nat → Nat × FFlags

/-- Issue a VARITH instruction of a FUNC with its element operation and the types it allows. -/
def State.varith (s : State) (c : ClusterId) (func : Nat) (f : VFields) (unary rounds : Bool) (typeFits : Nat → Bool)
    (op : Harrier → ElemOp) : State :=
  let t := f.etype.toNat
  let srcs := if unary || f.imm8.getLsbD 0 then [(f.va.toNat, spanOf f)] else [(f.va.toNat, spanOf f), (f.vb.toNat, spanOf f)]
  let bad := fieldsBad (arithUse f unary rounds) f || !typeFits t || spanBad f || regsBad f.vd.toNat (spanOf f) srcs
  s.vissue c 0x70 func f bad (fun pc s =>
    let h := (s.cluster c).h
    let a := h.elems f.va.toNat (esize t) (positions f)
    let r := (a.zip (operandB h f (s.g c f.gs))).map (fun p => op h p.1 p.2)
    s.finishV c pc (writeVd h f (r.map (·.1))) (flagsOf h f (r.map (·.2))))

/-- An integer operation, modulo the width, with no flag (R204). -/
def intOp (t : Nat) (f : Int → Int → Int) : ElemOp := fun x y => (ofInt t (f (intOf t x) (intOf t y)), FFlags.none)

/-- Types of arithmetic: integer or computing float. -/
def arithType (t : Nat) : Bool := isInt t || isFloat t

def execVadd (c : ClusterId) (f : VFields) (s : State) : Result :=
  .next (s.varith c 0 f false true arithType (fun h => let t := f.etype.toNat
    if isInt t then intOp t (· + ·) else addF (fmtOf t) (rmOf h f) (ftzOf h)))
/-- A float subtraction adds the negated operand. -/
def subF (fm : Fmt) (rm : Rm) (ftz : Bool) : ElemOp := fun x y => addF fm rm ftz x (negF fm y)
def execVsub (c : ClusterId) (f : VFields) (s : State) : Result :=
  .next (s.varith c 1 f false true arithType (fun h => let t := f.etype.toNat
    if isInt t then intOp t (· - ·) else subF (fmtOf t) (rmOf h f) (ftzOf h)))
def execVmul (c : ClusterId) (f : VFields) (s : State) : Result :=
  .next (s.varith c 2 f false true arithType (fun h => let t := f.etype.toNat
    if isInt t then intOp t (· * ·) else mulF (fmtOf t) (rmOf h f) (ftzOf h)))
def execVmulh (c : ClusterId) (f : VFields) (s : State) : Result :=
  .next (s.varith c 3 f false false isInt (fun _ => let t := f.etype.toNat
    intOp t (fun a b => (a * b) / (2 ^ (8 * esize t) : Nat))))
def execVmin (c : ClusterId) (f : VFields) (s : State) : Result :=
  .next (s.varith c 4 f false false arithType (fun h => let t := f.etype.toNat
    if isInt t then intOp t min else minMaxF (fmtOf t) (ftzOf h) false))
def execVmax (c : ClusterId) (f : VFields) (s : State) : Result :=
  .next (s.varith c 5 f false false arithType (fun h => let t := f.etype.toNat
    if isInt t then intOp t max else minMaxF (fmtOf t) (ftzOf h) true))
/-- Bitwise operations on elements. -/
def bitOp (f : Nat → Nat → Nat) : ElemOp := fun x y => (f x y, FFlags.none)
def execVand (c : ClusterId) (f : VFields) (s : State) : Result :=
  .next (s.varith c 6 f false false isInt (fun _ => bitOp (· &&& ·)))
def execVor (c : ClusterId) (f : VFields) (s : State) : Result :=
  .next (s.varith c 7 f false false isInt (fun _ => bitOp (· ||| ·)))
def execVxor (c : ClusterId) (f : VFields) (s : State) : Result :=
  .next (s.varith c 8 f false false isInt (fun _ => bitOp (· ^^^ ·)))
def execVsll (c : ClusterId) (f : VFields) (s : State) : Result :=
  .next (s.varith c 9 f false false isInt (fun _ => let w := 8 * esize f.etype.toNat
    bitOp (fun x y => x * 2 ^ (y % w) % 2 ^ w)))
def execVsrl (c : ClusterId) (f : VFields) (s : State) : Result :=
  .next (s.varith c 10 f false false isInt (fun _ => let w := 8 * esize f.etype.toNat
    bitOp (fun x y => x / 2 ^ (y % w))))
/-- SRA fills with copies of the top bit, for .u8 as well. -/
def sraElem (w x n : Nat) : Nat :=
  let top := decide (2 ^ (w - 1) ≤ x)
  x / 2 ^ n + (if top then 2 ^ w - 2 ^ (w - n) else 0)
def execVsra (c : ClusterId) (f : VFields) (s : State) : Result :=
  .next (s.varith c 11 f false false isInt (fun _ => let w := 8 * esize f.etype.toNat
    bitOp (fun x y => sraElem w x (y % w))))
/-- ABS and NEG of a float: the sign changes, NaNs are canonical, FTZ flushes the operand (R203, R206, R207). -/
def signF (fm : Fmt) (ftz abs : Bool) (x : Nat) : Nat × FFlags :=
  let v := ftzIn fm ftz (decodeF fm x)
  let w := if abs && !v.isNeg then v else v.neg
  ((roundV fm .rne false w).1, FFlags.invalid v.snan)
def execVabs (c : ClusterId) (f : VFields) (s : State) : Result :=
  .next (s.varith c 12 f true false arithType (fun h => let t := f.etype.toNat
    if isInt t then intOp t (fun a _ => (a.natAbs : Int)) else fun x _ => signF (fmtOf t) (ftzOf h) true x))
def execVneg (c : ClusterId) (f : VFields) (s : State) : Result :=
  .next (s.varith c 13 f true false arithType (fun h => let t := f.etype.toNat
    if isInt t then intOp t (fun a _ => -a) else fun x _ => signF (fmtOf t) (ftzOf h) false x))

/-- ABSD: the absolute difference. Where it lies outside the type's range the spec states no result: a free value (log entry
26). `k` numbers the free values, one per pair of operands. -/
def absdElem (t k : Nat) : ElemOp := fun x y =>
  let d : Int := ((intOf t x - intOf t y).natAbs : Int)
  if d ≤ intHi t then (ofInt t d, FFlags.none)
  else ((Config.freeWord (k + 2 ^ 64 * (x + 2 ^ 64 * y))).toNat % 2 ^ (8 * esize t), FFlags.none)
def execVabsd (c : ClusterId) (f : VFields) (s : State) : Result :=
  .next (s.varith c 14 f false false isInt (fun _ => absdElem f.etype.toNat s.free))
def execVdiv (c : ClusterId) (f : VFields) (s : State) : Result :=
  .next (s.varith c 15 f false true isFloat (fun h => divF (fmtOf f.etype.toNat) (rmOf h f) (ftzOf h)))
def execVsqrt (c : ClusterId) (f : VFields) (s : State) : Result :=
  .next (s.varith c 16 f true true isFloat (fun h x _ => sqrtF (fmtOf f.etype.toNat) (rmOf h f) (ftzOf h) x))

/-! ### VFMA (R160, R173) -/

/-- One multiply-add: `±a × b ± z`. -/
def fmaElem (h : Harrier) (f : VFields) (negP negC : Bool) (x y z : Nat) : Nat × FFlags :=
  let t := f.etype.toNat
  if isInt t then
    let p := intOf t x * intOf t y
    (ofInt t ((if negP then -p else p) + (if negC then -intOf t z else intOf t z)), FFlags.none)
  else fmaF (fmtOf t) (rmOf h f) (ftzOf h) negP negC x y z

/-- Issue a multiply-add of a FUNC; the addend is VD, or VC for VFMAC. -/
def State.vfmaOp (s : State) (c : ClusterId) (func : Nat) (f : VFields) (negP negC useVc : Bool) : State :=
  let t := f.etype.toNat
  let n := spanOf f
  let bc := f.imm8.getLsbD 0
  let srcs := [(f.va.toNat, n)] ++ (if bc then [] else [(f.vb.toNat, n)]) ++ (if useVc then [(f.vc.toNat, n)] else [])
  let use := { arithUse f false true with vc := useVc }
  let bad := fieldsBad use f || !arithType t || spanBad f || regsBad f.vd.toNat n srcs
  s.vissue c 0x71 func f bad (fun pc s =>
    let h := (s.cluster c).h
    let a := h.elems f.va.toNat (esize t) (positions f)
    let z := h.elems (if useVc then f.vc.toNat else f.vd.toNat) (esize t) (positions f)
    let r := ((a.zip (operandB h f (s.g c f.gs))).zip z).map (fun p => fmaElem h f negP negC p.1.1 p.1.2 p.2)
    s.finishV c pc (writeVd h f (r.map (·.1))) (flagsOf h f (r.map (·.2))))

def execVfma (c : ClusterId) (f : VFields) (s : State) : Result := .next (s.vfmaOp c 0 f false false false)
def execVfms (c : ClusterId) (f : VFields) (s : State) : Result := .next (s.vfmaOp c 1 f false true false)
def execVfnma (c : ClusterId) (f : VFields) (s : State) : Result := .next (s.vfmaOp c 2 f true false false)
def execVfmac (c : ClusterId) (f : VFields) (s : State) : Result := .next (s.vfmaOp c 3 f false false true)

/-- VOPA.f64 (R173): `4s` rows of 64 columns; VA and VB are read with span 1. -/
def execVopa (c : ClusterId) (f : VFields) (s : State) : Result :=
  let n := spanOf f
  let srcs := [(f.va.toNat, 1)] ++ (if f.imm8.getLsbD 0 then [] else [(f.vb.toNat, 1)])
  let bad := fieldsBad (arithUse f false true) f || decide (f.etype ≠ 5) || regsBad f.vd.toNat n srcs
  .next (s.vissue c 0x71 4 f bad (fun pc s =>
    let h := (s.cluster c).h
    let a := h.elems f.va.toNat 8 (4 * n)
    let b := if f.imm8.getLsbD 0 then List.replicate 64 (s.g c f.gs).toNat else h.elems f.vb.toNat 8 64
    let z := h.elems f.vd.toNat 8 (256 * n)
    let r := z.zipIdx.map (fun p =>
      fmaF fmtF64 (rmOf h f) (ftzOf h) false false (nthD a (p.2 / 64) 0) (nthD b (p.2 % 64) 0) p.1)
    s.finishV c pc (writeVd h f (r.map (·.1))) (flagsOf h f (r.map (·.2)))))

/-! ### VCMP (R158, R160, R209) -/

/-- An integer compare of a FUNC: 0 EQ, 1 NE, 2 LT, 3 LE, 4 GT, 5 GE. -/
def cmpInt (op : Nat) (a b : Int) : Bool :=
  match op with
  | 0 => decide (a = b)
  | 1 => decide (a ≠ b)
  | 2 => decide (a < b)
  | 3 => decide (a ≤ b)
  | 4 => decide (b < a)
  | _ => decide (b ≤ a)

/-- Bits as a predicate. -/
def predOf (l : List Bool) : BitVec 2048 := BitVec.ofNat 2048 (pack 1 (l.map bit))

/-- Issue a compare: bit `i` for each active element, every other bit cleared. -/
def State.vcmp (s : State) (c : ClusterId) (op : Nat) (f : VFields) : State :=
  let t := f.etype.toNat
  let n := spanOf f
  let bc := f.imm8.getLsbD 0
  let use := { arithUse f false false with pz := false }
  let bad := fieldsBad use f || decide (bitsAt f.vd 3 2 ≠ 0) || !arithType t || spanBad f || pastEnd f.va.toNat n
    || (!bc && pastEnd f.vb.toNat n)
  s.vissue c 0x72 op f bad (fun pc s =>
    let h := (s.cluster c).h
    let a := h.elems f.va.toNat (esize t) (positions f)
    let r := (a.zip (operandB h f (s.g c f.gs))).map (fun p =>
      if isInt t then (cmpInt op (intOf t p.1) (intOf t p.2), FFlags.none) else cmpF (fmtOf t) (ftzOf h) op p.1 p.2)
    let p := predOf (r.zipIdx.map (fun x => x.1.1 && active h f x.2))
    s.finishV c pc (h.setPred (bitsAt f.vd 0 3).toNat p) (flagsOf h f (r.map (·.2))))

def execVcmpEq (c : ClusterId) (f : VFields) (s : State) : Result := .next (s.vcmp c 0 f)
def execVcmpNe (c : ClusterId) (f : VFields) (s : State) : Result := .next (s.vcmp c 1 f)
def execVcmpLt (c : ClusterId) (f : VFields) (s : State) : Result := .next (s.vcmp c 2 f)
def execVcmpLe (c : ClusterId) (f : VFields) (s : State) : Result := .next (s.vcmp c 3 f)
def execVcmpGt (c : ClusterId) (f : VFields) (s : State) : Result := .next (s.vcmp c 4 f)
def execVcmpGe (c : ClusterId) (f : VFields) (s : State) : Result := .next (s.vcmp c 5 f)

/-! ### VPERM (R160) -/

/-- The fields of a permute. -/
def permUse (vd va vb pred gs : Bool) (imm : Byte) : VUse :=
  { vd := vd, va := va, vb := vb, vc := false, pen := pred, pz := pred, span := pred, etype := true, etype2 := false
    gs := gs, rm := false, imm := imm }

/-- Issue a permute whose result element `i` is `g i`, over `src` registers. -/
def State.vperm (s : State) (c : ClusterId) (func : Nat) (f : VFields) (use : VUse) (srcs : List (Nat × Nat))
    (g : Harrier → Word → Nat → List Nat) : State :=
  let bad := fieldsBad use f || spanBad f || regsBad f.vd.toNat (spanOf f) srcs
  s.vissue c 0x73 func f bad (fun pc s =>
    let h := (s.cluster c).h
    s.finishV c pc (writeVd h f (g h (s.g c f.gs) s.free)) FFlags.none)

/-- The element at a place of an operand; a place outside it has no stated value: a free value (log entry 26). -/
def placeOf (t k : Nat) (a : List Nat) (i : Int) : Nat :=
  if i < 0 then (Config.freeWord k).toNat % 2 ^ (8 * esize t)
  else nthD a i.toNat ((Config.freeWord k).toNat % 2 ^ (8 * esize t))

/-- A slide by a signed amount. -/
def slide (f : VFields) (by_ : Int) (h : Harrier) (_ : Word) (k : Nat) : List Nat :=
  let t := f.etype.toNat
  let a := h.elems f.va.toNat (esize t) (positions f)
  (List.range (positions f)).map (fun (i : Nat) => placeOf t (k + 2 ^ 64 * i) a (i - by_))

def execSlideup (c : ClusterId) (f : VFields) (s : State) : Result :=
  .next (s.vperm c 0 f (permUse true true false true false 0xFF) [(f.va.toNat, spanOf f)] (slide f f.imm8.toNat))
def execSlidedn (c : ClusterId) (f : VFields) (s : State) : Result :=
  .next (s.vperm c 1 f (permUse true true false true false 0xFF) [(f.va.toNat, spanOf f)] (slide f (-(f.imm8.toNat : Int))))

/-- VGATHER: vb[i] is an integer of the element's width, signed for the .i types. DEDUCED (log entry 27). -/
def gather (f : VFields) (h : Harrier) (_ : Word) (k : Nat) : List Nat :=
  let t := f.etype.toNat
  let a := h.elems f.va.toNat (esize t) (positions f)
  let b := h.elems f.vb.toNat (esize t) (positions f)
  b.zipIdx.map (fun p => placeOf t (k + 2 ^ 64 * p.2) a (if isInt t then intOf t p.1 else p.1))
def execVgather (c : ClusterId) (f : VFields) (s : State) : Result :=
  .next (s.vperm c 2 f (permUse true true true true false 0) [(f.va.toNat, spanOf f), (f.vb.toNat, spanOf f)] (gather f))

/-- COMPRESS packs the active elements of VA into the lowest elements of VD; the elements above them follow PZ. DEDUCED (log
entry 27). -/
def execCompress (c : ClusterId) (f : VFields) (s : State) : Result :=
  let t := f.etype.toNat
  let bad := fieldsBad (permUse true true false true false 0) f || spanBad f
    || regsBad f.vd.toNat (spanOf f) [(f.va.toNat, spanOf f)]
  .next (s.vissue c 0x73 3 f bad (fun pc s =>
    let h := (s.cluster c).h
    let kept := (h.elems f.va.toNat (esize t) (positions f)).zipIdx.filterMap (fun p =>
      if active h f p.2 then some p.1 else none)
    let old := h.elems f.vd.toNat (esize t) (positions f)
    let rest := if f.pz then List.replicate (positions f - kept.length) 0 else old.drop kept.length
    s.finishV c pc (Harrier.setElems (spanOf f) h f.vd.toNat (esize t) (kept ++ rest)) FFlags.none))

def execBcast (c : ClusterId) (f : VFields) (s : State) : Result :=
  .next (s.vperm c 4 f (permUse true false false true true 0) [] (fun _ g _ => List.replicate (positions f) g.toNat))

/-- MVG: element IMM8 of VA, sign-extended for the .i types and zero-extended otherwise. DEDUCED (log entry 27). -/
def execMvg (c : ClusterId) (f : VFields) (s : State) : Result :=
  let t := f.etype.toNat
  let use := { permUse false true false false true 0xFF with pz := false }
  .next (s.vissue c 0x73 5 f (fieldsBad use f) (fun pc s =>
    let h := (s.cluster c).h
    let x := nthD (h.elems f.va.toNat (esize t) (epr t)) f.imm8.toNat 0
    let v : Word := if isSigned t then BitVec.ofInt 64 (intOf t x) else BitVec.ofNat 64 x
    (s.modK c (fun k => k.set f.gs v)).finishV c pc h FFlags.none))

/-- MVTO writes element IMM8 where it is active; other elements keep their value or follow PZ. -/
def execMvto (c : ClusterId) (f : VFields) (s : State) : Result :=
  .next (s.vperm c 6 f (permUse true false false true true 0xFF) [] (fun h g _ =>
    (h.elems f.vd.toNat (esize f.etype.toNat) (positions f)).zipIdx.map (fun p =>
      if p.2 = f.imm8.toNat then g.toNat else p.1)))

/-! ### VCVT and the AMAX slots (R172, R210-R220) -/

/-- The exact value of an element of any type. -/
def valueOf (t : Nat) (ftz : Bool) (x : Nat) : FVal :=
  if isInt t then intV (intOf t x) else ftzIn (fmtOf t) ftz (decodeF (fmtOf t) x)

/-- Convert an exact value of a float, or of a scaled product, to a type. -/
def toType (t : Nat) (rm : Rm) (ftz : Bool) (v : FVal) : Nat × FFlags :=
  if isInt t then
    let (x, fl) := toInt rm (intLo t) (intHi t) v
    (ofInt t x, fl)
  else toFloat (fmtOf t) rm ftz v false

/-- Convert one element (R210-R213). `scale` is an FP32 encoding to multiply by first. R211 keeps floats, and what is scaled, off infinity:
an integer that overflows .k5 unscaled rounds as R206 gives, and one that overflows .k4, which has no infinity, saturates: DEDUCED (log
entry 134). -/
def convertElem (src dst : Nat) (rm : Rm) (ftz : Bool) (scale : Option Nat) (x : Nat) : Nat × FFlags :=
  match scale with
  | some k =>
    let a := valueOf src ftz x
    let b := ftzIn fmtF32 ftz (decodeF fmtF32 k)
    let (p, inv) := mulV a b
    let (r, fl) := toType dst rm ftz p
    (r, fl.or (FFlags.invalid (inv || a.snan || b.snan)))
  | none =>
    if isInt src && isInt dst then (ofInt dst (max (intLo dst) (min (intHi dst) (intOf src x))), FFlags.none)
    else if isInt src && decide (dst = 9) then roundV fmtK5 rm ftz (valueOf src ftz x)
    else toType dst rm ftz (valueOf src ftz x)

/-- The .f64 encoding of a finite magnitude; one that .f64 does not hold exactly has no stated value: a free value that AMV may
hold (log entry 26). -/
def magnitude64 (k m : Nat) (e : Int) : Nat :=
  let (r, fl) := roundF fmtF64 .rne false false false m e false
  if fl.nx then (Config.freeWord (k + 2 ^ 64 * m)).toNat % 0x7FF0000000000000 else r

/-- Gather a source value into a slot (R219). -/
def AmaxSlot.gather (k : Nat) (x : AmaxSlot) : FVal → AmaxSlot
  | .nan _ => { x with nanSeen := true }
  | .inf _ => { x with infSeen := true }
  | .fin _ m e =>
    let v : Word := BitVec.ofNat 64 (magnitude64 k m e)
    { x with value := if x.value.ult v then v else x.value }

def execVcvt (c : ClusterId) (f : VFields) (s : State) : Result :=
  let src := f.etype2.toNat
  let dst := f.etype.toNat
  let wide := if esize src < esize dst then dst else src
  let n := spanOf f * epr wide
  let use : VUse := { vd := true, va := true, vb := false, vc := false, pen := true, pz := true, span := true, etype := true
                      etype2 := true, gs := f.imm8.getLsbD 5, rm := true
                      imm := if f.imm8.getLsbD 4 then 0x3F else 0x30 }
  let bad := fieldsBad use f || decide (esize wide < spanOf f)
    || regsBad f.vd.toNat (regsFor n (esize dst)) [(f.va.toNat, regsFor n (esize src))]
  .next (if f.imm8.getLsbD 4 && s.slotBusy c (bitsAt f.imm8 0 4).toNat then s else s.vissue c 0x74 0 f bad (fun pc s =>
    let h := (s.cluster c).h
    let a := h.elems f.va.toNat (esize src) n
    let scale := if f.imm8.getLsbD 5 then some ((s.g c f.gs).toNat % 2 ^ 32) else none
    let r := a.map (convertElem src dst (rmOf h f) (ftzOf h) scale)
    let old := h.elems f.vd.toNat (esize dst) n
    let h1 := Harrier.setElems (regsFor n (esize dst)) h f.vd.toNat (esize dst) (merge h f old (r.map (·.1)))
    let slot := (bitsAt f.imm8 0 4).toNat
    let h2 := if f.imm8.getLsbD 4 then
        h1.setSlot slot (a.zipIdx.foldl (fun x p =>
          if active h f p.2 then x.gather s.free (valueOf src (ftzOf h) p.1) else x) (h1.slot slot))
      else h1
    s.finishV c pc h2 (flagsOf h f (r.map (·.2)))))

/-! ### VRED (R170, R171) -/

/-- Combine two nodes of the tree; an absent one passes the other. -/
def combine (op : ElemOp) (a b : Option (Nat × FFlags)) : Option (Nat × FFlags) :=
  match a, b with
  | some x, some y =>
    let (r, fl) := op x.1 y.1
    some (r, (x.2.or y.2).or fl)
  | some x, none => some x
  | none, y => y

/-- One level of the tree: neighbours combine. -/
def treeLevel (op : ElemOp) : List (Option (Nat × FFlags)) → List (Option (Nat × FFlags))
  | a :: b :: l => combine op a b :: treeLevel op l
  | l => l

/-- `n` levels of the tree. -/
def tree (op : ElemOp) : Nat → List (Option (Nat × FFlags)) → List (Option (Nat × FFlags))
  | 0, l => l
  | n + 1, l => tree op n (treeLevel op l)

/-- Issue a reduction. An integer SUM works on 64-bit sums of extended elements and writes an .i64. VB gives its element 0 alone, so it may
lie inside the span of VD (R156, R170). -/
def State.vred (s : State) (c : ClusterId) (func : Nat) (f : VFields) (typeFits : Nat → Bool) (sum : Bool)
    (op : Harrier → ElemOp) : State :=
  let t := f.etype.toNat
  let n := spanOf f
  let use : VUse := { vd := true, va := true, vb := true, vc := false, pen := true, pz := true, span := true, etype := true
                      etype2 := false, gs := false, rm := sum && isFloat t, imm := 0 }
  let bad := fieldsBad use f || !typeFits t || spanBad f
    || (regsBad f.vd.toNat n [(f.va.toNat, n)] || pastEnd f.vb.toNat 1)
  s.vissue c 0x75 func f bad (fun pc s =>
    let h := (s.cluster c).h
    let wide := sum && isInt t
    let widen (x : Nat) : Nat := if wide then ofInt 4 (intOf t x) else x
    let leaves := (h.elems f.va.toNat (esize t) (positions f)).zipIdx.map (fun p =>
      if active h f p.2 then some (widen p.1, FFlags.none) else none)
    let root := (tree (op h) 11 leaves).headD none
    let last : Option (Nat × FFlags) := some (widen (nthD (h.elems f.vb.toNat (esize t) 1) 0 0), FFlags.none)
    let (r, fl) := (combine (op h) root last).getD (0, FFlags.none)
    let old := h.elems f.vd.toNat (esize t) (positions f)
    let kept := if f.pz then old.map (fun _ => 0) else old
    let h1 := Harrier.setElems n h f.vd.toNat (esize t) (old.take 1 ++ kept.drop 1)
    s.finishV c pc (Harrier.setElems 1 h1 f.vd.toNat (if wide then 8 else esize t) [r]) fl)

/-- The combining operations. -/
def redSum (f : VFields) (h : Harrier) : ElemOp :=
  if isInt f.etype.toNat then fun x y => ((x + y) % 2 ^ 64, FFlags.none)
  else addF (fmtOf f.etype.toNat) .rne (ftzOf h)
def redMinMax (f : VFields) (isMax : Bool) (h : Harrier) : ElemOp :=
  let t := f.etype.toNat
  if isInt t then intOp t (if isMax then max else min) else minMaxF (fmtOf t) (ftzOf h) isMax

def execVredsum (c : ClusterId) (f : VFields) (s : State) : Result := .next (s.vred c 0 f arithType true (redSum f))
def execVredmax (c : ClusterId) (f : VFields) (s : State) : Result :=
  .next (s.vred c 1 f arithType false (redMinMax f true))
def execVredmin (c : ClusterId) (f : VFields) (s : State) : Result :=
  .next (s.vred c 2 f arithType false (redMinMax f false))
def execVredand (c : ClusterId) (f : VFields) (s : State) : Result :=
  .next (s.vred c 3 f isInt false (fun _ => bitOp (· &&& ·)))
def execVredor (c : ClusterId) (f : VFields) (s : State) : Result :=
  .next (s.vred c 4 f isInt false (fun _ => bitOp (· ||| ·)))
def execVredxor (c : ClusterId) (f : VFields) (s : State) : Result :=
  .next (s.vred c 5 f isInt false (fun _ => bitOp (· ^^^ ·)))

/-! ### VSYS (R157, R160) -/

/-- VSETVL executes at the Kestrel: VD and VA name g registers. -/
def execVsetvl (c : ClusterId) (f : VFields) (s : State) : Result :=
  let use : VUse := { vd := true, va := true, vb := false, vc := false, pen := false, pz := false, span := true
                      etype := true, etype2 := false, gs := false, rm := false, imm := 0 }
  .next (s.vissue c 0x77 0 f (fieldsBad use f || spanBad f) (fun _ s =>
    let n := min (s.g c f.va).toNat (positions f)
    s.modCluster c (fun x => { x with
      h := { x.h with vl := BitVec.ofNat 12 n }
      k := x.k.set f.vd (BitVec.ofNat 64 n) })))

/-- The fields of a predicate operation; predicate numbers are 0-7, whole predicates are combined. DEDUCED (log entry 27). -/
def predBad (f : VFields) (vd vb gs : Bool) : Bool :=
  let use : VUse := { vd := vd, va := true, vb := vb, vc := false, pen := false, pz := false, span := false
                      etype := false, etype2 := false, gs := gs, rm := false, imm := 0 }
  fieldsBad use f || decide (7 < f.vd.toNat) || decide (7 < f.va.toNat) || decide (7 < f.vb.toNat)

/-- Issue an operation on predicates. -/
def State.vpred (s : State) (c : ClusterId) (func : Nat) (f : VFields) (vb : Bool)
    (op : BitVec 2048 → BitVec 2048 → BitVec 2048) : State :=
  s.vissue c 0x77 func f (predBad f true vb false) (fun pc s =>
    let h := (s.cluster c).h
    s.finishV c pc (h.setPred f.vd.toNat (op (h.pred f.va.toNat) (h.pred f.vb.toNat))) FFlags.none)

def execVpand (c : ClusterId) (f : VFields) (s : State) : Result := .next (s.vpred c 1 f true (· &&& ·))
def execVpor (c : ClusterId) (f : VFields) (s : State) : Result := .next (s.vpred c 2 f true (· ||| ·))
def execVpnot (c : ClusterId) (f : VFields) (s : State) : Result := .next (s.vpred c 3 f false (fun a _ => ~~~ a))
def execVpcnt (c : ClusterId) (f : VFields) (s : State) : Result :=
  .next (s.vissue c 0x77 4 f (predBad f false false true) (fun _ s =>
    s.modCluster c (fun x => { x with
      k := x.k.set f.gs (BitVec.ofNat 64 (countBits (x.h.pred f.va.toNat) 2048)) })))

end Sys2Proof.Machine
end

