-- ==== Sys2Proof/Machine/Hearth.lean ====
section
/-! DEFINITION. The Hearth (R179-R200): steps, partials, promotion, the rounding generator and read-out. -/
namespace Sys2Proof.Machine

/-! ### Flags -/

/-- HFLAGS bits. -/
def hfNv : BitVec 4 := 1
def hfOf : BitVec 4 := 2
def hfUf : BitVec 4 := 4
/-- A partial of an .i8 interval whose magnitude left 2^18, which the Sieve reports (R190, R342); no bit of HFLAGS. -/
def hfRange : BitVec 4 := 8

/-- HFLAGS of float flags: NV, OF and UF. -/
def hflagsOf (f : FFlags) : BitVec 4 :=
  (if f.nv then hfNv else 0) ||| (if f.of then hfOf else 0) ||| (if f.uf then hfUf else 0)

/-! ### The partial (R185, R186) -/

/-- P20 encodings. -/
def p20Nan : BitVec 20 := 0x7FC00
def p20Inf (neg : Bool) : BitVec 20 := if neg then 0xFF800 else 0x7F800
def p20Zero (neg : Bool) : BitVec 20 := if neg then 0x80000 else 0

/-- The value of a P20. -/
def p20Value (p : BitVec 20) : FVal :=
  let neg := p.getLsbD 19
  let e := (bitsAt p 11 8).toNat
  let f := (bitsAt p 0 11).toNat
  if e = 255 then (if f = 0 then .inf neg else .nan false)
  else if e = 0 then .fin neg 0 0
  else .fin neg (2 ^ 11 + f) ((e : Int) - 138)

/-- Round an exact nonzero magnitude `m * 2^e` to 12 significant bits (R186). `rnd` is the LFSR state for stochastic rounding,
none for RNE. -/
def p20Round (neg : Bool) (m : Nat) (e : Int) (rnd : Option (BitVec 16)) : BitVec 20 × BitVec 4 :=
  let top := e + bitLen m - 1
  if top < -126 then (p20Zero neg, hfUf)
  else
    let u := top - 11
    let (q, r, above, half) :=
      if u ≤ e then (m * 2 ^ (e - u).toNat, 0, false, false)
      else
        let sh := (u - e).toNat
        let rest := m % 2 ^ sh
        (m / 2 ^ sh, 2 ^ 16 * rest / 2 ^ sh, decide (2 ^ (sh - 1) < rest), decide (rest = 2 ^ (sh - 1)))
    let up := match rnd with
      | some l => decide (65536 ≤ r + l.toNat)
      | none => above || (half && decide (q % 2 = 1))
    let q := if up then q + 1 else q
    let (q, top) := if q = 4096 then (2048, top + 1) else (q, top)
    if 127 < top then (p20Inf neg, hfOf)
    else (BitVec.ofNat 20 (2 ^ 19 * bit neg + 2 ^ 11 * (top + 127).toNat + (q - 2048)), 0)

/-- The sum of two values with the zero rule of R186: an exact zero is +0, except that -0 + -0 is -0. -/
def addExact (a b : FVal) : FVal × Bool :=
  match a, b with
  | .nan _, _ => (.nan false, false)
  | _, .nan _ => (.nan false, false)
  | .inf x, .inf y => if x = y then (.inf x, false) else (.nan false, true)
  | .inf x, .fin _ _ _ => (.inf x, false)
  | .fin _ _ _, .inf y => (.inf y, false)
  | .fin nx mx ex, .fin ny my ey =>
    let e0 := min ex ey
    let t := scaled nx mx ex e0 + scaled ny my ey e0
    if t = 0 then (.fin (nx && ny && decide (mx = 0 ∧ my = 0)) 0 e0, false)
    else (.fin (decide (t < 0)) t.natAbs e0, false)

/-- The step sum of four products (R184) and whether a NaN arises in it from operands that are none. -/
def stepSum (ps : List (FVal × Bool)) : FVal × Bool :=
  let p (i : Nat) : FVal × Bool := nthD ps i (.fin false 0 0, false)
  let (s0, i0) := addExact (p 0).1 (p 1).1
  let (s1, i1) := addExact (p 2).1 (p 3).1
  let (t, i2) := addExact s0 s1
  (t, (p 0).2 || (p 1).2 || (p 2).2 || (p 3).2 || i0 || i1 || i2)

/-- One step of a cell's float partial (R186). -/
def p20Step (p : BitVec 20) (sum : FVal) (inv : Bool) (rnd : Option (BitVec 16)) : BitVec 20 × BitVec 4 :=
  let (x, i) := addExact (p20Value p) sum
  let nv : BitVec 4 := if inv || i then hfNv else 0
  match x with
  | .nan _ => (p20Nan, nv)
  | .inf n => (p20Inf n, nv)
  | .fin n m e =>
    if m = 0 then (p20Zero n, nv)
    else
      let (r, fl) := p20Round n m e rnd
      (r, fl ||| nv)

/-! ### Promotion (R188) -/

/-- Promote one cell: the tile cell and the flags. `t` is the A type, `scale` an FP32 encoding. -/
def promoteCell (t : Nat) (scaled : Bool) (scale : W32) (cell : W32) (p : BitVec 20) : W32 × BitVec 4 :=
  if t = 0 then (cell + p.signExtend 32, 0)
  else
    let a := decodeF fmtF32 cell.toNat
    let k := if scaled then decodeF fmtF32 scale.toNat else .fin false 1 0
    let (x, i1) := if scaled then mulV (p20Value p) k else (p20Value p, false)
    let (y, i2) := addV .rne a x
    let (r, fl) := roundV fmtF32 .rne false y
    (BitVec.ofNat 32 r, hflagsOf (fl.or (FFlags.invalid (i1 || i2 || a.snan || k.snan))))

/-- The cells of a tile, the partials and the LFSRs. -/
def cellsOf (x : BitVec 131072) : List W32 := (List.range 4096).map (fun n => bitsAt x (32 * n) 32)
def tileOf (l : List W32) : BitVec 131072 := BitVec.ofNat 131072 (pack 32 (l.map (·.toNat)))
def partialsOf (x : BitVec 81920) : List (BitVec 20) := (List.range 4096).map (fun n => bitsAt x (20 * n) 20)
def lfsrsOf (x : BitVec 65536) : List (BitVec 16) := (List.range 4096).map (fun n => bitsAt x (16 * n) 16)

/-- The flags of many cells together. -/
def orAll (l : List (BitVec 4)) : BitVec 4 := l.foldl (· ||| ·) 0

/-- Promote the open interval into its tile; STEPS and P return to zero (R187). -/
def Hearth.promote (m : Hearth) : Hearth × BitVec 4 :=
  if m.isOpen then
    let r := ((cellsOf (m.tile m.openTile.toNat)).zip (partialsOf m.partials)).map (fun x =>
      promoteCell m.atype.toNat m.scaled m.scale x.1 x.2)
    ({ m.setTile m.openTile.toNat (tileOf (r.map (·.1))) with partials := 0, steps := 0 }, orAll (r.map (·.2)))
  else (m, 0)

/-- Close the interval: its P and STEPS are zero and nothing is open. -/
def Hearth.close (m : Hearth) : Hearth := { m with isOpen := false, partials := 0, steps := 0 }

/-! ### MMA (R179, R180, R184, R187, R189) -/

/-- The exact product of two elements. -/
def product (ta tb x y : Nat) : FVal × Bool :=
  if ta = 0 then (intV (intOf 0 x * intOf 0 y), false)
  else
    let a := decodeF (fmtOf ta) x
    let b := decodeF (fmtOf tb) y
    let (p, i) := mulV a b
    (p, i || a.snan || b.snan)

/-- The integer of an exact finite value. -/
def intOfV : FVal → Int
  | .fin n m e => scaled n m e 0
  | _ => 0

/-- The 256 elements of step `t` of an operand. -/
def stepBlock (h : Harrier) (reg b t : Nat) : List Nat :=
  (List.range 256).map (fun i => h.elem reg b (256 * t + i))

/-- The step sums of every cell, in cell order. -/
def stepSums (ta tb : Nat) (a b : List Nat) : List (FVal × Bool) :=
  (List.range 4096).map (fun n =>
    let i := n / 64
    let j := n % 64
    stepSum ((List.range 4).map (fun k => product ta tb (nthD a (4 * i + k) 0) (nthD b (4 * j + k) 0))))

/-- One step into the partials: R186, and R190 with its range check for .i8; every LFSR of a float step advances (R191). -/
def Hearth.partialStep (m : Hearth) (sums : List (FVal × Bool)) : Hearth × BitVec 4 :=
  if m.atype = 0 then
    let r := ((partialsOf m.partials).zip sums).map (fun x => x.1 + BitVec.ofInt 20 (intOfV x.2.1))
    ({ m with partials := BitVec.ofNat 81920 (pack 20 (r.map (·.toNat))), steps := m.steps + 1 },
      if ((partialsOf m.partials).zip sums).any (fun x => decide (2 ^ 18 < (x.1.toInt + intOfV x.2.1).natAbs)) then hfRange else 0)
  else
    let ls := lfsrsOf m.lfsr
    let r := (((partialsOf m.partials).zip sums).zip ls).map (fun x =>
      p20Step x.1.1 x.1.2.1 x.1.2.2 (if m.rndm then none else some x.2))
    ({ m with
      partials := BitVec.ofNat 81920 (pack 20 (r.map (·.1.toNat)))
      lfsr := BitVec.ofNat 65536 (pack 16 (ls.map (fun l => (lfsrNext l).toNat)))
      steps := m.steps + 1 }, orAll (r.map (·.2)))

/-- One step of an MMA that keeps a partial, with the promotion when STEPS reaches PI. -/
def Hearth.mmaStep (m : Hearth) (sums : List (FVal × Bool)) : Hearth × BitVec 4 :=
  let (m1, f1) := m.partialStep sums
  if m1.steps.toNat = m1.pi1.toNat + 1 ∨ (m1.steps = 0 ∧ m1.pi1 = 15) then
    let (m2, f2) := m1.promote
    (m2, f1 ||| f2)
  else (m1, f1)

/-- One step of an .f32 MMA (R189). -/
def Hearth.f32Step (m : Hearth) (td : Nat) (sums : List (FVal × Bool)) : Hearth × BitVec 4 :=
  let r := ((cellsOf (m.tile td)).zip sums).map (fun x =>
    let a := decodeF fmtF32 x.1.toNat
    let (y, i) := addV .rne a x.2.1
    let (v, fl) := roundV fmtF32 .rne false y
    ((BitVec.ofNat 32 v : W32), hflagsOf (fl.or (FFlags.invalid (i || x.2.2 || a.snan)))))
  (m.setTile td (tileOf (r.map (·.1))), orAll (r.map (·.2)))

/-- Run `n` steps from step `t`. -/
def mmaRun (h : Harrier) (f : VFields) (td : Nat) : Nat → Nat → Hearth × BitVec 4 → Hearth × BitVec 4
  | 0, _, x => x
  | n + 1, t, (m, fl) =>
    let b := esize f.etype.toNat
    let sums := stepSums f.etype.toNat f.etype2.toNat (stepBlock h f.va.toNat b t) (stepBlock h f.vb.toNat b t)
    let (m1, f1) := if f.etype = 6 then m.f32Step td sums else m.mmaStep sums
    mmaRun h f td n (t + 1) (m1, fl ||| f1)

/-- Does an MMA continue the open interval (R187)? -/
def Hearth.continues (m : Hearth) (f : VFields) (scale : W32) : Bool :=
  m.isOpen && (decide (m.openTile = bitsAt f.vd 0 3) && (decide (m.atype = f.etype) && (decide (m.btype = f.etype2)
    && (decide (m.pi1 = bitsAt f.imm8 0 4) && (decide (m.rndm = f.imm8.getLsbD 4)
    && (decide (m.scaled = f.imm8.getLsbD 5) && decide (m.scale = scale)))))))

/-- Open the interval of an MMA, promoting another that is open. -/
def Hearth.openFor (m : Hearth) (f : VFields) (scale : W32) : Hearth × BitVec 4 :=
  if m.continues f scale then (m, 0)
  else
    let (m1, fl) := m.promote
    ({ m1.close with
      isOpen := true
      openTile := bitsAt f.vd 0 3
      pi1 := bitsAt f.imm8 0 4
      rndm := f.imm8.getLsbD 4
      scaled := f.imm8.getLsbD 5
      atype := f.etype
      btype := f.etype2
      scale := scale }, fl)

/-- Bytes of the types that MMA takes, as pairs (R183). -/
def mmaTypes (a b : Nat) : Bool :=
  (isStorage a && isStorage b) || decide (a = 0 ∧ b = 0) || decide (a = 7 ∧ b = 7) || decide (a = 8 ∧ b = 8)
    || decide (a = 6 ∧ b = 6)

/-- The fields that every Hearth instruction leaves zero (R181). -/
def hearthBad (f : VFields) : Bool :=
  decide (bitsAt f.vd 3 2 ≠ 0) || decide (f.vc ≠ 0) || decide (f.pg ≠ 0) || f.pen || f.pz || decide (f.rm ≠ 0)

/-- The flags of a Hearth instruction go to HFLAGS; the range check of .i8 logs a residue mismatch of the partial adder and reports
RESIDUE_FAIL (R190, R196, R343). The steps go on. DESIGN CHOICE (log entry 126). -/
def State.hflagged (s : State) (c : ClusterId) (pc : Word) (fl : BitVec 4) : State :=
  let s1 := s.setHflags c (bitsAt fl 0 3)
  if fl.getLsbD 3 then
    (s1.addLog (s1.residueEntry c { row := rwHearth, lane := 0, mask := 0 } 0)).vfails c pc exResidueFail
  else s1

/-- Issue a Hearth instruction; its flags go to HFLAGS. -/
def State.hissue (s : State) (c : ClusterId) (major func : Nat) (f : VFields) (bad : Bool)
    (run : State → Harrier → Hearth → Hearth × BitVec 4) : State :=
  s.vissue c major func f bad (fun pc s =>
    let (m, fl) := run s (s.cluster c).h (s.cluster c).m
    (s.modCluster c (fun x => { x with m := m })).hflagged c pc fl)

def execMma (c : ClusterId) (f : VFields) (s : State) : Result :=
  let n := spanOf f
  let a := f.etype.toNat
  let kinds := decide (bitsAt f.imm8 6 2 ≠ 0) || !mmaTypes a f.etype2.toNat
    || (decide (a = 0) && decide (3 < (bitsAt f.imm8 0 4).toNat))
    || (f.imm8.getLsbD 5 && !isStorage a) || (decide (a = 6) && decide (f.imm8 ≠ 0))
    || (!f.imm8.getLsbD 5 && decide (f.gs ≠ 0))
  let bad := hearthBad f || kinds || pastEnd f.va.toNat n || pastEnd f.vb.toNat n
  .next (s.hissue c 0x78 0 f bad (fun s h m =>
    let scale : W32 := if f.imm8.getLsbD 5 then bitsAt (s.g c f.gs) 0 32 else 0
    let steps := 8 * n / esize a
    if a = 6 then
      let (m1, fl) := m.promote
      mmaRun h f (bitsAt f.vd 0 3).toNat steps 0 (m1.close, fl)
    else mmaRun h f (bitsAt f.vd 0 3).toNat steps 0 (m.openFor f scale)))

/-! ### ACC, TRD and TWR (R181-R183, R192-R194, R200) -/

/-- The fields that an ACC instruction leaves zero; ACC.SEED takes its salt from g(GS), the others no register. -/
def accBad (f : VFields) (td gs : Bool) : Bool :=
  hearthBad f || decide (f.va ≠ 0) || decide (f.vb ≠ 0) || decide (f.span ≠ 0) || decide (f.etype ≠ 0)
    || decide (f.etype2 ≠ 0) || decide (f.imm8 ≠ 0) || (!gs && decide (f.gs ≠ 0)) || (!td && decide (f.vd ≠ 0))

/-- Discard the open partial of a tile (R200). -/
def Hearth.discard (m : Hearth) (td : Nat) : Hearth := if m.isOpen ∧ m.openTile.toNat = td then m.close else m

def execAccZero (c : ClusterId) (f : VFields) (s : State) : Result :=
  .next (s.hissue c 0x79 0 f (accBad f true false) (fun _ _ m =>
    ((m.discard (bitsAt f.vd 0 3).toNat).setTile (bitsAt f.vd 0 3).toNat 0, 0)))

def execAccPromote (c : ClusterId) (f : VFields) (s : State) : Result :=
  .next (s.hissue c 0x79 1 f (accBad f false false) (fun _ _ m =>
    let (m1, fl) := m.promote
    (m1.close, fl)))

/-- The KERNEL rank of a cluster: that of its share, else 0 as at the grant. -/
def State.rankOf (s : State) (c : ClusterId) : Nat :=
  match (s.cluster c).share with
  | some x => x.rank
  | none => 0

/-- The seed of a cluster's job. -/
def State.jobSeed (s : State) (c : ClusterId) : Word :=
  match (s.cluster c).job with
  | some (j, _) => ((s.job j).map (·.seed)).getD 0
  | none => 0

def execAccSeed (c : ClusterId) (f : VFields) (s : State) : Result :=
  .next (s.hissue c 0x79 2 f (accBad f false true) (fun s _ m =>
    ({ m with lfsr := lfsrSeeds (s.jobSeed c) (bitsAt (s.g c f.gs) 0 32) (s.rankOf c) }, 0)))

/-- The checks of TRD and TWR. -/
def moveBad (f : VFields) : Bool :=
  hearthBad f || decide (f.vb ≠ 0) || decide (f.gs ≠ 0) || decide (f.etype2 ≠ 0) || decide (f.etype ≠ 6 ∧ f.etype ≠ 3)
    || decide (bitsAt f.imm8 3 5 ≠ 0) || decide (8 < (bitsAt f.imm8 0 3).toNat + spanOf f) || pastEnd f.va.toNat (spanOf f)

/-- TRD: register VA + k takes rows 8(b + k) to 8(b + k) + 7. -/
def execTrd (c : ClusterId) (f : VFields) (s : State) : Result :=
  .next (s.vissue c 0x7A 0 f (moveBad f) (fun _ s =>
    let x := (s.cluster c).m.tile (bitsAt f.vd 0 3).toNat
    let b := (bitsAt f.imm8 0 3).toNat
    s.modCluster c (fun y => { y with h := (List.range (spanOf f)).foldl (fun h k =>
      h.setReg (f.va.toNat + k) (bitsAt x (16384 * (b + k)) 16384)) y.h })))

/-- TWR copies the other way; on the tile of the open interval it discards the partial (R200). -/
def execTwr (c : ClusterId) (f : VFields) (s : State) : Result :=
  .next (s.hissue c 0x7A 1 f (moveBad f) (fun _ h m =>
    let td := (bitsAt f.vd 0 3).toNat
    let b := (bitsAt f.imm8 0 3).toNat
    let x := (List.range (spanOf f)).foldl (fun x k => putBits x (16384 * (b + k)) (h.reg (f.va.toNat + k))) (m.tile td)
    ((m.discard td).setTile td x, 0)))

end Sys2Proof.Machine
end

