-- ==== Sys2Proof/Machine/KestrelAlu.lean ====
section
/-! DEFINITION. The Kestrel's ALU, ALUI, wide-immediate and MULDIV instructions (R101-R104, R481). -/
namespace Sys2Proof.Machine

/-! ### Checks (R341, R342): each takes the operands and a result as its datapath gave it -/

/-- The adder. -/
def addHolds (a b : Word) (t : Nat) : Bool := adderHolds 64 a.toNat b.toNat t ((a.toNat + b.toNat) / 2 ^ 64)

/-- Subtraction is addition of the complement, with a carry in. -/
def subHolds (a b : Word) (t : Nat) : Bool :=
  decide ((residue a.toNat + residue (~~~ b).toNat + 1) % 7
    = (residue t + (a.toNat + (~~~ b).toNat + 1) / 2 ^ 64 * residue (2 ^ 64)) % 7)

/-- The multiplier, on the double-width product of which the result is the low or the high half; the residue of a negative number is
that of its value. -/
def mulHolds (high signed : Bool) (a b : Word) (t : Nat) : Bool :=
  let val (x : Word) : Int := if signed then x.toInt else (x.toNat : Int)
  let p := val a * val b
  let q := if high then val (BitVec.ofNat 64 t) * 2 ^ 64 + p % 2 ^ 64 else p / 2 ^ 64 * 2 ^ 64 + (t : Int)
  productHolds (val a) (val b) q

/-- The divider: quotient and remainder of magnitudes against the dividend. -/
def divHolds (rem : Bool) (a b : Nat) (t : Nat) : Bool :=
  if rem then quotientHolds (a / b) b t a else quotientHolds t b (a % b) a

/-- The datapath of an operation with its check; any other result is compared by the check of its row. -/
structure Datapath where
  row : Nat
  holds : Word → Word → Nat → Nat → Bool

/-- A datapath whose result `f` is checked as its row says. -/
def Datapath.of (row : Nat) (f : Word → Word → Word) : Datapath := ⟨row, fun a b r t => rowHolds r (f a b).toNat t⟩
def Datapath.add : Datapath := ⟨rwAdder, fun a b _ t => addHolds a b t⟩
def Datapath.sub : Datapath := ⟨rwAdder, fun a b _ t => subHolds a b t⟩
def Datapath.mul (high signed : Bool) : Datapath := ⟨rwMul, fun a b _ t => mulHolds high signed a b t⟩

/-- Issue a register-register operation: g(rd) takes `f (g ra) (g rb)`. -/
def State.aluRR (s : State) (c : ClusterId) (rd ra rb : BitVec 5) (f : Word → Word → Word) (u : Datapath) : State :=
  s.issue c 4 (fun s => s.writeChecked c [u.row] rd (f (s.g c ra) (s.g c rb)) (u.holds (s.g c ra) (s.g c rb))) [ra, rb]

/-- Issue a register-immediate operation. -/
def State.aluRI (s : State) (c : ClusterId) (rd ra : BitVec 5) (b : Word) (f : Word → Word → Word) (u : Datapath) : State :=
  s.issue c 4 (fun s => s.writeChecked c [u.row] rd (f (s.g c ra) b) (u.holds (s.g c ra) b)) [ra]

/-- Issue an immediate shift: a nonzero imm12[11:6] raises RSVD_ENC (R102). -/
def State.shiftI (s : State) (c : ClusterId) (minor3 : Nat) (rd ra : BitVec 5) (imm : BitVec 12)
    (f : Word → Nat → Word) : State :=
  s.issue c 4 (fun s =>
    if bitsAt imm 6 6 ≠ 0 then s.raiseWord c exRsvdEnc (wordRI 0x02 rd ra minor3 imm)
    else
      let v := f (s.g c ra) (bitsAt imm 0 6).toNat
      s.writeChecked c [rwLogic] rd v (fun r => rowHolds r v.toNat)) [ra]

/-- 1 or 0. -/
def boolWord (b : Bool) : Word := if b then 1 else 0

/-- Signed maximum and minimum, unsigned ones. -/
def minS (a b : Word) : Word := if a.slt b then a else b
def maxS (a b : Word) : Word := if a.slt b then b else a
def minU (a b : Word) : Word := if a.ult b then a else b
def maxU (a b : Word) : Word := if a.ult b then b else a

/-- The high words of products. -/
def mulHS (a b : Word) : Word := ((a.signExtend 128 * b.signExtend 128) >>> 64).setWidth 64
def mulHU (a b : Word) : Word := ((a.setWidth 128 * b.setWidth 128) >>> 64).setWidth 64

/-- Issue a division: a zero divisor raises INT_DIV_ZERO and writes nothing (R104). -/
def State.divRR (s : State) (c : ClusterId) (rd ra rb : BitVec 5) (f : Word → Word → Word) (rem : Bool) (mag : Word → Nat) : State :=
  s.issue c 4 (fun s =>
    if s.g c rb = 0 then s.raise c exIntDivZero 0 (s.kestrel c).pc
    else
      let v := f (s.g c ra) (s.g c rb)
      s.writeChecked c [rwDiv] rd v (fun _ t =>
        divHolds rem (mag (s.g c ra)) (mag (s.g c rb)) (mag (BitVec.ofNat 64 t)))) [ra, rb]

/-! ### R101 ALU -/

def execAdd (c : ClusterId) (rd ra rb : BitVec 5) (s : State) : Result :=
  .next (s.aluRR c rd ra rb (fun a b => a + b) .add)
def execSub (c : ClusterId) (rd ra rb : BitVec 5) (s : State) : Result :=
  .next (s.aluRR c rd ra rb (fun a b => a - b) .sub)
def execAnd (c : ClusterId) (rd ra rb : BitVec 5) (s : State) : Result :=
  .next (s.aluRR c rd ra rb (fun a b => a &&& b) (.of rwLogic (fun a b => a &&& b)))
def execOr (c : ClusterId) (rd ra rb : BitVec 5) (s : State) : Result :=
  .next (s.aluRR c rd ra rb (fun a b => a ||| b) (.of rwLogic (fun a b => a ||| b)))
def execXor (c : ClusterId) (rd ra rb : BitVec 5) (s : State) : Result :=
  .next (s.aluRR c rd ra rb (fun a b => a ^^^ b) (.of rwLogic (fun a b => a ^^^ b)))
/-- R481: the amount is g(rb) modulo 64. -/
def sll (a b : Word) : Word := a <<< (b.toNat % 64)
def srl (a b : Word) : Word := a >>> (b.toNat % 64)
def sra (a b : Word) : Word := a.sshiftRight (b.toNat % 64)
def execSll (c : ClusterId) (rd ra rb : BitVec 5) (s : State) : Result := .next (s.aluRR c rd ra rb sll (.of rwLogic sll))
def execSrl (c : ClusterId) (rd ra rb : BitVec 5) (s : State) : Result := .next (s.aluRR c rd ra rb srl (.of rwLogic srl))
def execSra (c : ClusterId) (rd ra rb : BitVec 5) (s : State) : Result := .next (s.aluRR c rd ra rb sra (.of rwLogic sra))
/-- Comparisons as 1 or 0. -/
def ltS (a b : Word) : Word := boolWord (a.slt b)
def ltU (a b : Word) : Word := boolWord (a.ult b)
def execSlt (c : ClusterId) (rd ra rb : BitVec 5) (s : State) : Result := .next (s.aluRR c rd ra rb ltS (.of rwAdder ltS))
def execSltu (c : ClusterId) (rd ra rb : BitVec 5) (s : State) : Result := .next (s.aluRR c rd ra rb ltU (.of rwAdder ltU))
def execMin (c : ClusterId) (rd ra rb : BitVec 5) (s : State) : Result := .next (s.aluRR c rd ra rb minS (.of rwAdder minS))
def execMax (c : ClusterId) (rd ra rb : BitVec 5) (s : State) : Result := .next (s.aluRR c rd ra rb maxS (.of rwAdder maxS))
def execMinu (c : ClusterId) (rd ra rb : BitVec 5) (s : State) : Result := .next (s.aluRR c rd ra rb minU (.of rwAdder minU))
def execMaxu (c : ClusterId) (rd ra rb : BitVec 5) (s : State) : Result := .next (s.aluRR c rd ra rb maxU (.of rwAdder maxU))

/-! ### R101 ALUI -/

def execAddi (c : ClusterId) (rd ra : BitVec 5) (imm : BitVec 12) (s : State) : Result :=
  .next (s.aluRI c rd ra (imm12 imm) (fun a b => a + b) .add)
def execAndi (c : ClusterId) (rd ra : BitVec 5) (imm : BitVec 12) (s : State) : Result :=
  .next (s.aluRI c rd ra (imm12 imm) (fun a b => a &&& b) (.of rwLogic (fun a b => a &&& b)))
def execOri (c : ClusterId) (rd ra : BitVec 5) (imm : BitVec 12) (s : State) : Result :=
  .next (s.aluRI c rd ra (imm12 imm) (fun a b => a ||| b) (.of rwLogic (fun a b => a ||| b)))
def execXori (c : ClusterId) (rd ra : BitVec 5) (imm : BitVec 12) (s : State) : Result :=
  .next (s.aluRI c rd ra (imm12 imm) (fun a b => a ^^^ b) (.of rwLogic (fun a b => a ^^^ b)))
def execSlli (c : ClusterId) (rd ra : BitVec 5) (imm : BitVec 12) (s : State) : Result :=
  .next (s.shiftI c 4 rd ra imm (fun a n => a <<< n))
def execSrli (c : ClusterId) (rd ra : BitVec 5) (imm : BitVec 12) (s : State) : Result :=
  .next (s.shiftI c 5 rd ra imm (fun a n => a >>> n))
def execSrai (c : ClusterId) (rd ra : BitVec 5) (imm : BitVec 12) (s : State) : Result :=
  .next (s.shiftI c 6 rd ra imm (fun a n => a.sshiftRight n))
def execSlti (c : ClusterId) (rd ra : BitVec 5) (imm : BitVec 12) (s : State) : Result :=
  .next (s.aluRI c rd ra (imm12 imm) ltS (.of rwAdder ltS))

/-! ### R103 wide immediates -/

def execLiw (c : ClusterId) (rd : BitVec 5) (imm : BitVec 20) (s : State) : Result :=
  .next (s.issue c 4 (fun s => s.writeReg c rd (imm.signExtend 64) 4))
/-- R103: the old bits [63:44] are discarded. -/
def execLiws (c : ClusterId) (rd : BitVec 5) (imm : BitVec 20) (s : State) : Result :=
  .next (s.issue c 4 (fun s =>
    let v := (s.g c rd <<< 20) ||| imm.setWidth 64
    s.writeChecked c [rwLogic] rd v (fun r => rowHolds r v.toNat)) [rd])
def execPca (c : ClusterId) (rd : BitVec 5) (imm : BitVec 20) (s : State) : Result :=
  .next (s.issue c 4 (fun s =>
    let pc := (s.kestrel c).pc
    let off := imm.signExtend 64 * 4
    s.writeChecked c [rwAdder] rd (pc + off) (fun _ => addHolds pc off)))

/-! ### R101 MULDIV -/

def execMul (c : ClusterId) (rd ra rb : BitVec 5) (s : State) : Result :=
  .next (s.aluRR c rd ra rb (fun a b => a * b) (.mul false false))
def execMulh (c : ClusterId) (rd ra rb : BitVec 5) (s : State) : Result := .next (s.aluRR c rd ra rb mulHS (.mul true true))
def execMulhu (c : ClusterId) (rd ra rb : BitVec 5) (s : State) : Result := .next (s.aluRR c rd ra rb mulHU (.mul true false))
/-- The magnitude of a signed number. -/
def magS (a : Word) : Nat := a.toInt.natAbs
/-- R104: -2^63 by -1 gives -2^63, as two's complement division wraps. -/
def execDiv (c : ClusterId) (rd ra rb : BitVec 5) (s : State) : Result := .next (s.divRR c rd ra rb BitVec.sdiv false magS)
def execDivu (c : ClusterId) (rd ra rb : BitVec 5) (s : State) : Result :=
  .next (s.divRR c rd ra rb BitVec.udiv false BitVec.toNat)
def execRem (c : ClusterId) (rd ra rb : BitVec 5) (s : State) : Result := .next (s.divRR c rd ra rb BitVec.srem true magS)
def execRemu (c : ClusterId) (rd ra rb : BitVec 5) (s : State) : Result :=
  .next (s.divRR c rd ra rb BitVec.umod true BitVec.toNat)

end Sys2Proof.Machine
end

