-- ==== Sys2Proof/Machine/KestrelBranch.lean ====
section
/-! DEFINITION. The Kestrel's branches, jumps, calls and returns (R96, R101, R102, R142, R480). -/
namespace Sys2Proof.Machine

/-- Set the PC. -/
def State.setPc (s : State) (c : ClusterId) (pc : Word) : State := s.modK c (fun k => { k with pc := pc })

/-- Issue a compare and branch: taken to PC + imm12 × 4, else the next instruction. -/
def State.branch (s : State) (c : ClusterId) (ra rb : BitVec 5) (imm : BitVec 12) (p : Word → Word → Bool) : State :=
  s.issue c 4 (fun s =>
    let b := boolWord (p (s.g c ra) (s.g c rb))
    s.checked c [rwAdder] b (fun r => rowHolds r b.toNat) (fun b s =>
      if b.getLsbD 0 then s.setPc c ((s.kestrel c).pc + imm12 imm * 4) else s.advance c 4)) [ra, rb]

/-- Go on with a jump's target, from the branch target adder. -/
def State.target (s : State) (c : ClusterId) (base off : Word) (f : Word → State → State) : State :=
  s.checked c [rwAdder] (base + off) (fun _ => addHolds base off) f

def execBeq (c : ClusterId) (ra rb : BitVec 5) (imm : BitVec 12) (s : State) : Result :=
  .next (s.branch c ra rb imm (fun a b => decide (a = b)))
def execBne (c : ClusterId) (ra rb : BitVec 5) (imm : BitVec 12) (s : State) : Result :=
  .next (s.branch c ra rb imm (fun a b => decide (a ≠ b)))
def execBlt (c : ClusterId) (ra rb : BitVec 5) (imm : BitVec 12) (s : State) : Result :=
  .next (s.branch c ra rb imm (fun a b => a.slt b))
def execBge (c : ClusterId) (ra rb : BitVec 5) (imm : BitVec 12) (s : State) : Result :=
  .next (s.branch c ra rb imm (fun a b => !a.slt b))
def execBltu (c : ClusterId) (ra rb : BitVec 5) (imm : BitVec 12) (s : State) : Result :=
  .next (s.branch c ra rb imm (fun a b => a.ult b))
def execBgeu (c : ClusterId) (ra rb : BitVec 5) (imm : BitVec 12) (s : State) : Result :=
  .next (s.branch c ra rb imm (fun a b => !a.ult b))

def execJmp (c : ClusterId) (imm : BitVec 25) (s : State) : Result :=
  .next (s.issue c 4 (fun s => s.target c (s.kestrel c).pc (imm.signExtend 64 * 4) (fun t s => s.setPc c t)))

/-- Call a target: at O ILLEGAL_OP; a full shadow stack raises SS_OVERFLOW; else the return address goes to the shadow stack and
to g31 (R96, R142). -/
def State.callTo (s : State) (c : ClusterId) (word base off : Word) : State :=
  let k := s.kestrel c
  if k.level = 2 then s.raiseWord c exIllegalOp word
  else if k.ssp = 4096 then s.raise c exSsOverflow (k.pc + 4) k.pc
  else s.target c base off (fun t s =>
    ((s.shadowPush c (k.pc + 4)).clearMarks c (readsRegs [31])).modK c (fun k' => { k'.set 31 (k.pc + 4) with pc := t }))

def execCall (c : ClusterId) (imm : BitVec 25) (s : State) : Result :=
  .next (s.issue c 4 (fun s => s.callTo c (wordLJ 0x0E imm) (s.kestrel c).pc (imm.signExtend 64 * 4)))

/-- R480: rd must be zero; the target is g(ra) + imm12. -/
def execJmpr (c : ClusterId) (rd ra : BitVec 5) (imm : BitVec 12) (s : State) : Result :=
  .next (s.issue c 4 (fun s =>
    if rd ≠ 0 then s.raiseWord c exRsvdEnc (wordRI 0x0F rd ra 0 imm) 
    else s.target c (s.g c ra) (imm12 imm) (fun t s => s.setPc c t)) [ra])

def execCallr (c : ClusterId) (rd ra : BitVec 5) (imm : BitVec 12) (s : State) : Result :=
  .next (s.issue c 4 (fun s =>
    if (s.kestrel c).level = 2 then s.raiseWord c exIllegalOp (wordRI 0x0F rd ra 1 imm)
    else if rd ≠ 0 then s.raiseWord c exRsvdEnc (wordRI 0x0F rd ra 1 imm)
    else s.callTo c (wordRI 0x0F rd ra 1 imm) (s.g c ra) (imm12 imm)) [ra])

/-- Is the top entry of the shadow stack unreadable? -/
def State.shadowBad (s : State) (c : ClusterId) : Bool :=
  let x := s.cluster c
  decide (x.k.ssp ≠ 0) && x.storeFails (shadowBase + 8 * (x.k.ssp.toNat - 1)) 8

/-- The address of the top entry of the shadow stack. -/
def State.shadowAddr (s : State) (c : ClusterId) : Word :=
  BitVec.ofNat 64 (shadowBase + 8 * ((s.kestrel c).ssp.toNat - 1))

/-- RET (R102, R142): it uses no operand field; the top entry must equal g31, bit [0] included. -/
def execRet (c : ClusterId) (rd ra : BitVec 5) (imm : BitVec 12) (s : State) : Result :=
  .next (s.issue c 4 (fun s =>
    let k := s.kestrel c
    if k.level = 2 then s.raiseWord c exIllegalOp (wordRI 0x0F rd ra 2 imm)
    else if rd ≠ 0 ∨ ra ≠ 0 ∨ imm ≠ 0 then s.raiseWord c exRsvdEnc (wordRI 0x0F rd ra 2 imm)
    else if s.shadowBad c then s.raise c exEccUncorr (s.shadowAddr c) k.pc
    else if k.ssp = 0 ∨ s.shadowTop c ≠ k.get 31 then s.raise c exCfMismatch (k.get 31) k.pc
    else s.modK c (fun k => { k with ssp := k.ssp - 1, pc := k.get 31 })) [31])

end Sys2Proof.Machine
end

