-- ==== Sys2Proof/Machine/KestrelSystem.lean ====
section
/-! DEFINITION. The Kestrel's SYS instructions and its system registers (R97-R99, R102, R104, R110, R113, R115, R118, R130,
R131, R142-R146, R149, R162, R196, R218), and the events at its sampling point (R110-R112, R136-R138, R151). -/
namespace Sys2Proof.Machine

/-! ### System registers -/

/-- May a level read and write a system register? None for an unassigned number. -/
def sysAccess (n : Nat) (level : BitVec 2) : Option (Bool × Bool) :=
  let j := decide (level = 0)
  let o := decide (level = 2)
  if n = 0x000 then some (true, !j)
  else if n = 0x001 ∨ n = 0x002 ∨ n = 0x003 ∨ n = 0x005 ∨ n = 0x006 then some (!j, !j)
  else if n = 0x004 then some (!j, false)
  else if n = 0x010 ∨ n = 0x011 ∨ n = 0x020 then some (true, false)
  else if n = 0x012 then some (!j, false)
  else if n = 0x030 ∨ n = 0x031 ∨ n = 0x032 then some (!j, !j)
  else if n = 0x040 then some (!j, !j && !o)
  else if n = 0x041 ∨ n = 0x049 then some (false, !j && !o)
  else if 0x050 ≤ n ∧ n ≤ 0x054 then some (o, false)
  else if n = 0x060 then some (true, !j)
  else if n = 0x061 ∨ n = 0x062 then some (true, true)
  else if n = 0x063 then some (!j, false)
  else if n = 0x070 then some (true, true)
  else if n = 0x071 then some (true, !j)
  else if 0x080 ≤ n ∧ n ≤ 0x09F then some (true, true)
  else none

/-- JOBINFO (R98). -/
def State.jobInfo (s : State) (c : ClusterId) : Word :=
  match (s.cluster c).job with
  | some (j, i) => BitVec.ofNat 64 (j.val + 2 ^ 8 * (s.attemptOf j).toNat + 2 ^ 16 * i.toNat + 2 ^ 32 * (s.periodOf c).toNat)
  | none => 0

/-- The value that MFSR reads. -/
def State.sysRead (s : State) (c : ClusterId) (n : Nat) : Word :=
  let x := s.cluster c
  let k := x.k
  if n = 0x000 then k.status
  else if n = 0x001 then k.cause.setWidth 64
  else if n = 0x002 then k.tval
  else if n = 0x003 then k.esp
  else if n = 0x004 then s.irqPend k
  else if n = 0x005 then k.irqEn
  else if n = 0x006 then k.timecmp
  else if n = 0x010 then (s.clId c).setWidth 64
  else if n = 0x011 then s.jobInfo c
  else if n = 0x012 then s.seedOf c
  else if n = 0x020 then s.tick
  else if n = 0x030 then BitVec.ofNat 64 (bit k.det)
  else if n = 0x031 then k.csback
  else if n = 0x032 then k.cslive
  else if n = 0x040 then k.ssp.setWidth 64
  else if n = 0x050 then k.ocause
  else if n = 0x051 then k.otval
  else if n = 0x052 then k.oepc
  else if n = 0x053 then k.ostatus
  else if n = 0x054 then k.oesp
  else if n = 0x060 then x.h.vl.setWidth 64
  else if n = 0x061 then x.h.vctl.setWidth 64
  else if n = 0x062 then x.h.vflags.setWidth 64
  else if n = 0x063 then BitVec.ofNat 64 x.h.vprog
  else if n = 0x070 then x.m.hflags.setWidth 64
  else if n = 0x071 then x.m.hctl.setWidth 64
  else if 0x080 ≤ n ∧ n < 0x090 then (x.h.slot (n - 0x080)).value
  else if 0x090 ≤ n ∧ n < 0x0A0 then
    BitVec.ofNat 64 (bit (x.h.slot (n - 0x090)).nanSeen + 2 * bit (x.h.slot (n - 0x090)).infSeen)
  else 0

/-- The values that MTSR to ESCALATE may write (R144). -/
def escalateOk (v : Nat) : Bool := [1, 2, 3, 4, 9, 0xA, 0xF, 0x10].contains v

/-- May a register hold the value an MTSR writes (R97-R99, R144, R162, R218)? STATUS accepts its read-only bit DET and ignores it: DESIGN
CHOICE (log entry 129). -/
def sysValueOk (k : Kestrel) (n v : Nat) : Bool :=
  if n = 0x000 then decide (v < 16) && decide (if k.level = 2 then v % 4 = 2 else v % 4 ≤ 1)
  else if n = 0x001 then decide (v < 256)
  else if n = 0x003 then espOk v
  else if n = 0x005 then decide (v < 64)
  else if n = 0x030 then decide (v < 2)
  else if n = 0x031 then csbackOk v
  else if n = 0x032 then csliveOk v
  else if n = 0x040 then decide (v ≤ k.ssp.toNat) && decide (v ≤ 4096)
  else if n = 0x041 then decide (v / 2 % 2 = 0)
  else if n = 0x049 then escalateOk v
  else if n = 0x060 then decide (v ≤ 2048)
  else if n = 0x061 then decide (v < 256)
  else if n = 0x062 then decide (v < 32)
  else if n = 0x070 ∨ n = 0x071 then decide (v < 8)
  else if 0x080 ≤ n ∧ n < 0x090 then amvOk v
  else if 0x090 ≤ n ∧ n < 0x0A0 then decide (v < 4)
  else true

/-- Change the Harrier or the Hearth of a cluster. -/
def State.modH (s : State) (c : ClusterId) (f : Harrier → Harrier) : State := s.modCluster c (fun x => { x with h := f x.h })
def State.modM (s : State) (c : ClusterId) (f : Hearth → Hearth) : State := s.modCluster c (fun x => { x with m := f x.m })

/-- MODE.DET (R118): setting it cleans and invalidates both L1s; clearing it takes effect at the next instruction. -/
def State.setDet (s : State) (c : ClusterId) (on : Bool) : State :=
  if on then
    ((s.drainStores c).cleanL1 c true).modCluster c (fun x => { x with l1i := [], k := { x.k with det := true } })
  else s.modK c (fun k => { k with det := false })

/-- Write a register that keeps what is written. -/
def State.sysWrite (s : State) (c : ClusterId) (n : Nat) (v : Word) : State :=
  if n = 0x000 then s.modK c (fun k => { k with level := bitsAt v 0 2, ie := v.getLsbD 2 })
  else if n = 0x001 then s.modK c (fun k => { k with cause := bitsAt v 0 8 })
  else if n = 0x002 then s.modK c (fun k => { k with tval := v })
  else if n = 0x003 then s.modK c (fun k => { k with esp := v })
  else if n = 0x005 then s.modK c (fun k => { k with irqEn := v })
  else if n = 0x006 then s.modK c (fun k => { k with timecmp := v })
  else if n = 0x030 then s.setDet c (v.getLsbD 0)
  else if n = 0x031 then s.modK c (fun k => { k with csback := v })
  else if n = 0x032 then s.modK c (fun k => { k with cslive := v })
  else if n = 0x040 then s.modK c (fun k => { k with ssp := bitsAt v 0 13 })
  else if n = 0x060 then s.modH c (fun h => { h with vl := bitsAt v 0 12 })
  else if n = 0x061 then s.modH c (fun h => { h with vctl := bitsAt v 0 8 })
  else if n = 0x062 then s.modH c (fun h => { h with vflags := bitsAt v 0 5 })
  else if n = 0x070 then s.modM c (fun m => { m with hflags := bitsAt v 0 3 })
  else if n = 0x071 then s.modM c (fun m => { m with hctl := bitsAt v 0 3 })
  else if 0x080 ≤ n ∧ n < 0x090 then
    s.modH c (fun h => h.setSlot (n - 0x080) { h.slot (n - 0x080) with value := v })
  else if 0x090 ≤ n ∧ n < 0x0A0 then
    s.modH c (fun h => h.setSlot (n - 0x090) { h.slot (n - 0x090) with nanSeen := v.getLsbD 0, infSeen := v.getLsbD 1 })
  else s

/-- Issue an MTSR of register `code`: RSVD_ENC for an unassigned number, a nonzero rd or a value the register refuses; then PRIV
where the level may not write (R134); SSPUSH pushes the value OR 1, ESCALATE enters the Owl (R99, R134, R143, R144, R146), CAUSE
and TVAL staying as they were: DEDUCED (log entry 128). -/
def State.writeSys (s : State) (c : ClusterId) (rd ra : BitVec 5) (code : BitVec 12) : State :=
  s.issue c 4 (fun s =>
    let k := s.kestrel c
    let n := code.toNat
    let v := s.g c ra
    let word := wordSY 1 rd ra code
    match sysAccess n k.level with
    | none => s.raiseWord c exRsvdEnc word
    | some (_, w) =>
      if rd ≠ 0 then s.raiseWord c exRsvdEnc word
      else if !sysValueOk k n v.toNat then s.raiseWord c exRsvdEnc word
      else if !w then s.raiseWord c exPriv word
      else if n = 0x041 then
        if k.ssp = 4096 then s.raise c exSsOverflow (v ||| 1) k.pc else (s.shadowPush c (v ||| 1)).advance c 4
      else if n = 0x049 then s.owlEntry c exEscalated v.toNat 0 k.tval k.pc
      else (s.sysWrite c n v).advance c 4)

/-- Issue an MFSR. -/
def State.readSys (s : State) (c : ClusterId) (rd ra : BitVec 5) (code : BitVec 12) : State :=
  s.issue c 4 (fun s =>
    let word := wordSY 0 rd ra code
    match sysAccess code.toNat (s.kestrel c).level with
    | none => s.raiseWord c exRsvdEnc word
    | some (r, _) =>
      if ra ≠ 0 then s.raiseWord c exRsvdEnc word
      else if !r then s.raiseWord c exPriv word
      else s.writeReg c rd (s.sysRead c code.toNat) 4)

def execMfsr (c : ClusterId) (rd ra : BitVec 5) (code : BitVec 12) (s : State) : Result :=
  .next (if s.sysWaits c code then s else s.readSys c rd ra code)
def execMtsr (c : ClusterId) (rd ra : BitVec 5) (code : BitVec 12) (s : State) : Result :=
  .next (if s.sysWaits c code then s else s.writeSys c rd ra code)
def execEscalate (c : ClusterId) (rd ra : BitVec 5) (s : State) : Result := .next (s.writeSys c rd ra 0x049)
def execSspush (c : ClusterId) (rd ra : BitVec 5) (s : State) : Result := .next (s.writeSys c rd ra 0x041)
def execModeDet (c : ClusterId) (rd ra : BitVec 5) (s : State) : Result := .next (s.writeSys c rd ra 0x030)

/-! ### ERET, TRAPI, BREAK, ILLEGAL_OP, WFI, IFLUSH -/

/-- Restore g1-g15 from frame bytes. -/
def Kestrel.setFrame (k : Kestrel) (frame : List Byte) : Kestrel :=
  (List.range 15).foldl (fun k i => k.set (BitVec.ofNat 5 (i + 1)) (BitVec.ofNat 64 (at_ frame (8 * i) 8))) k

/-- The first word with an uncorrectable error of a span of a cluster's store. -/
def Cluster.firstBad (x : Cluster) (off n : Nat) : Option Nat :=
  ((List.range (n / 8)).map (fun i => off + 8 * i)).find? (fun a => x.storeFails a 8)

/-- Restore what an ERET at S pops: the frame at ESP and the shadow-stack entry, the older stores of the buffer having drained (R321). A
PC that does not match comes before an error elsewhere in the frame (R134); where the PC or the entry itself cannot be read there is no
compare: DEDUCED (log entry 130). A frame STATUS whose LEVEL is neither J nor S breaks R97 and is taken as RSVD_ENC: DEDUCED (log
entry 21). -/
def State.eretPop (s : State) (c : ClusterId) (word : Word) : State :=
  let x := s.cluster c
  let k := x.k
  let esp := k.esp.toNat
  let frame := Mem.readBytes x.store esp 160
  let pc : Word := BitVec.ofNat 64 (at_ frame 120 8)
  let status : Word := BitVec.ofNat 64 (at_ frame 128 8)
  if k.ssp = 0 then s.raise c exCfMismatch pc k.pc
  else if storeSize < esp + 160 ∨ storeGrants .kestrel k.level .r esp 160 = false then s.raise c exRights k.esp k.pc
  else if x.storeFails (esp + 120) 8 then s.raise c exEccUncorr (BitVec.ofNat 64 ((x.firstBad esp 160).getD esp)) k.pc
  else if s.shadowBad c then s.raise c exEccUncorr (s.shadowAddr c) k.pc
  else if s.shadowTop c ≠ (pc ||| 1) then s.raise c exCfMismatch pc k.pc
  else
    match x.firstBad esp 160 with
    | some a => s.raise c exEccUncorr (BitVec.ofNat 64 a) k.pc
    | none =>
      if 1 < bitsAt status 0 2 then s.raiseWord c exRsvdEnc word
      else s.modK c (fun k => { k.setFrame frame with
        ssp := k.ssp - 1
        pc := pc
        level := bitsAt status 0 2
        ie := status.getLsbD 2
        esp := k.esp + 160 })

/-- ERET (R104, R113, R142). -/
def execEret (c : ClusterId) (rd ra : BitVec 5) (code : BitVec 12) (s : State) : Result :=
  .next (s.issue c 4 (fun s =>
    let word := wordSY 2 rd ra code
    let k := s.kestrel c
    if k.level = 2 then s.raiseWord c exIllegalOp word
    else if rd ≠ 0 ∨ ra ≠ 0 ∨ code ≠ 0 then s.raiseWord c exRsvdEnc word
    else if k.level = 0 then s.raiseWord c exPriv word
    else (s.drainStores c).eretPop c word))

def execTrapi (c : ClusterId) (rd ra : BitVec 5) (code : BitVec 12) (s : State) : Result :=
  .next (s.issue c 4 (fun s =>
    if rd ≠ 0 ∨ ra ≠ 0 then s.raiseWord c exRsvdEnc (wordSY 3 rd ra code)
    else s.raise c exTrapi (code.setWidth 64) ((s.kestrel c).pc + 4)))

def execBreakK (c : ClusterId) (rd ra : BitVec 5) (code : BitVec 12) (s : State) : Result :=
  .next (s.issue c 4 (fun s =>
    if rd ≠ 0 ∨ ra ≠ 0 then s.raiseWord c exRsvdEnc (wordSY 4 rd ra code)
    else s.raise c exBreak (code.setWidth 64) (s.kestrel c).pc))

/-- The number of FUNC values that a 64-bit major assigns (R160, R182). -/
def funcCount (major : Nat) : Nat :=
  match major with
  | 0x70 => 17 | 0x71 => 5 | 0x72 => 6 | 0x73 => 7 | 0x74 => 1 | 0x75 => 6 | 0x76 => 8 | 0x77 => 5
  | 0x78 => 1 | 0x79 => 3 | 0x7A => 2 | _ => 0

/-- Is a word's opcode or minor value unassigned (R101, R102, R161, R182)? -/
def illegalWord (w : Word) : Bool :=
  let op := (bitsAt w 0 7).toNat
  let m3 := (bitsAt w 17 3).toNat
  let m10 := (bitsAt w 22 10).toNat
  if 0x70 ≤ op then decide (funcCount op ≤ (bitsAt w 42 6).toNat)
  else if op = 1 then decide (14 ≤ m10)
  else if op = 2 ∨ op = 3 ∨ op = 4 ∨ op = 5 ∨ op = 0xD ∨ op = 0xE ∨ op = 0x14 then false
  else if op = 8 then decide (7 ≤ m3)
  else if op = 9 then decide (4 ≤ m3)
  else if op = 0xA then decide (m10 % 512 ≥ 6)
  else if op = 0xC then decide (6 ≤ m3)
  else if op = 0xF ∨ op = 0x16 then decide (3 ≤ m3)
  else if op = 0x10 then decide (7 ≤ m10)
  else if op = 0x15 then decide (6 ≤ m3)
  else true

/-- ILLEGAL_OP (R102): majors 0x70-0x7B are 64 bits long, others 32. A word that is assigned does nothing here: it is another
command. -/
def execIllegalOp (c : ClusterId) (word : Word) (s : State) : Result :=
  let op := (bitsAt word 0 7).toNat
  let long := decide (0x70 ≤ op ∧ op ≤ 0x7B)
  let w : Word := if long then word else (bitsAt word 0 32).setWidth 64
  .next (if illegalWord w then s.issue c (if long then 8 else 4) (fun s => s.raiseWord c exIllegalOp w) else s)

/-- WFI (R104, R111, R149): it waits at S, raises PRIV at J and parks the Kestrel at O. -/
def execWfi (c : ClusterId) (rd ra : BitVec 5) (code : BitVec 12) (s : State) : Result :=
  .next (s.issue c 4 (fun s =>
    let word := wordSY 5 rd ra code
    if rd ≠ 0 ∨ ra ≠ 0 ∨ code ≠ 0 then s.raiseWord c exRsvdEnc word
    else if (s.kestrel c).level = 0 then s.raiseWord c exPriv word
    else if (s.kestrel c).level = 2 then (s.advance c 4).park c
    else s.modK c (fun k => { k with pc := k.pc + 4, run := .waiting })))

/-- IFLUSH (R115): the store buffer drains and the L1I is invalidated. -/
def execIflush (c : ClusterId) (rd ra : BitVec 5) (code : BitVec 12) (s : State) : Result :=
  .next (s.issue c 4 (fun s =>
    if rd ≠ 0 ∨ ra ≠ 0 ∨ code ≠ 0 then s.raiseWord c exRsvdEnc (wordSY 6 rd ra code)
    else ((s.drainStores c).modCluster c (fun x => { x with l1i := [] })).advance c 4))

/-! ### Events at the sampling point -/

/-- TIMER (R110): the line is pending while TIME is at or past TIMECMP, which IRQ_PEND computes; the event changes nothing
else, and wakes nothing until the interrupt is sampled. -/
def execTimer (c : ClusterId) (s : State) : Result :=
  .next (s.modK c (fun k => { k with irqPend := s.irqPend k &&& 0x3E }))

/-- Is the Kestrel at a point where it samples: ready to issue, or in WFI (R111, R137)? -/
def State.atSample (s : State) (c : ClusterId) : Bool :=
  s.mayRun c && (decide ((s.kestrel c).run = .running) || decide ((s.kestrel c).run = .waiting))

/-- The lowest-numbered pending and enabled line (R110). -/
def State.irqLine (s : State) (c : ClusterId) : Nat :=
  let x := s.irqPend (s.kestrel c) &&& (s.kestrel c).irqEn
  ((List.range 6).find? (fun n => x.getLsbD n)).getD 0

/-- Entry clears the line whose event it takes; TIMER follows TIMECMP. The spec names no other way a latched line clears.
DESIGN CHOICE (log entry 22). -/
def Kestrel.takeLine (k : Kestrel) (n : Nat) : Kestrel := { k with irqPend := k.irqPend &&& ~~~ (1#64 <<< n) }

/-- The report taken first: failures before faults (R136), in the order they came. -/
def Kestrel.nextReport (k : Kestrel) : Option Report :=
  match k.reports.find? (fun r => match r with
    | .xlate _ _ _ _ => false
    | _ => true) with
  | some r => some r
  | none => k.reports.head?

/-- HARRIER_REPORT_ACCEPT (R137, R166, R167, R176): a translation fault takes the fault stop, a failure enters the Owl or S, an
FP_TRAP enters S. -/
def execHarrierReportAccept (c : ClusterId) (s : State) : Result :=
  let k := s.kestrel c
  .next (if s.atSample c && decide (k.level ≠ 2) then
    match k.nextReport with
    | none => s
    | some r =>
      let s1 := s.modK c (fun k => { k with reports := k.reports.erase r })
      match r with
      | .xlate pc tval len access => s1.faultStop c 2 pc access tval len
      | .failure cause pc tval => s1.raise c cause.toNat tval pc
      | .fpTrap pc => s1.raise c exFpTrap pc k.pc
  else s)

/-- WATCHDOG (R138): no instruction issued for 2^24 KCLK at J or S, outside WFI and stops. -/
def execWatchdog (c : ClusterId) (s : State) : Result :=
  let k := s.kestrel c
  .next (if s.mayRun c && (decide (k.level ≠ 2) && (decide (k.run = .running) || decide (k.run = .remote))) then
    s.raise c exWatchdog 0 k.pc
  else s)

/-- OWL_LIMIT (R151): an exception at O. The shared cause table has no code for it; WATCHDOG is logged. DESIGN CHOICE (log entry
23). -/
def execOwlLimit (c : ClusterId) (s : State) : Result :=
  let k := s.kestrel c
  .next (if s.mayRun c && (decide (k.level = 2) && decide (k.run ≠ .parked ∧ k.run ≠ .halted)) then
    s.clusterFatal c exWatchdog
  else s)

end Sys2Proof.Machine
end

