-- ==== Sys2Proof/Machine/MoverOps.lean ====
section
/-! DEFINITION. What a mover reads and writes (R288, R308, R315, R335-R340, R345): one side of a segment with its seal
actions, whole spans, and what each failure does to the job. -/
namespace Sys2Proof.Machine

/-! ### One side of a segment -/

/-- What a mover's reads of peers are made for: a descriptor, or a request of its queue. -/
abbrev Work := Option (StreamId × W32)

/-- Bytes of a fabric packet's data at most. -/
def packetBytes : Nat := 192

/-- Send WRITE packets for bytes of one block; the last of them carries the seal, if one is given. `fuel` bounds their number. -/
def State.sendWrites : Nat → State → ClusterId → Work → BitVec 12 → Nat → Nat → Bool → Option W32 → List Byte → State
  | 0, s, _, _, _, _, _, _, _, _ => s
  | fuel + 1, s, c, w, dev, pa, va, sealedBlk, crc, bytes =>
    match bytes with
    | [] => s
    | _ :: _ =>
      let part := bytes.take packetBytes
      let final := decide (bytes.length ≤ packetBytes)
      State.sendWrites fuel (s.sendRequest c .mover 3 dev pa part.length 0 sealedBlk (if final then crc else none) part
        .moveWrite (BitVec.ofNat 64 va) w) c w dev (pa + packetBytes) (va + packetBytes) sealedBlk crc (bytes.drop packetBytes)

/-- The seal `crc` of a block that a MIGRATE has copied is written at the new target too (R282, R283). `pa` lies in the block at the old
target, which has the same bytes; a peer gets the whole block with it. -/
def State.mirrorSeal (s : State) (a : Fin 1024) (va pa : Nat) (crc : W32) : State :=
  match s.mirrorAt a (blockSize * (va / blockSize)) with
  | none => s
  | some (ty, dev, t, idx, st) =>
    if ty = tyDevice then s.writeMem (sealAddr t) (toBytes 4 crc.toNat)
    else s.sendWrites 32 0 (some (st, idx)) (BitVec.ofNat 12 dev) (t % 2 ^ 48) (blockSize * (va / blockSize)) true
      (some crc) (s.readMem (blockOf pa) blockSize)

/-- How a mover access ends: with bytes, or with what stopped it; `eccOwn` is an error of the cluster's range cache. -/
inductive MGot where
  | bytes (b : List Byte)
  | xlate
  | violation
  | sealFail (va pa : Nat) (expected observed : W32)
  | ecc (t : Target)
  | eccOwn
  | host (kind : Nat)
  | fenced (kind number : Nat)
  | remote (dev pa : Nat) (sealedBlk : Bool)
  deriving DecidableEq, Repr

/-- Check a sealed block before any byte of it is delivered or merged. -/
def State.checkBlock (s : State) (va pa : Nat) : Option MGot :=
  if s.spanPoisoned (blockOf pa) blockSize then some (.ecc (.device pa))
  else if s.storedSeal pa = s.blockSeal pa then none
  else some (.sealFail (blockSize * (va / blockSize)) (blockOf pa) (s.storedSeal pa) (s.blockSeal pa))

/-- Read host memory line by line through a CACHEABLE range (R315). `fuel` bounds the number of lines. -/
def State.hostLines : Nat → State → Nat → Nat → Nat → Except Nat (List Byte) × State
  | 0, s, _, _, _ => (.ok [], s)
  | fuel + 1, s, f, iova, n =>
    if n = 0 then (.ok [], s)
    else
      let k := min n (64 - iova % 64)
      match s.hostLoad f iova k true with
      | (.error e, s1) => (.error e, s1)
      | (.ok bs, s1) =>
        match s1.hostLines fuel f (iova + k) (n - k) with
        | (.error e, s2) => (.error e, s2)
        | (.ok more, s2) => (.ok (bs ++ more), s2)

/-- Read `n` bytes at a target translated through address space `a`, within one 4 KiB block of it. `own` is a block of device memory that this transfer
has open: its stored seal is stale and the running value stands for it. -/
def State.moverReadAt (s : State) (c : ClusterId) (a : Fin 1024) (va : Nat) (t : Target) (e : Option RangeEntry) (n : Nat)
    (own : Option Nat) : MGot × State :=
  match t, e with
  | .store off, _ =>
    if (s.cluster c).storeFails off n then (.ecc (s.firstError c t n), s) else (.bytes (Mem.readBytes (s.cluster c).store off n), s)
  | .device pa, some r =>
    match s.fencedUnit pa with
    | some (k, u) => (.fenced k u, s)
    | none =>
      let s1 := s.countSpan a r va n
      let bad := if r.sealedR then (if own = some (blockOf pa) then none else s1.checkBlock va pa)
        else if s1.spanPoisoned pa n then some (.ecc (s1.firstError c t n)) else none
      match bad with
      | some g => (g, s1)
      | none =>
        let (b, s2) := s1.deviceRead pa n r.cacheable
        (.bytes b, s2)
  | .host f iova, some r =>
    let s1 := (linesOf va n).foldl (fun s l =>
      let at_ := max va (64 * l)
      if r.cacheable && (s.l2Find (some f) ((iova + (at_ - va)) / 64)).isSome then s else s.count a r at_) s
    match if r.cacheable then s1.hostLines (n / 64 + 2) f iova n else s1.hostRead f iova n with
    | (.error k, s2) => (.host k, s2)
    | (.ok b, s2) => (.bytes b, s2)
  | .peer dev pa, some r => (.remote dev pa r.sealedR, s.countSpan a r va n)
  | _, none => (.xlate, s)

/-- The running CRC register of a block after more bytes. -/
def crcMore (r : W32) (l : List Byte) : W32 := l.foldl (crcByte 0x82F63B78) r

/-- The running seal of an open block, in two halves: the register over the block up to the last byte written, and the share of the bytes
beyond the transfer's end, which were verified with the rest when the block was opened. -/
def openSeal (head tail : W32) : Word := (tail.setWidth 64 <<< 32) ||| head.setWidth 64

/-- The seal of a block that closes with `n` bytes beyond the transfer's end: the register is linear in its bytes. -/
def closeSeal (run : Word) (n : Nat) : W32 := ~~~ (crcMore (bitsAt run 0 32) (List.replicate n 0) ^^^ bitsAt run 32 32)

/-- The running seal of a block after a segment's bytes (R338): the other bytes count as they were when the block was opened. -/
def State.runSeal (s : State) (va pa : Nat) (bytes : List Byte) (lo hi : Nat) (run : Word) : Word :=
  let b := blockSize * (va / blockSize)
  let stop := min hi (b + blockSize)
  if va = max lo b then
    openSeal (crcMore (crcMore (BitVec.allOnes 32) (s.readMem (blockOf pa) (va - b))) bytes)
      (crcMore 0 (s.readMem (blockOf pa + (stop - b)) (b + blockSize - stop)))
  else openSeal (crcMore (bitsAt run 0 32) bytes) (bitsAt run 32 32)

/-- Write bytes at a target translated through address space `a`, within one 4 KiB block of it. `lo` and `hi` bound the whole transfer's destination:
its first write into a block that it covers in part verifies the block, its last one writes the seal, over the bytes written and the ones
verified. `none` when done, with the new running seal. -/
def State.moverWriteAt (s : State) (c : ClusterId) (a : Fin 1024) (va : Nat) (t : Target) (e : Option RangeEntry)
    (bytes : List Byte) (lo hi : Nat) (run : Word) : Option MGot × Word × State :=
  match t, e with
  | .store off, _ => (none, run, s.storeWrite c off bytes)
  | .device pa, some r =>
    match s.fencedUnit pa with
    | some (k, u) => (some (.fenced k u), run, s)
    | none =>
      let b := blockSize * (va / blockSize)
      let whole := decide (lo ≤ b) && decide (b + blockSize ≤ hi)
      let first := decide (va = max lo b)
      let last := decide (va + bytes.length = min hi (b + blockSize))
      match if r.sealedR && (!whole && first) then s.checkBlock va pa else none with
      | some g => (some g, run, s)
      | none =>
        let run' := if r.sealedR then s.runSeal va pa bytes lo hi run else run
        let s1 := ((s.countSpan a r va bytes.length).deviceWrite pa bytes r.cacheable).mirror a va bytes
        if r.sealedR && last then
          let crc := if first then s1.blockSeal pa else closeSeal run' (b + blockSize - min hi (b + blockSize))
          (none, run', (s1.writeMem (sealAddr pa) (toBytes 4 crc.toNat)).mirrorSeal a va pa crc)
        else (none, run', s1)
  | .host f iova, some r =>
    (none, run, ((s.countSpan a r va bytes.length).hostWrite f iova bytes).mirror a va bytes)
  | .peer dev pa, some r => (some (.remote dev pa r.sealedR), run, s.countSpan a r va bytes.length)
  | _, none => (some .xlate, run, s)

/-! ### Peers (R338, R381, R384, R386) -/

/-- The answers to a mover's reads that wait to be used. -/
def State.answers (s : State) (c : ClusterId) (w : Work) : List PeerReq :=
  s.fabric.requests.filter (fun r => decide (r.cluster = c) && (decide (r.mkind = .mover) && (decide (r.work = w)
    && (decide (r.purpose = .moveRead) && r.answer.isSome))))

/-- Forget the answers used. -/
def State.dropAnswers (s : State) (c : ClusterId) (w : Work) : State :=
  { s with fabric := { s.fabric with requests := s.fabric.requests.filter (fun r => !(s.answers c w).contains r) } }

/-- Does a mover wait for reads of peers? -/
def State.awaitsRead (s : State) (c : ClusterId) (w : Work) : Bool :=
  s.fabric.requests.any (fun r => decide (r.cluster = c) && (decide (r.mkind = .mover) && (decide (r.work = w)
    && (decide (r.purpose = .moveRead) && r.answer.isNone))))

/-- The byte at an address among answers. -/
def answerByte (l : List PeerReq) (va : Nat) : Option Byte :=
  match l.find? (fun r => decide (r.va.toNat ≤ va) && decide (va < r.va.toNat + r.len)) with
  | some r => (r.answer.getD [])[va - r.va.toNat]?
  | none => none

/-- Bytes among answers, if all of them are there. -/
def answerBytes (l : List PeerReq) (va n : Nat) : Option (List Byte) :=
  let bs := (List.range n).filterMap (fun i => answerByte l (va + i))
  if bs.length = n then some bs else none

/-- A sealed block among answers: verified against the seal its owner sent. -/
def State.peerBlock (s : State) (c : ClusterId) (w : Work) (va : Nat) : Option (Except MGot (List Byte)) :=
  let b := blockSize * (va / blockSize)
  let l := (s.answers c w).filter (fun r => decide (blockSize * (r.va.toNat / blockSize) = b))
  match answerBytes l b blockSize, l with
  | some bs, r :: _ => some (if r.crc = crc32c bs then .ok bs else .error (.sealFail b 0 r.crc (crc32c bs)))
  | _, _ => none

/-- What the answers give for a read. -/
def State.peerBytes (s : State) (c : ClusterId) (w : Work) (va n : Nat) (sealedBlk : Bool) : Option MGot :=
  if sealedBlk then
    match s.peerBlock c w va with
    | some (.ok bs) => some (.bytes ((bs.drop (va % blockSize)).take n))
    | some (.error g) => some g
    | none => none
  else (answerBytes (s.answers c w) va n).map MGot.bytes

/-- Write bytes within one block of a peer. `lo` and `hi` bound the whole transfer's destination, `run` is the running seal of an open
block; the answer has the new one. A block that is covered in part is read and verified first, and is written on to its end with
its last bytes. -/
def State.peerPut (s : State) (c : ClusterId) (w : Work) (va dev pa : Nat) (sealedBlk : Bool) (bytes : List Byte) (lo hi : Nat)
    (run : Word) : Option MGot × Word × State :=
  let d : BitVec 12 := BitVec.ofNat 12 dev
  if (s.requestPort .mover c d).isNone then (some (.fenced ukFabric 0), run, s)
  else if sealedBlk then
    let b := blockSize * (va / blockSize)
    let whole := decide (lo ≤ b) && decide (b + blockSize ≤ hi)
    let first := decide (va = max lo b)
    let last := decide (va + bytes.length = min hi (b + blockSize))
    let old := if whole then some (.ok []) else s.peerBlock c w va
    match old with
    | none => (some (.remote dev pa true), run, s)
    | some (.error g) => (some g, run, s)
    | some (.ok block) =>
      let head := if first then (block.take (va - b)).foldl (crcByte 0x82F63B78) (BitVec.allOnes 32) else bitsAt run 0 32
      let now := crcMore head bytes
      if last then
        let tail := block.drop (va + bytes.length - b)
        let crc := ~~~ (crcMore now tail)
        (none, now.setWidth 64, s.sendWrites 32 c w d pa va true (some crc) (bytes ++ tail))
      else (none, now.setWidth 64, s.sendWrites 32 c w d pa va true none bytes)
  else (none, run, s.sendWrites 32 c w d pa va false none bytes)

/-- Ask for the bytes of a stopped read: the whole block when it is sealed. -/
def State.askReads : Nat → State → ClusterId → Work → BitVec 12 → Nat → Nat → Nat → Bool → State
  | 0, s, _, _, _, _, _, _, _ => s
  | fuel + 1, s, c, w, dev, pa, va, n, sealedBlk =>
    if n = 0 then s
    else
      let k := min n packetBytes
      State.askReads fuel (s.sendRequest c .mover 1 dev pa k 0 sealedBlk none [] .moveRead (BitVec.ofNat 64 va) w) c w dev
        (pa + k) (va + k) (n - k) sealedBlk

/-! ### Both sides -/

/-- Read through a translated side. -/
def State.readThrough (s : State) (c : ClusterId) (w : Work) (va : Nat) (t : Target) (e : Option RangeEntry) (n : Nat)
    (own : Option Nat) : MGot × State :=
  match t, e with
  | .peer dev pa, some r =>
    match s.peerBytes c w va n r.sealedR with
    | some g => (g, s)
    | none => (.remote dev pa r.sealedR, s.countSpan (s.aspOf c) r va n)
  | _, _ => s.moverReadAt c (s.aspOf c) va t e n own

/-- Write through a translated side. -/
def State.writeThrough (s : State) (c : ClusterId) (w : Work) (va : Nat) (t : Target) (e : Option RangeEntry) (bytes : List Byte)
    (lo hi : Nat) (run : Word) : Option MGot × Word × State :=
  match t, e with
  | .peer dev pa, some r =>
    match s.peerPut c w va dev pa r.sealedR bytes lo hi run with
    | (none, run', s1) => (none, run', (s1.countSpan (s1.aspOf c) r va bytes.length).mirror (s1.aspOf c) va bytes)
    | x => x
  | _, _ =>
    s.moverWriteAt c (s.aspOf c) va t e bytes lo hi run

/-- Read `n` bytes within a 4 KiB block through the job's address space. -/
def State.moverRead (s : State) (c : ClusterId) (w : Work) (va : Word) (n : Nat) : MGot × State :=
  match s.access c .mover .mover .r va n with
  | (.fault, s1) => (.xlate, s1)
  | (.violation, s1) => (.violation, s1)
  | (.ecc, s1) => (.eccOwn, s1)
  | (.ok t e, s1) => s1.readThrough c w va.toNat t e n none

/-- Write bytes within a 4 KiB block through the job's address space. -/
def State.moverWrite (s : State) (c : ClusterId) (w : Work) (va : Word) (bytes : List Byte) (lo hi : Nat) : Option MGot × State :=
  match s.access c .mover .mover .w va bytes.length with
  | (.fault, s1) => (some .xlate, s1)
  | (.violation, s1) => (some .violation, s1)
  | (.ecc, s1) => (some .eccOwn, s1)
  | (.ok t e, s1) =>
    match s1.writeThrough c w va.toNat t e bytes lo hi 0 with
    | (g, _, s2) => (g, s2)

/-- Bytes from an address to the end of its 4 KiB block. -/
def toBlockEnd (va : Nat) : Nat := blockSize - va % blockSize

/-- Where a span failed, and how. -/
structure SpanStop where
  va : Nat
  len : Nat
  how : MGot
  deriving DecidableEq, Repr

/-- Read a span segment by segment. `fuel` bounds the number of segments. -/
def State.loadFuel : Nat → State → ClusterId → Work → Nat → Nat → Except SpanStop (List Byte) × State
  | 0, s, _, _, _, _ => (.ok [], s)
  | fuel + 1, s, c, w, va, n =>
    if n = 0 then (.ok [], s)
    else
      let k := min n (toBlockEnd va)
      match s.moverRead c w (BitVec.ofNat 64 va) k with
      | (.bytes b, s1) =>
        match s1.loadFuel fuel c w (va + k) (n - k) with
        | (.error e, s2) => (.error e, s2)
        | (.ok more, s2) => (.ok (b ++ more), s2)
      | (g, s1) => (.error ⟨va, k, g⟩, s1)

/-- Read `n` bytes from an address. -/
def State.loadSpan (s : State) (c : ClusterId) (w : Work) (va n : Nat) : Except SpanStop (List Byte) × State :=
  s.loadFuel (n / blockSize + 2) c w va n

/-- Write a span segment by segment. -/
def State.saveFuel : Nat → State → ClusterId → Work → Nat → List Byte → Nat → Nat → Option SpanStop × State
  | 0, s, _, _, _, _, _, _ => (none, s)
  | fuel + 1, s, c, w, va, bytes, lo, hi =>
    if bytes.isEmpty then (none, s)
    else
      let k := min bytes.length (toBlockEnd va)
      match s.moverWrite c w (BitVec.ofNat 64 va) (bytes.take k) lo hi with
      | (none, s1) => s1.saveFuel fuel c w (va + k) (bytes.drop k) lo hi
      | (some g, s1) => (some ⟨va, k, g⟩, s1)

/-- Write bytes from an address. -/
def State.saveSpan (s : State) (c : ClusterId) (w : Work) (va : Nat) (bytes : List Byte) : Option SpanStop × State :=
  s.saveFuel (bytes.length / blockSize + 2) c w va bytes va (va + bytes.length)

/-! ### Accesses of the device itself for a job (R56, R82) -/

/-- Read within one 4 KiB block through a job's address space, for no cluster. -/
def State.jobRead (s : State) (a : Fin 1024) (va n : Nat) : MGot × State :=
  let (e, s1) := s.walk a va
  match e with
  | none => (.xlate, s1)
  | some e =>
    if e.state = esWithdrawing then (.xlate, s1)
    else if e.r = false then (.violation, s1)
    else s1.moverReadAt 0 a va (s1.targetOf a e va) (some e) n none

/-- Write within one 4 KiB block through a job's address space, for no cluster. -/
def State.jobWrite (s : State) (a : Fin 1024) (va : Nat) (bytes : List Byte) : Option MGot × State :=
  let (e, s1) := s.walk a va
  match e with
  | none => (some .xlate, s1)
  | some e =>
    if e.state = esWithdrawing then (some .xlate, s1)
    else if e.w = false then (some .violation, s1)
    else
      match s1.moverWriteAt 0 a va (s1.targetOf a e va) (some e) bytes va (va + bytes.length) 0 with
      | (g, _, s2) => (g, s2)

/-! ### What a stop does (R287, R291, R300, R340, R343-R345, R387, R444) -/

/-- Freeze the mover of a cluster for a descriptor's access: the cause record names the descriptor. -/
def State.freezeMover (s : State) (c : ClusterId) (st : StreamId) (idx : Option W32) (cause : Nat) : State :=
  if s.frozen .mover c.val then s
  else
    ((s.holdMaster .mover c.val (s.clusterJob c) cause).postCause st idx stTalonFrozen
      (talonDetail .mover c.val)).failJob (s.stream st).job

/-- The log entry of a seal mismatch (R340, R352). -/
def State.sealEntry (s : State) (c : ClusterId) (va pa : Nat) (expected observed : W32) : LogEntry :=
  bodyPut { s.logEntry 1 0 c.val 1 with
    cause := BitVec.ofNat 8 exSealFail
    paddr := BitVec.ofNat 64 pa
    expected := expected
    observed := observed
    aspace := BitVec.ofNat 16 (s.aspOf c).val } 48 8 va

/-- The log entry of an uncorrectable error that a mover consumed (R345, R353). -/
def State.eccEntry (s : State) (c : ClusterId) : Target → LogEntry
  | .store off => bodyPut (bodyPut { s.logEntry 4 0 c.val 1 with cause := BitVec.ofNat 8 exEccUncorr } 48 1 7) 56 8
      (off / 8 * 8)
  | .device pa => bodyPut (bodyPut { s.logEntry 4 0 c.val 1 with
      cause := BitVec.ofNat 8 exEccUncorr
      paddr := BitVec.ofNat 64 (pa / 64 * 64) } 48 1 (if (s.l2Find none (pa / 64)).isSome then 0x0D else 0x0F)) 56 8 (pa / 64 * 64)
  | _ => s.logEntry 4 0 c.val 1

/-- A failure of a mover access other than a translation fault fails the job of the descriptor or request it served. A
VIOLATION by a peer comes as `violation` too. -/
def State.moverFails (s : State) (c : ClusterId) (st : StreamId) (idx : Option W32) : MGot → State
  | .violation => s.freezeMover c st idx fcRights
  | .host _ => s.freezeMover c st idx fcHostError
  | .sealFail va pa expected observed =>
    ((s.postCause st idx stSealFail (va % 2 ^ 32)).suspectLog c (s.sealEntry c va pa expected observed)).failJob
      (s.stream st).job
  | .ecc t => ((s.suspectLog c (s.eccEntry c t)).logSource (some (s.stream st).job) t).failJob (s.stream st).job
  | .fenced k u => (s.postCause st idx stFenced (k + 256 * u)).failJob (s.stream st).job
  | .remote _ _ _ => (s.postCause st idx stFenced ukFabric).failJob (s.stream st).job
  | .eccOwn => (s.suspect c).failJob (s.stream st).job
  | .xlate => s.failJob (s.stream st).job
  | .bytes _ => s

/-- The log entry of a seal mismatch that no cluster's mover found (R340, R351): SOURCE is the Steward's, the job is known. DESIGN CHOICE
(log entry 115). -/
def State.jobSealEntry (s : State) (j : JobId) (va pa : Nat) (expected observed : W32) : LogEntry :=
  bodyPut { s.logEntry 1 6 0 1 with
    cause := BitVec.ofNat 8 exSealFail
    job := BitVec.ofNat 8 j.val
    attempt := s.attemptOf j
    paddr := BitVec.ofNat 64 pa
    expected := expected
    observed := observed
    aspace := BitVec.ofNat 16 (((s.job j).map (·.aspace.val)).getD 0) } 48 8 va

/-- The cluster whose mover stands for the device's own accesses for a job: the one of its lowest job cluster index, else cluster 0.
DESIGN CHOICE (log entry 40). -/
def State.jobMover (s : State) (j : JobId) : ClusterId :=
  match (List.range 48).filterMap (fun i => s.jciCluster j (BitVec.ofNat 6 i)) with
  | c :: _ => c
  | [] => 0

/-- An access that the device made itself for a job violates rights or meets an error of the host (R286, R300, R302): a mover is held in
Talon, the cause record names it, and the job fails. -/
def State.jobFreeze (s : State) (st : StreamId) (idx : Option W32) (cause : Nat) : State :=
  let j := (s.stream st).job
  let c := s.jobMover j
  ((s.holdMaster .mover c.val (some j) cause).postCause st idx stTalonFrozen (talonDetail .mover c.val)).failJob j

/-- A failure of an access that the device makes itself for a job, other than a translation fault of a descriptor (R9, R56, R82,
R300, R340, R345). -/
def State.jobStops (s : State) (st : StreamId) (idx : Option W32) : MGot → State
  | .sealFail va pa expected observed =>
    ((s.postCause st idx stSealFail (va % 2 ^ 32)).addLog (s.jobSealEntry (s.stream st).job va pa expected observed)).failJob
      (s.stream st).job
  | .ecc t => (s.logSource (some (s.stream st).job) t).failJob (s.stream st).job
  | .fenced k u => (s.postCause st idx stFenced (k + 256 * u)).failJob (s.stream st).job
  | .remote _ _ _ => (s.postCause st idx stFenced ukFabric).failJob (s.stream st).job
  | .bytes _ => s
  | .violation => s.jobFreeze st idx fcRights
  | .host _ => s.jobFreeze st idx fcHostError
  | .eccOwn => s.failJob (s.stream st).job
  | .xlate => s.failJob (s.stream st).job

/-- Did a read stop for bytes of a peer? -/
def SpanStop.isRemote (x : SpanStop) : Bool :=
  match x.how with
  | .remote _ _ _ => true
  | _ => false

/-- Reads of a peer are sent for a mover that stopped on them; what it does is taken up again once they are answered. -/
def State.askMover (s : State) (c : ClusterId) (w : Work) (st : StreamId) (idx : Option W32) (x : SpanStop) : State :=
  match x.how with
  | .remote dev pa sealedBlk =>
    let d : BitVec 12 := BitVec.ofNat 12 dev
    if (s.requestPort .mover c d).isNone then s.moverFails c st idx x.how
    else if sealedBlk then
      s.askReads 32 c w d (blockOf pa) (blockSize * (x.va / blockSize)) blockSize true
    else s.askReads 32 c w d pa x.va x.len false
  | _ => s

/-- A descriptor's access stops: reads of a peer are asked for, a translation fault suspends it and is posted for the mover, anything
else fails the job. -/
def State.moverStops (s : State) (c : ClusterId) (st : StreamId) (idx : W32) (access : BitVec 4) (x : SpanStop) : State :=
  match x.how with
  | .xlate =>
    let id := s.sched.nextFault
    (s.modDesc st idx (fun d => { d with heldBy := some id })).postFault st 3 (some c) access (BitVec.ofNat 64 x.va)
      x.len (some idx)
  | .remote _ _ _ => s.askMover c (some (st, idx)) st (some idx) x
  | g => s.moverFails c st (some idx) g

end Sys2Proof.Machine
end

