-- ==== Sys2Proof/Machine/Periods.lean ====
section
/-! DEFINITION. Periods (R53-R58): the contexts of a stream, AMAX snapshots, the period boundary, the drop and the budget. -/
namespace Sys2Proof.Machine

/-- Is a cluster a context of a stream: it runs a share of it, or, running none, last ran one or has run none? -/
def State.isContext (s : State) (st : StreamId) (c : ClusterId) : Bool :=
  let x := s.cluster c
  match x.share with
  | some sh => decide (sh.st = st)
  | none => decide (x.stream = some st) || x.stream.isNone

/-- The held clusters that are contexts of a stream (R56, R57). -/
def State.contextsOf (s : State) (st : StreamId) : List ClusterId :=
  (s.jobClusters (s.stream st).job).filter (fun c => s.isContext st c)

/-- The job cluster index of a held cluster. -/
def State.jciOf (s : State) (c : ClusterId) : Nat :=
  match (s.cluster c).job with
  | some (_, i) => i.toNat
  | none => 0

/-- The addresses of a job's context image and snapshot (R34). -/
def Job.imageVa (j : Job) (jci : Nat) : Nat := j.saveVa.toNat + imageSize * jci
def Job.snapshotVa (j : Job) (jci : Nat) : Nat := j.saveVa.toNat + imageSize * j.maxCl.toNat + snapshotSize * jci

/-- A failed move of a context or snapshot is a failure of the job (R9, R56, R125, R126, R295), whatever stopped it. -/
def State.contextFails (s : State) (c : ClusterId) (x : SpanStop) : State :=
  match (s.cluster c).job with
  | some (j, _) =>
    match s.clusterWork c with
    | some (st, _) => s.moverFails c st none x.how
    | none => s.failJob j
  | none => s

/-- Write the AMAX snapshot of a held cluster (R56). -/
def State.writeSnapshot (s : State) (c : ClusterId) : State :=
  match (s.cluster c).job with
  | some (j, i) =>
    match s.job j with
    | some x =>
      match s.saveSpan c none (x.snapshotVa i.toNat) (amaxBytes (s.cluster c).h) with
      | (none, s1) => s1.modJob j (fun y => { y with
          snapshots := if y.snapshots.contains i then y.snapshots else i :: y.snapshots })
      | (some e, s1) => s1.contextFails c e
    | none => s
  | none => s

/-- A slot region that breaks R217 fails the job. -/
def State.loadSlots (s : State) (c : ClusterId) (b : List Byte) : State :=
  if amaxOk b then s.modCluster c (fun x => { x with h := { x.h with amax := amaxOf b } })
  else
    match (s.cluster c).job with
    | some (j, _) => s.failJob j
    | none => s

/-- AMAX slots revert to the period-start snapshot; a cluster granted since has none, and its slots take the value of the
grant (R57 step 4). -/
def State.revertAmax (s : State) (c : ClusterId) : State :=
  match (s.cluster c).job with
  | some (j, i) =>
    match s.job j with
    | some x =>
      if x.snapshots.contains i then
        match s.loadSpan c none (x.snapshotVa i.toNat) snapshotSize with
        | (.ok b, s1) => s1.loadSlots c b
        | (.error e, s1) => s1.contextFails c e
      else s.modCluster c (fun y => { y with h := { y.h with amax := [] } })
    | none => s
  | none => s

/-- Write the snapshot of a saved context (R56): its AMAX slots are in the AMAX region of its image. -/
def State.savedSnapshot (s : State) (st : StreamId) (j : JobId) (i : BitVec 6) : State :=
  match s.job j with
  | none => s
  | some x =>
    match s.jobRead x.aspace (x.imageVa i.toNat + 0x35800) snapshotSize with
    | (.bytes b, s1) =>
      if amaxOk b then
        match s1.jobWrite x.aspace (x.snapshotVa i.toNat) b with
        | (none, s2) => s2.modJob j (fun y => { y with
            snapshots := if y.snapshots.contains i then y.snapshots else i :: y.snapshots })
        | (some g, s2) => s2.jobStops st none g
      else s1.failJob j
    | (g, s1) => s1.jobStops st none g

/-- The saved contexts of a stream. -/
def State.savedOf (s : State) (st : StreamId) : List SavedContext :=
  match s.job (s.stream st).job with
  | some x => x.saved.filter (fun v => decide (v.stream = some st) || v.stream.isNone)
  | none => []

/-- A period begins: the charge restarts, the table priority returns and a snapshot of every context of the stream, held or saved, is
taken (R49, R56). -/
def State.startPeriod (s : State) (st : StreamId) : State :=
  let s1 := s.modStream st (fun x => { x with charge := 0, demoted := false })
  let s2 := (s1.contextsOf st).foldl (fun s c => if (s.cluster c).restoring then s else s.writeSnapshot c) s1
  ((s1.savedOf st).foldl (fun s v => s.savedSnapshot st (s1.stream st).job v.jci) s2).settle st

/-- A period of a stream begins at this tick: its doorbell line is read then (R71), and it begins. -/
def State.beginPeriod (s : State) (st : StreamId) : State := (s.askLine (lineOf st)).startPeriod st

/-- Work of an ended period that a drop completes: not the job's own start or abort, nor a table operation that has begun
(R57, R277). -/
def Stream.drops (x : Stream) (d : Desc) : Bool :=
  !d.isFinished && (!d.isAbort && (decide (d.opcode ≠ opJobStart) && (!d.tableBegun && before32 d.period x.current)))

/-- A halted stream takes no part in period processing once every descriptor below the halting one has its record (R44). -/
def Stream.quiet (x : Stream) : Bool :=
  x.halted && x.descs.all (fun d =>
    match d.phase with
    | .finished status _ _ _ => decide (status = BitVec.ofNat 8 stBadDescriptor)
    | _ => false)

/-- Is work of an ended period incomplete? -/
def Stream.incomplete (x : Stream) : Bool :=
  x.descs.any (fun d => x.drops d || (d.tableBegun && before32 d.period x.current))

/-- PERIOD_BOUNDARY (R53, R57). On a stream whose period 0 has not begun it begins it. A boundary that finds a drop still
running only ends one more period for it. -/
def execPeriodBoundary (st : StreamId) (s : State) : Result :=
  let x := s.stream st
  let base := (s.job x.job).bind (·.base)
  .next (
    if s.ready = false ∨ x.enabled = false ∨ x.periodic = false ∨ x.quiet ∨ base.isNone then s
    else if x.periodOpen = false then
      (s.setStream st { x with periodOpen := true, current := 0 }).beginPeriod st
    else
      let y := { x with current := x.current + 1 }
      if x.phase = .dropping then (s.setStream st y).askLine (lineOf st)
      else if y.incomplete then ((s.setStream st { y with phase := .dropping }).settleJob x.job).askLine (lineOf st)
      else (s.setStream st y).beginPeriod st)

/-- Have the transactions of a stream's contexts, and those that what it drops waits for (R260, R284), completed, and has every context
at O parked (R57 step 3, R153)? -/
def State.dropQuiet (s : State) (st : StreamId) : Bool :=
  (s.contextsOf st).all (fun c =>
    let k := (s.cluster c).k
    (decide (k.level ≠ 2) || decide (k.run = .parked ∨ k.run = .halted))
      && !s.fabric.requests.any (fun r => decide (r.cluster = c) && r.answer.isNone))
    && (s.stream st).descs.all (fun d => !(s.stream st).drops d || s.undoReady st d)

/-- Leave DROPPING once every LATE_DROPPED record is written (R94), and go on with an abort that waited (R60). -/
def State.leaveDrop (s : State) (st : StreamId) : State :=
  let x := s.stream st
  if x.phase = .dropping ∧ x.dropWait ∧ x.descs.all (fun d => !(d.isFinished && before32 d.period x.current)) then
    ((s.setStream st { x with phase := .idle, dropWait := false }).startPeriod st).continueAbort x.job
  else s

/-- DROP_COMPLETE (R57 steps 3-7). -/
def execDropComplete (st : StreamId) (s : State) : Result :=
  let x := s.stream st
  .next (
    if s.ready = false ∨ x.phase ≠ .dropping ∨ x.dropWait ∨ s.dropQuiet st = false then s
    else
      let asp := ((s.job x.job).map (·.aspace)).getD 0
      let s0 := s.forget (fun r => (r.work.map (·.1)) = some st || (s.contextsOf st).contains r.cluster)
      let s1 := (s0.contextsOf st).foldl (fun s c => s.discardContext c) s0
      let s2 := s1.modJob x.job (fun j => { j with saved := j.saved.filter (fun v => decide (v.stream ≠ some st)) })
      let s3 := (s2.contextsOf st).foldl (fun s c => s.revertAmax c) s2
      let s4 := x.descs.foldl (fun s d => if x.drops d then s.revertDesc asp st d else s) s3
      let s5 := s4.modStream st (fun y => { y with
        dropWait := true
        descs := y.descs.map (fun d => if y.drops d then
          { d with phase := .finished (BitVec.ofNat 8 stLateDropped) 0 (s.attemptOf x.job) none } else d) })
      let s6 := (s5.flushStream st).voidFaults (fun f => decide (f.stream = st) && before32 f.period x.current)
      s6.leaveDrop st)

/-- BUDGET_EXHAUSTED (R49): the charge has reached a budget that is not unlimited. -/
def execBudgetExhausted (st : StreamId) (s : State) : Result :=
  let x := s.stream st
  .next (if x.enabled && (x.periodic && (decide (x.budget ≠ 0) && decide (x.budget ≤ x.charge))) then
    s.setStream st { x with demoted := true }
  else s)

end Sys2Proof.Machine
end

