-- ==== Sys2Proof/Machine/Jobs.lean ====
section
/-! DEFINITION. Admission, grants and pre-emption (R35, R45-R52), and the save and restore of contexts (R125-R129, R295). -/
namespace Sys2Proof.Machine

/-! ### Priorities and admission (R45, R50, R51) -/

/-- A job's admission priority: the highest of its streams that are not HALTED, else 0 (R45). -/
def State.admissionPrio (s : State) (j : JobId) : Nat :=
  (s.jobStreams j).foldl (fun p st =>
    let x := s.stream st
    if x.halted then p else max p x.prio.toNat) 0

/-- A stream's priority as a victim: 0 once its budget is spent (R49). -/
def Stream.victimPrio (x : Stream) : Nat := if x.demoted then 0 else x.prio.toNat

/-- Admitted jobs: between admission and the end of the attempt, and not being stripped. DEDUCED (log entry 30). -/
def Job.admitted (j : Job) : Bool :=
  !j.stripping && decide (j.phase = .running ∨ j.phase = .suspended ∨ j.phase = .restarting)

/-- The sum of MIN_CL over the other admitted jobs that a test selects. -/
def State.minSum (s : State) (j : JobId) (p : JobId → Bool) : Nat :=
  (s.jobIds.map (fun o =>
    match s.job o with
    | some y => if o ≠ j ∧ y.admitted ∧ p o then y.minCl.toNat else 0
    | none => 0)).sum

/-- Does the device admit a job now (R50)? -/
def State.fits (s : State) (j : JobId) : Bool :=
  match s.job j with
  | some x => decide (s.minSum j (fun o => decide (s.admissionPrio j ≤ s.admissionPrio o)) + x.minCl.toNat ≤ s.liveCount)
  | none => false

/-- Take every cluster of a job: each is stopped to be saved; the job enters WAIT_CAPACITY once none is left (R50). -/
def State.strip (s : State) (o : JobId) : State :=
  (s.jobClusters o).foldl (fun s c => s.modCluster c (fun x =>
    if x.restoring then { Cluster.reset with
      store := x.store
      storeBad := x.storeBad
      marks := x.marks
      upsets := x.upsets
      powered := x.powered } else { x with stopped := true })) (s.modJob o (fun y => { y with stripping := true }))

/-- A stripped job that holds no cluster any more enters WAIT_CAPACITY; a restart not set up yet stays pending. -/
def State.stripped (s : State) (o : JobId) : State :=
  match s.job o with
  | some y =>
    if y.stripping ∧ (s.jobClusters o).isEmpty then
      (s.setJob o (some { y with phase := .waitCapacity, stripping := false })).postJobState o .waitCapacity y.attempt
    else s
  | none => s

/-- Bring every stream of a job to the state that follows. -/
def State.settleAll (s : State) (j : JobId) : State := (s.jobStreams j).foldl (fun s st => s.settle st) s

/-- A job enters RUNNING; the first time, its periods are reckoned from now or from its group's anchor (R53, R389). -/
def State.startRunning (s : State) (j : JobId) : State :=
  let start := if Table.get false s.sched.groupEnable j.val then Table.get 0 s.sched.groupAnchor j.val else s.tick
  (s.modJob j (fun x => { x with phase := .running, attemptPending := false, base := some (x.base.getD start) })).settleAll j

/-- A waiting job that R51 evaluates before another. -/
def State.waitsAhead (s : State) (j : JobId) : Bool :=
  s.jobIds.any (fun o => decide (((s.job o).map (·.phase)) = some .waitCapacity) && (s.fits o
    && (decide (s.admissionPrio j < s.admissionPrio o)
      || (decide (s.admissionPrio o = s.admissionPrio j) && decide (o < j)))))

/-! ### Demand and grants (R35, R46, R48, R52) -/

/-- The clusters that a descriptor demands: its NCL; a descriptor that runs on the mover of a job cluster index needs that
index held. DEDUCED for the mover's descriptors (log entry 31). -/
def Desc.demand (d : Desc) : Option Nat :=
  let op := d.opcode
  if op = opKernel ∨ op = opConvStripe ∨ op = opConvLoaf ∨ op = opPool then some (d.num 32 0 6)
  else if op = opAttn then some (d.num 50 0 6)
  else d.workJci.map (· + 1)

/-- What the descriptor that is next to begin on a stream demands. -/
def State.nextDemand (s : State) (st : StreamId) : Nat :=
  match (s.stream st).descs.find? (fun d => d.isFetched && (s.beginning st d.idx d.opcode).isSome) with
  | some d => d.demand.getD 0
  | none => 0

/-- Is a saved context one that waits for nothing but a cluster: no fault stop without its RESUME? -/
def SavedContext.ready (v : SavedContext) : Bool := v.fault.isNone || v.resumed

/-- The clusters a job demands for one of its streams: a saved context that has served no stream yet comes back with any of them. -/
def State.streamDemand (s : State) (j : JobId) (st : StreamId) : Nat :=
  match s.job j with
  | some x =>
    let saved := (x.saved.filter (fun v => v.ready && (decide (v.stream = some st) || v.stream.isNone))).length
    max (s.nextDemand st) (if saved = 0 then 0 else (s.jobClusters j).length + saved)
  | none => 0

/-- The clusters a job demands: those of its streams, and MIN_CL to start a restarted attempt. -/
def State.jobDemand (s : State) (j : JobId) : Nat :=
  match s.job j with
  | some x =>
    if x.phase = .restarting then x.minCl.toNat
    else if x.phase.runs ∧ x.stripping = false then (s.jobStreams j).foldl (fun n st => max n (s.streamDemand j st)) 0
    else 0
  | none => 0

/-- Is a cluster free to be granted (R306, R438)? -/
def State.isFree (s : State) (c : ClusterId) : Bool :=
  let x := s.cluster c
  s.isLive c && (x.job.isNone && (!s.clusterHeld c && (!(s.unit ukCluster c.val).inReset && !(s.unit ukMover c.val).inReset)))

/-- The lowest job cluster index that no held cluster or saved context carries (R52). -/
def State.freeJci (s : State) (j : JobId) (x : Job) : Option Nat :=
  (List.range x.maxCl.toNat).find? (fun i =>
    !(s.jobClusters j).any (fun c => decide (s.jciOf c = i)) && !x.saved.any (fun v => decide (v.jci.toNat = i)))

/-- The saved context of lowest job cluster index. -/
def Job.lowestSaved (x : Job) : Option SavedContext :=
  x.saved.foldl (fun best v =>
    match best with
    | none => some v
    | some b => if v.jci < b.jci then some v else some b) none

/-- The stream of a job that demands most: the one a grant is made for. -/
def State.demandingStream (s : State) (j : JobId) : Option StreamId :=
  (s.jobStreams j).foldl (fun best st =>
    match best with
    | none => if s.streamDemand j st = 0 then none else some st
    | some b => if s.streamDemand j b < s.streamDemand j st then some st else some b) none

/-- Give a free cluster to a job (R52, R117, R126, R133, R192, R217, R333, R438): its L1D is written back, a cluster without power is
powered up with a zeroed store, the runtime image is loaded into the vector window, and its units start afresh; a saved context is then
to be restored on it, else it serves the stream it was granted for. -/
def State.grant (s : State) (j : JobId) (x : Job) (c : ClusterId) (jci : Nat) (restoring : Bool) : State :=
  let s1 := (s.drainStores c).cleanL1 c true
  let y := s1.cluster c
  let s2 := s1.setCluster c { Cluster.reset with
    m := Hearth.reset.begin x.seed 0
    store := if y.powered then y.store else []
    storeBad := if y.powered then y.storeBad else []
    window := Config.runtimeWindow
    powered := true
    job := some (j, BitVec.ofNat 6 jci)
    stream := if restoring then none else s.demandingStream j
    restoring := restoring }
  if restoring then s2
  else s2.modJob j (fun z => { z with snapshots := z.snapshots.filter (fun i => decide (i.toNat ≠ jci)) })

/-- CLUSTER_GRANT (R52). -/
def execClusterGrant (j : JobId) (c : ClusterId) (s : State) : Result :=
  .next (match s.job j with
    | none => s
    | some x =>
      let held := (s.jobClusters j).length
      if s.ready ∧ s.card.stall = false ∧ s.isFree c ∧ held < x.maxCl.toNat ∧ held < s.jobDemand j then
        match x.lowestSaved with
        | some v => if (s.jobClusters j).any (fun c => decide (s.jciOf c = v.jci.toNat)) then s
          else s.grant j x c v.jci.toNat true
        | none =>
          match s.freeJci j x with
          | some i => s.grant j x c i false
          | none => s
      else s)

/-! ### Pre-emption (R46, R47) -/

/-- May pre-emption stop a cluster: held, neither stopped nor restoring, not at O (R128)? -/
def State.stoppable (s : State) (c : ClusterId) : Bool :=
  let x := s.cluster c
  x.job.isSome && (!x.stopped && (!x.restoring && (decide (x.k.level ≠ 2) && (decide (x.k.run ≠ .parked ∧ x.k.run ≠ .halted)
    && !s.inDrop c))))

/-- The job number of a held cluster. -/
def State.holder (s : State) (c : ClusterId) : Option JobId := (s.cluster c).job.map (·.1)

/-- Is a cluster of a stream in SUSPENDED_FAULT? -/
def State.suspendedVictim (s : State) (c : ClusterId) : Bool :=
  match (s.cluster c).stream with
  | some st => decide ((s.stream st).phase = .suspendedFault)
  | none => false

/-- The priority of a cluster as a victim: its stream's, or its job's admission priority when it has run none or its stream is out of
service in HALTED (R45, R46). -/
def State.clusterPrio (s : State) (c : ClusterId) : Nat :=
  match (s.cluster c).stream, s.holder c with
  | some st, some j => if (s.stream st).halted && (s.stream st).descs.isEmpty then s.admissionPrio j else (s.stream st).victimPrio
  | some st, none => (s.stream st).victimPrio
  | none, some j => s.admissionPrio j
  | none, none => 0

/-- Does a job hold more clusters than MIN_CL, not counting those being taken? -/
def State.aboveMin (s : State) (c : ClusterId) : Bool :=
  match s.holder c with
  | some j =>
    match s.job j with
    | some x => decide (x.minCl.toNat < ((s.jobClusters j).filter (fun d => !(s.cluster d).stopped)).length)
    | none => false
  | none => false

/-- The order among equal candidates: the higher job number, then the higher job cluster index, first. -/
def State.victimKey (s : State) (c : ClusterId) : Nat :=
  64 * (match s.holder c with
    | some j => j.val
    | none => 0) + s.jciOf c

/-- The candidate that one measure puts first: the least of the measure, the greatest key on a tie. -/
def State.firstVictim (s : State) (m : ClusterId → Nat) (l : List ClusterId) : Option ClusterId :=
  l.foldl (fun best c =>
    match best with
    | none => some c
    | some b => if m c < m b ∨ (m c = m b ∧ s.victimKey b < s.victimKey c) then some c else some b) none

/-- The next victim for a stream of a job with priority `p` (R46). -/
def State.victim (s : State) (j : JobId) (p : Nat) : Option ClusterId :=
  let others := allClusters.filter (fun c => s.stoppable c && decide (s.holder c ≠ some j))
  match s.firstVictim (fun _ => 0) (others.filter (fun c => s.suspendedVictim c)) with
  | some c => some c
  | none => s.firstVictim (fun c => s.clusterPrio c)
      (others.filter (fun c => decide (s.clusterPrio c < p) && s.aboveMin c))

/-- Stop victims until the demand is met. -/
def State.preempt : Nat → State → JobId → Nat → State
  | 0, s, _, _ => s
  | n + 1, s, j, p =>
    match s.victim j p with
    | some c => State.preempt n (s.modCluster c (fun x => { x with stopped := true })) j p
    | none => s

/-- The clusters that a job can come to hold without stripping another (R46, R50): those it holds, free ones, those being taken already,
and R46's victims. -/
def State.obtainable (s : State) (j : JobId) : Nat :=
  let s1 := s.preempt 48 j (s.admissionPrio j)
  ((s.jobClusters j).filter (fun c => !(s.cluster c).stopped)).length
    + (allClusters.filter (fun c => s.isFree c || (s1.cluster c).stopped)).length

/-- The admitted job of lowest priority below a job's that holds a cluster, the higher number first on a tie. -/
def State.lowestBelow (s : State) (j : JobId) : Option JobId :=
  (s.jobIds.filter (fun o =>
    (match s.job o with
      | some y => y.admitted
      | none => false) && (decide (o ≠ j ∧ s.admissionPrio o < s.admissionPrio j) && !(s.jobClusters o).isEmpty))).foldl
    (fun best o =>
      match best with
      | none => some o
      | some b => if s.admissionPrio o ≤ s.admissionPrio b then some o else some b) none

/-- Strip jobs of lower priority while R46 leaves a job too few clusters (R50). Nothing is taken here from a job that is not stripped:
R46 takes it once a stream is ready, or for a restart; DEDUCED (log entry 119). `fuel` bounds the number of jobs. -/
def State.stripFor : Nat → State → JobId → Nat → State
  | 0, s, _, _ => s
  | n + 1, s, j, need =>
    if need ≤ s.obtainable j then s
    else
      match s.lowestBelow j with
      | some o => State.stripFor n ((s.strip o).stripped o) j need
      | none => s

/-- PREEMPTION (R46, R50): a ready stream, or an admitted restart, lacks clusters and none is free; those already being taken count as
coming. -/
def execPreemption (st : StreamId) (s : State) : Result :=
  let x := s.stream st
  .next (match s.job x.job with
    | none => s
    | some y =>
      let restart := decide (y.phase = .restarting)
      let want := if restart then y.minCl.toNat else min y.maxCl.toNat (s.streamDemand x.job st)
      let coming := (allClusters.filter (fun c => (s.cluster c).stopped)).length
      let have_ := (s.jobClusters x.job).length + coming
      if s.ready ∧ s.card.stall = false ∧ (restart ∨ (y.phase.runs ∧ x.phase ≠ .suspendedFault)) ∧ have_ < want
          ∧ allClusters.any (fun c => s.isFree c) = false then
        s.preempt (want - have_) x.job (if restart then s.admissionPrio x.job else x.prio.toNat)
      else s)

/-! ### Saving a context (R125, R126, R178, R289, R295, R332) -/

/-- ABANDONED and PROGRESS of a runtime request (R289). -/
def abandonedWord (progress : Nat) : Word := BitVec.ofNat 64 (2 + 2 ^ 32 * progress)

/-- Abandon the runtime requests of a cluster's mover: their completion words are written, a write that stops is lost. -/
def State.abandonRequests (s : State) (c : ClusterId) : State :=
  ((s.cluster c).queue.foldl (fun s r =>
    (s.saveSpan c none r.completion.toNat (toBytes 8 (abandonedWord r.progress).toNat)).2) s).modCluster c
    (fun x => { x with queue := [] })

/-- Take the reports of the drain: a failure aborts the job, a fault stops the context, an FP_TRAP is taken (R178, R199). -/
def State.drainReports : Nat → State → ClusterId → State
  | 0, s, _ => s
  | n + 1, s, c =>
    match (s.kestrel c).nextReport with
    | none => s
    | some r =>
      let s1 := s.modK c (fun k => { k with reports := k.reports.erase r })
      match r with
      | .xlate pc tval len access => State.drainReports n (s1.faultStop c 2 pc access tval len) c
      | .failure cause pc tval => s1.raise c cause.toNat tval pc
      | .fpTrap pc => State.drainReports n (s1.raise c exFpTrap pc (s1.kestrel c).pc) c

/-- The bytes of cluster store and of the shadow stack that a save moves, in order, with where they go. -/
def Cluster.moves (x : Cluster) : List (Nat × Nat × Nat) :=
  (if x.k.cslive = 0 then [] else [(0, x.k.cslive.toNat, x.k.csback.toNat)])
    ++ (if x.k.ssp = 0 then [] else [(shadowBase, 8 * x.k.ssp.toNat, x.k.csback.toNat + 131072)])

/-- Write cluster-store bytes out, stopping at the first failure; with CSBACK zero the move is a translation fault (R126). -/
def State.moveOut (s : State) (c : ClusterId) : List (Nat × Nat × Nat) → Option SpanStop × State
  | [] => (none, s)
  | (off, n, va) :: rest =>
    let x := s.cluster c
    if x.k.csback = 0 then (some ⟨va, n, .xlate⟩, s)
    else if x.storeFails off n then (some ⟨off, n, .ecc (.store off)⟩,
      s.addLog (s.logCluster c (s.eccEntry c (s.firstError c (.store off) n))))
    else
      match s.saveSpan c none va (Mem.readBytes x.store off n) with
      | (none, s1) => s1.moveOut c rest
      | r => r

/-- A failure of the save: a word of cluster state with an error fails the job without a cause of a mover access (R125). -/
def State.saveFails (s : State) (c : ClusterId) (x : SpanStop) : State :=
  match x.how, s.holder c with
  | .ecc (.store _), some j => s.failJob j
  | _, _ => s.contextFails c x

/-- The cluster as its save finds it: a Kestrel in WFI is taken back to its WFI, which it takes again, DEDUCED (log entry 32);
the stores have drained, the L1D is clean, VPROG is zero unless a fault stop holds it (R175), and requests of the runtime are
abandoned. -/
def State.quietCluster (s : State) (c : ClusterId) : State :=
  let s1 := s.modK c (fun k => if k.run = .waiting then { k with pc := k.pc - 4, run := .running } else k)
  let s2 := s1.modCluster c (fun x => if x.h.vprogValid then x else { x with h := { x.h with vprogIndex := 0 } })
  ((s2.drainStores c).cleanL1 c true).abandonRequests c

/-- The cluster is free; the stream whose last context this was enters PREEMPTED (R47). -/
def State.leaveCluster (s : State) (c : ClusterId) (j : JobId) (v : SavedContext) : State :=
  let s1 := ((s.dropAnswers c none).modJob j (fun y => { y with saved := y.saved ++ [v] })).releaseCluster c
  let s2 := match v.share.map Share.st <|> v.stream with
    | some st =>
      if s1.contextSaved st then
        s1.modStream st (fun (y : Stream) => { y with phase := if y.phase = StreamPhase.active then .preempted else y.phase })
      else s1
    | none => s1
  (s2.settleJob j).stripped j

/-- What follows the move of the cluster-store bytes; `s` is the state before the save, which waits for a peer. -/
def State.afterMoveOut (s : State) (c : ClusterId) (j : JobId) (v : SavedContext) (r : Option SpanStop × State) : State :=
  match r with
  | (none, s1) => s1.leaveCluster c j v
  | (some e, s1) =>
    match e.isRemote, s.clusterWork c with
    | true, some (st, _) => s.askMover c none st none e
    | _, _ => s1.saveFails c e

/-- What follows the write of the image: the cluster-store bytes move out. -/
def State.afterImage (s : State) (c : ClusterId) (j : JobId) (v : SavedContext) (l : List (Nat × Nat × Nat))
    (r : Option SpanStop × State) : State :=
  match r with
  | (none, s1) => s.afterMoveOut c j v (s1.moveOut c l)
  | (some e, s1) => s1.saveFails c e

/-- Does the save read the structure of a mark: the registers, predicates, slots, tiles and partials? -/
def EccMark.inImage (m : EccMark) : Bool := [ecRegs, ecVregs, ecPreds, ecTiles, ecPartials].contains m.code.toNat

/-- Save the context of a stopped cluster and free it (R47, R125, R126); an uncorrectable error of its state fails the job. -/
def State.saveContext (s : State) (c : ClusterId) (j : JobId) (jci : BitVec 6) (job : Job) : State :=
  match (s.quietCluster c).readMarks c EccMark.inImage with
  | (some _, s1) => s1.failJob j
  | (none, s1) =>
    let x := s1.cluster c
    s.afterImage c j ⟨jci, x.stream, x.share, x.fault, false⟩ x.moves
      (s1.saveSpan c none (job.imageVa jci.toNat) (s1.contextImage c))

/-- CONTEXT_SAVE (R125). -/
def execContextSave (c : ClusterId) (s : State) : Result :=
  .next (if s.ready ∧ s.taken c ∧ (s.kestrel c).run ≠ .remote ∧ s.inDrop c = false
      ∧ s.awaits c .mover = false then
    let s1 := s.drainReports (s.kestrel c).reports.length c
    match (s1.cluster c).job with
    | some (j, jci) =>
      match s1.job j with
      | some x => if x.phase = .aborting ∨ (s1.kestrel c).level = 2 then s1 else s1.saveContext c j jci x
      | none => s1
    | none => s1
  else s)

/-! ### Restoring a context (R48, R125, R129, R178, R295) -/

/-- Read the saved cluster-store bytes back, as offsets in cluster store with what goes there; with CSBACK zero the move is a
translation fault (R126). -/
def State.moveIn (s : State) (c : ClusterId) (csback : Word) :
    List (Nat × Nat × Nat) → Except SpanStop (List (Nat × List Byte)) × State
  | [] => (.ok [], s)
  | (off, n, va) :: rest =>
    match if csback = 0 then (.error ⟨va, n, .xlate⟩, s) else s.loadSpan c none va n with
    | (.ok b, s1) =>
      match s1.moveIn c csback rest with
      | (.ok more, s2) => (.ok ((off, b) :: more), s2)
      | r => r
    | (.error e, s1) => (.error e, s1)

/-- Load a verified image into a cluster: its store holds nothing but what was read back, and a context saved in a fault stop
stays stopped until its RESUME. -/
def State.loadImage (s : State) (c : ClusterId) (v : SavedContext) (b : List Byte) (parts : List (Nat × List Byte)) : State :=
  s.modCluster c (fun x =>
    let k := imageKestrel b x.k.irqPend
    { x with
      k := { k with run := if v.ready then .running else .faultStop }
      h := imageHarrier b
      m := imageHearth b
      store := parts.foldl (fun m p => Mem.writeBytes m p.1 p.2) []
      storeBad := []
      l1i := []
      stream := v.stream
      share := v.share
      fault := if v.ready then none else v.fault
      restoring := false })

/-- The restored stream is ACTIVE again. -/
def State.unpreempt (s : State) (st : Option StreamId) (j : JobId) : State :=
  match st with
  | some st => (s.modStream st (fun (y : Stream) => { y with phase := if y.phase = .preempted then .active else y.phase })).settleJob j
  | none => s

/-- CONTEXT_RESTORE (R48): nothing of an image that does not verify is loaded, and the job fails with SEAL_FAIL, DETAIL the image's
address. DEDUCED (log entry 33). -/
def execContextRestore (c : ClusterId) (s : State) : Result :=
  let x := s.cluster c
  .next (match x.job with
    | some (j, jci) =>
      match s.job j with
      | none => s
      | some y =>
        match y.saved.find? (fun v => decide (v.jci = jci)) with
        | none => s
        | some v =>
          if s.ready ∧ x.restoring ∧ y.phase.runs ∧ s.awaits c .mover = false then
            match s.loadSpan c none (y.imageVa jci.toNat) imageSize with
            | (.error e, s1) => s1.contextFails c e
            | (.ok b, s1) =>
              if imageOk b then
                let k := imageKestrel b 0
                match s1.moveIn c k.csback ({ Cluster.reset with k := k }).moves with
                | (.error e, s2) =>
                  match e.isRemote, v.stream with
                  | true, some st => s.askMover c none st none e
                  | _, _ => s2.contextFails c e
                | (.ok parts, s2) =>
                  let s3 := (s2.loadImage c v b parts).modJob j (fun z => { z with
                    saved := z.saved.filter (fun u => decide (u.jci ≠ jci)) })
                  (s3.dropAnswers c none).unpreempt v.stream j
              else
                match v.stream with
                | some st => (s1.postCause st none stSealFail (y.imageVa jci.toNat)).failJob j
                | none => (s1.causeOf c stSealFail (y.imageVa jci.toNat)).failJob j
          else s
    | none => s)

end Sys2Proof.Machine
end

