-- ==== Sys2Proof/Machine/Validate.lean ====
section
/-! DEFINITION. What a descriptor must satisfy when it is fetched (R73, R75, R95, R479): the header, and the payload of each
opcode. A check is an offset and whether it fails; the DETAIL of BAD_DESCRIPTOR is the lowest failing offset. -/
namespace Sys2Proof.Machine

/-- The opcodes of R74. -/
def knownOpcode (op : Nat) : Bool :=
  [opNop, opJobStart, opJobEnd, opFence, opTimestamp, opPeriodMark, opCodeSync, opKernel, opCopy, opConvert, opConvStripe,
   opConvLoaf, opPool, opAttn, opKvAppend, opRangeUpdate, opWithdraw, opMigrate, opResume, opCheckpoint].contains op

/-- A number in a descriptor. -/
def descNum (x : Line) (b lo len : Nat) : Nat := (fieldAt x b lo len).toNat

/-- The header checks (R73, R75, R83). `position` is the period that the descriptor's place assigns to it (R54). -/
def headerChecks (periodic : Bool) (position : W32) (x : Line) : List (Nat × Bool) :=
  let op := descNum x 0 0 8
  [(0, !knownOpcode op || (decide (op = opPeriodMark) && !periodic)),
   reservedBits x 1 3 5,
   (4, decide (fieldAt x 4 0 32 ≠ if periodic then position else 0))]
    ++ reservedBytes x 8 8

/-- The 12 low bits of an address are reserved; so are 6 low bits. -/
def pageBits (x : Line) (b : Nat) : List (Nat × Bool) := [reservedBits x b 0 8, reservedBits x (b + 1) 0 4]
def lineBits (x : Line) (b : Nat) : List (Nat × Bool) := [reservedBits x b 0 6]

/-- Does a number lie outside 1 to the job's MAX_CL? While no job exists only zero fails. -/
def nclBad (maxCl : Option Nat) (n : Nat) : Bool :=
  decide (n = 0) || (match maxCl with
    | some m => decide (m < n)
    | none => false)
/-- Is a job cluster index not below MAX_CL? -/
def jciBad (maxCl : Option Nat) (n : Nat) : Bool :=
  match maxCl with
  | some m => decide (m ≤ n)
  | none => false

/-- COPY (R327). -/
def copyChecks (maxCl : Option Nat) (x : Line) : List (Nat × Bool) :=
  let src := descNum x 16 0 64
  let dst := descNum x 24 0 64
  let n := descNum x 32 0 64
  let straddles (a : Nat) : Bool := decide (a < storeSize) && decide (storeSize < a + n)
  [(32, decide (n = 0) || decide (2 ^ 40 < n)), (40, jciBad maxCl (descNum x 40 0 6)), reservedBits x 40 6 2,
   (16, decide (n ≠ 0) && spansMeet src n dst n), (16, straddles src || straddles dst)]
    ++ reservedBytes x 41 23

/-- Is a type .k4 or .k5? -/
def isK (t : Nat) : Bool := decide (t = 9 ∨ t = 10)

/-- CONVERT (R221, R222). -/
def convertChecks (maxCl : Option Nat) (x : Line) : List (Nat × Bool) :=
  let src := descNum x 16 0 64
  let dst := descNum x 24 0 64
  let n := descNum x 32 0 32
  let st := descNum x 36 0 4
  let dt := descNum x 36 4 4
  let mode := descNum x 38 6 2
  let amax := flagAt x 38 4
  let scale := descNum x 44 0 32
  let scaleVa := descNum x 48 0 64
  [(36, decide (10 < st) || decide (10 < dt)), (32, decide (n = 0)),
   (16, decide (src % esize st ≠ 0)), (24, decide (dst % esize dt ≠ 0)),
   (16, decide (n ≠ 0) && spansMeet src (n * esize st) dst (n * esize dt)),
   (39, jciBad maxCl (descNum x 39 0 6)), reservedBits x 39 6 2, reservedBits x 37 3 5,
   (38, flagAt x 38 5 && !amax),
   (38, decide (mode = 1) && decide (scale / 2 ^ 23 % 256 = 255)),
   (36, decide (mode = 1) && (isInt st || isInt dt)),
   (36, decide (mode = 2) && decide (isK st = isK dt)),
   (36, decide (mode = 3) && (!(isK dt || decide (dt = 7)) || isInt st)),
   (38, decide (mode ≠ 3) && decide (descNum x 40 0 3 ≠ 0)), reservedBits x 40 3 5,
   (38, decide (mode ≠ 1) && decide (scale ≠ 0)),
   (38, decide (mode ≠ 2 ∧ mode ≠ 3) && decide (scaleVa ≠ 0)),
   (38, !amax && (decide (mode ≠ 3) && decide (descNum x 38 0 4 ≠ 0))),
   reservedBits x 48 0 2, reservedBits x 56 0 3]
    ++ reservedBytes x 41 3

/-- CONV_STRIPE, CONV_LOAF and POOL (R230). -/
def imageChecks (op : Nat) (maxCl : Option Nat) (x : Line) : List (Nat × Bool) :=
  let amax := flagAt x 34 4
  let pool := decide (op = opPool)
  lineBits x 16 ++ lineBits x 24 ++
  [(32, nclBad maxCl (descNum x 32 0 6)), reservedBits x 32 6 2, reservedBits x 33 5 3, reservedBits x 34 5 3,
   (33, pool && decide (descNum x 33 0 8 ≠ 0)), (34, pool && decide (descNum x 34 0 8 ≠ 0)), reservedBits x 35 6 2,
   (34, !amax && (decide (descNum x 34 0 4 ≠ 0) || decide (descNum x 35 0 6 ≠ 0))),
   (34, amax && jciBad maxCl (descNum x 35 0 6))]
    ++ reservedBytes x 36 28

/-- ATTN (R252). -/
def attnChecks (maxCl : Option Nat) (x : Line) : List (Nat × Bool) :=
  let range (n : Nat) : Bool := decide (n = 0) || decide (64 < n)
  lineBits x 16 ++ lineBits x 24 ++ lineBits x 32 ++
  [(48, range (descNum x 48 0 7)), reservedBits x 48 7 1, (49, range (descNum x 49 0 7)), reservedBits x 49 7 1,
   (50, nclBad maxCl (descNum x 50 0 6)), reservedBits x 50 6 2,
   (51, decide (descNum x 51 0 4 < 6) || decide (8 < descNum x 51 0 4)), reservedBits x 51 5 3]
    ++ reservedBytes x 52 12

/-- RANGE_UPDATE (R274). The entry itself is checked when the descriptor begins (R275). -/
def updateChecks (x : Line) : List (Nat × Bool) :=
  let op := descNum x 16 0 8
  if op = 2 then reservedBytes x 17 15 ++ reservedBytes x 40 24
  else [(16, decide (2 < op)), (56, decide (descNum x 56 0 16 ≠ 0)), (60, decide (descNum x 60 4 2 ≠ 0)),
        reservedBits x 58 5 3, reservedBits x 59 6 2, reservedBits x 60 6 2] ++ reservedBytes x 17 15

/-- Does a fabric ID lie outside the torus, unless it is the device's own (R400)? -/
def State.peerBad (s : State) (id : BitVec 12) : Bool := !s.inTorus id && decide (id ≠ s.fabId)

/-- The payload checks of an opcode (R75). -/
def State.payloadChecks (s : State) (maxCl : Option Nat) (x : Line) : List (Nat × Bool) :=
  let op := descNum x 0 0 8
  if op = opNop ∨ op = opCodeSync ∨ op = opPeriodMark then reservedBytes x 16 48
  else if op = opJobStart then
    [reservedBits x 17 6 2, reservedBits x 18 6 2, reservedBits x 19 5 3, reservedBits x 21 2 6]
      ++ reservedBytes x 22 2 ++ pageBits x 32 ++ reservedBytes x 40 24
  else if op = opJobEnd then reservedBits x 16 1 7 :: reservedBytes x 17 47
  else if op = opFence then
    [(16, decide (2 < descNum x 16 0 8)), reservedBits x 19 4 3] ++ reservedBytes x 17 1 ++ reservedBytes x 24 40
  else if op = opTimestamp then (16, decide (descNum x 16 0 3 ≠ 0)) :: reservedBytes x 24 40
  else if op = opKernel then
    [reservedBits x 16 0 2, (32, nclBad maxCl (descNum x 32 0 6)), reservedBits x 32 6 2, reservedBits x 33 1 7]
      ++ reservedBytes x 34 30
  else if op = opCopy then copyChecks maxCl x
  else if op = opConvert then convertChecks maxCl x
  else if op = opConvStripe ∨ op = opConvLoaf ∨ op = opPool then imageChecks op maxCl x
  else if op = opAttn then attnChecks maxCl x
  else if op = opKvAppend then
    lineBits x 16 ++ lineBits x 24 ++ lineBits x 32 ++
      [(40, decide (descNum x 40 0 32 = 0) || decide (4096 < descNum x 40 0 32)),
       (44, jciBad maxCl (descNum x 44 0 6)), reservedBits x 44 6 2] ++ reservedBytes x 45 19
  else if op = opRangeUpdate then updateChecks x
  else if op = opWithdraw then pageBits x 16 ++ reservedBytes x 32 32
  else if op = opMigrate then
    [(40, decide (descNum x 40 0 2 = 3)), reservedBits x 40 2 6] ++ pageBits x 16 ++ reservedBytes x 41 23
  else if op = opResume then reservedBytes x 20 44
  else
    [reservedBits x 17 4 4, (16, s.peerBad (fieldAt x 16 0 12)), reservedBits x 18 4 4, reservedBits x 19 1 7,
     (20, jciBad maxCl (descNum x 20 0 6)), reservedBits x 20 6 2] ++ reservedBytes x 21 43

/-- The DETAIL of a descriptor that fails at fetch; one of an ended period has its header checked only (R95). -/
def State.descError (s : State) (periodic late : Bool) (position : W32) (maxCl : Option Nat) (x : Line) : Option Nat :=
  match firstBad (headerChecks periodic position x) with
  | some b => some b
  | none => if late then none else firstBad (s.payloadChecks maxCl x)

/-- MAX_CL of the job of a stream, while the job exists. -/
def State.maxClOf (s : State) (st : StreamId) : Option Nat := (s.job (s.stream st).job).map (fun j => j.maxCl.toNat)

/-- Begin a descriptor whose payload is valid against the job's MAX_CL, which a descriptor fetched together with its
JOB_START has not been checked against. -/
def State.beginChecked (s : State) (st : StreamId) (idx : W32) (op : Nat) (f : Desc → State → State) : State :=
  s.begin st idx op (fun d s =>
    match firstBad (s.payloadChecks (s.maxClOf st) d.bits) with
    | some b => s.badDescriptor st idx b
    | none => f d s)

/-- Begin a descriptor that also waits for a condition of its own; a late or a bad one does not wait for it. -/
def State.beginWhen (s : State) (st : StreamId) (idx : W32) (op : Nat) (ready : Desc → Bool) (f : Desc → State → State) :
    State :=
  match s.beginning st idx op with
  | none => s
  | some d =>
    if ((s.stream st).periodic && before32 d.period (s.stream st).current)
        || (firstBad (s.payloadChecks (s.maxClOf st) d.bits)).isSome || ready d then s.beginChecked st idx op f
    else s

end Sys2Proof.Machine
end

