-- ==== Sys2Proof/Machine/Mover.lean ====
section
/-! DEFINITION. The mover: COPY, CONVERT and KV_APPEND, the requests of the runtime, and the segment each step performs (R221-R226,
R246-R250, R257, R258, R287-R290, R327, R328). -/
namespace Sys2Proof.Machine

/-! ### What runs on a mover -/

/-- The descriptors that run on a mover, and the job cluster index each names. -/
def Desc.onMover (d : Desc) : Bool := decide (d.opcode = opCopy ∨ d.opcode = opConvert ∨ d.opcode = opKvAppend)
def Desc.moverJci (d : Desc) : Nat :=
  if d.opcode = opCopy then d.num 40 0 6 else if d.opcode = opConvert then d.num 39 0 6 else d.num 44 0 6

/-- The running descriptors of a cluster's mover, by stream and ring order. -/
def State.moverDescs (s : State) (c : ClusterId) : List (StreamId × Desc) :=
  match (s.cluster c).job with
  | some (j, i) => (s.jobStreams j).flatMap (fun st =>
      ((s.stream st).descs.filter (fun d => d.isRunning && (d.onMover && decide (d.moverJci = i.toNat)))).map (fun d => (st, d)))
  | none => []

/-- May a cluster's mover work for its job? -/
def State.moverReady (s : State) (c : ClusterId) : Bool :=
  let x := s.cluster c
  s.ready && (s.isLive c && (x.powered && (!s.card.stall && (!x.stopped && (!x.restoring && (!s.frozen .mover c.val
    && (!(s.unit ukCluster c.val).inReset && (!(s.unit ukMover c.val).inReset && (match x.job with
      | some (j, _) => ((s.job j).map (·.phase.runs)) = some true
      | none => false)))))))))

/-- A cluster whose mover begins a descriptor serves its stream from then on (R47, R48), unless it runs a share. DESIGN CHOICE (log
entry 120). -/
def State.serveStream (s : State) (c : ClusterId) (st : StreamId) : State :=
  s.modCluster c (fun x => if x.share.isNone then { x with stream := some st } else x)

/-- Begin a descriptor on the mover of the cluster that holds its job cluster index, once `free` holds of what runs there. -/
def State.beginMover (s : State) (st : StreamId) (idx : W32) (op : Nat) (free : List (StreamId × Desc) → Bool)
    (f : ClusterId → Desc → State → State) : State :=
  let at_ (s : State) (d : Desc) : Option ClusterId := s.jciCluster (s.stream st).job (BitVec.ofNat 6 d.moverJci)
  s.beginWhen st idx op
    (fun d => match at_ s d with
      | some c => s.moverReady c && free (s.moverDescs c)
      | none => false)
    (fun d s => match at_ s d with
      | some c => f c d (s.serveStream c st)
      | none => s)

/-! ### One segment (R288) -/

/-- Perform one segment: both sides are translated before anything of it is issued, the source side's fault first. `f` makes the
`m` bytes written of the `n` bytes read. The answer is what was read, with the new running seal, or a stop with its ACCESS code. -/
def State.moveSegment (s : State) (c : ClusterId) (w : Work) (src n dst m lo hi : Nat) (run : Word) (f : List Byte → List Byte) :
    Except (SpanStop × BitVec 4) (List Byte × Word) × State :=
  match s.access c .mover .mover .r (BitVec.ofNat 64 src) n with
  | (.fault, s1) => (.error (⟨src, n, .xlate⟩, 1), s1)
  | (r, s1) =>
    match s1.access c .mover .mover .w (BitVec.ofNat 64 dst) m, r with
    | (.fault, s2), _ => (.error (⟨dst, m, .xlate⟩, 2), s2)
    | (.ok td ed, s2), .ok ts es =>
      let own := match td, ed with
        | .device pa, some e => if e.sealedR && decide (dst ≠ max lo (blockSize * (dst / blockSize))) then some (blockOf pa) else none
        | _, _ => none
      match s2.readThrough c w src ts es n own with
      | (.bytes b, s3) =>
        match s3.writeThrough c w dst td ed (f b) lo hi run with
        | (none, run', s4) => (.ok (b, run'), s4)
        | (some g, _, s4) => (.error (⟨dst, m, g⟩, 2), s4)
      | (g, s3) => (.error (⟨src, n, g⟩, 1), s3)
    | (_, s2), .ecc => (.error (⟨src, n, .eccOwn⟩, 1), s2)
    | (.violation, s2), .ok _ _ => (.error (⟨dst, m, .violation⟩, 2), s2)
    | (.ecc, s2), .ok _ _ => (.error (⟨dst, m, .eccOwn⟩, 2), s2)
    | (_, s2), _ => (.error (⟨src, n, .violation⟩, 1), s2)

/-- The bytes of the next segment at offset `off`. -/
def segmentLen (src dst len off : Nat) : Nat := min (len - off) (min (toBlockEnd (src + off)) (toBlockEnd (dst + off)))

/-! ### COPY (R327, R328) -/

/-- COPY begins; its segments follow. -/
def execCopy (st : StreamId) (idx : W32) (s : State) : Result :=
  .next (s.beginMover st idx opCopy (fun l => l.isEmpty) (fun _ _ s => s))

/-- The next segment of a COPY; the last one completes it. -/
def State.copyStep (s : State) (c : ClusterId) (st : StreamId) (d : Desc) : State :=
  let src := d.num 16 0 64
  let dst := d.num 24 0 64
  let len := d.num 32 0 64
  let off := d.progress
  let n := segmentLen src dst len off
  let w : Work := some (st, d.idx)
  match s.moveSegment c w (src + off) n (dst + off) n dst (dst + len) d.aux2 (fun b => b) with
  | (.error (x, a), s1) => s1.moverStops c st d.idx a x
  | (.ok (_, run), s1) =>
    let s2 := (s1.dropAnswers c w).modDesc st d.idx (fun e => { e with progress := off + n, aux2 := run })
    if off + n < len then s2 else s2.finish st d.idx stDone 0

/-! ### CONVERT (R221-R225) -/

/-- The scale exponent of DERIVE for a magnitude (R224). -/
def deriveExp (maxf : Nat) (a : Word) (margin : Nat) : Int :=
  let e : Int := match decodeF fmtF64 a.toNat with
    | .fin _ m x =>
      if m = 0 then 0
      else
        let t : Int := (bitLen maxf : Int) - bitLen m
        let fits := if 0 ≤ t then decide (m * 2 ^ t.toNat ≤ maxf) else decide (m ≤ maxf * 2 ^ (-t).toNat)
        (if fits then t - x else t - x - 1) - margin
    | _ => 0
  max (-126) (min 126 e)

/-- The largest finite magnitude that DERIVE aims at. -/
def deriveMax (t : Nat) : Nat := if t = 10 then 448 else if t = 9 then 57344 else 65504

/-- Fields of a CONVERT. -/
def Desc.cvSrc (d : Desc) : Nat := d.num 36 0 4
def Desc.cvDst (d : Desc) : Nat := d.num 36 4 4
def Desc.cvMode (d : Desc) : Nat := d.num 38 6 2
def Desc.cvSlot (d : Desc) : Nat := d.num 38 0 4
def Desc.cvRm (d : Desc) : Rm :=
  match d.num 37 0 2 with
  | 0 => .rne | 1 => .rtz | 2 => .rdn | _ => .rup
def Desc.cvFtz (d : Desc) : Bool := flagAt d.bits 37 2

/-- AMAX_RESET of a CONVERT. -/
def State.cvReset (s : State) (d : Desc) (c : ClusterId) : State :=
  if flagAt d.bits 38 5 then s.modH c (fun h => h.setSlot d.cvSlot AmaxSlot.zero) else s

/-- CONVERT begins once the mover runs no other CONVERT: DERIVE reads its slot, and AMAX_RESET zeroes it, in DERIVE once the decode scale
has been written (R224). Stage 1 is a decode scale still to be written. -/
def execConvert (st : StreamId) (idx : W32) (s : State) : Result :=
  .next (s.beginMover st idx opConvert (fun l => l.all (fun p => decide (p.2.opcode ≠ opConvert))) (fun c d s =>
    let slot := (s.cluster c).h.slot d.cvSlot
    let e := deriveExp (deriveMax d.cvDst) slot.value (d.num 40 0 3)
    let s1 := if d.cvMode = 3 then s else s.cvReset d c
    s1.modDesc st idx (fun x => { x with stage := if d.cvMode = 3 then 1 else 2, aux0 := BitVec.ofInt 64 e })))

/-- Convert one element with an exact scale, saying whether it was saturated (R211, R212). -/
def convertOne (src dst : Nat) (rm : Rm) (ftz : Bool) (k : Option FVal) (x : Nat) : Nat × FFlags × Bool :=
  let a := valueOf src ftz x
  let (p, inv) := match k with
    | some b => mulV a b
    | none => (a, false)
  let (r, fl) := match k with
    | some _ =>
      let (r, fl) := toType dst rm ftz p
      (r, fl.or (FFlags.invalid (inv || a.snan)))
    | none => convertElem src dst rm ftz none x
  let finite := match p with
    | .fin _ _ _ => true
    | _ => false
  let sat := if isStorage dst then finite && (fl.of && !(k.isNone && (isInt src && decide (dst = 9))))
    else isInt dst && (!isInt src && (!p.isNan && fl.nv))
  (r, fl, sat)

/-- The scale of an element's block (R223), and whether NV is set for a scale that is taken as 1.0. -/
def arrayScale (toK : Bool) (bits : Nat) : FVal × Bool :=
  let e : Nat := bits / 2 ^ 23 % 256
  if bits / 2 ^ 31 = 1 ∨ e = 0 ∨ e = 255 then (.fin false 1 0, true)
  else if toK then (.fin false 1 ((127 : Int) - Int.ofNat e), false)
  else (decodeF fmtF32 bits, false)

/-- The exact scale of a segment: none, FIXED, the block's or the derived one. -/
def Desc.cvScale (d : Desc) (blockScale : Nat) : Option FVal × Bool :=
  if d.cvMode = 0 then (none, false)
  else if d.cvMode = 1 then (some (ftzIn fmtF32 d.cvFtz (decodeF fmtF32 (d.num 44 0 32))), false)
  else if d.cvMode = 2 then
    let (k, nv) := arrayScale (isK d.cvDst) blockScale
    (some k, nv)
  else (some (.fin false 1 d.aux0.toInt), false)

/-- Elements of the next segment: neither side leaves its block (R223, R288), and one scale of an array serves them. -/
def Desc.cvCount (d : Desc) : Nat :=
  let n := d.progress
  let bs := esize d.cvSrc
  let bd := esize d.cvDst
  min (if d.cvMode = 2 then min (d.num 32 0 32 - n) (2048 - n % 2048) else d.num 32 0 32 - n)
    (min (toBlockEnd (d.num 16 0 64 + n * bs) / bs) (toBlockEnd (d.num 24 0 64 + n * bd) / bd))

/-- Elements of `b` bytes spelled by bytes. -/
def splitElems (b : Nat) : Nat → List Byte → List Nat
  | 0, _ => []
  | n + 1, l => ofBytes (l.take b) :: splitElems b n (l.drop b)

/-- A CONVERT's last element is written: the flag record, the gathered maximum, and DONE (R223, R225). -/
def State.convertEnd (s : State) (c : ClusterId) (st : StreamId) (d : Desc) : State :=
  let w : Work := some (st, d.idx)
  let va := d.num 56 0 64
  let rec_ := toBytes 4 d.flags.toNat ++ toBytes 4 (min d.left (2 ^ 32 - 1))
  match if va = 0 then (none, s) else s.saveSpan c w va rec_ with
  | (some x, s1) => s1.moverStops c st d.idx 2 x
  | (none, s1) =>
    let s2 := if flagAt d.bits 38 4 then
      s1.modH c (fun h =>
        let x := h.slot d.cvSlot
        h.setSlot d.cvSlot { value := if x.value.ult d.aux1 then d.aux1 else x.value
                             nanSeen := x.nanSeen || d.nan
                             infSeen := x.infSeen || d.inf })
      else s1
    (s2.dropAnswers c w).finish st d.idx stDone 0

/-- A mismatch in the mover's datapath, or in the L2 atomic unit for a descriptor (R343): the cause record, a suspect event, the abort. -/
def State.residueFails (s : State) (c : ClusterId) (st : StreamId) (idx : W32) : State :=
  ((s.postCause st (some idx) stResidueFail c.val).suspect c).failJob (s.stream st).job

/-- Convert one segment's elements. -/
def State.convertRun (s : State) (c : ClusterId) (st : StreamId) (d : Desc) (blockScale : Nat) : State :=
  let w : Work := some (st, d.idx)
  let n := d.progress
  let k := d.cvCount
  let bs := esize d.cvSrc
  let bd := esize d.cvDst
  let dst := d.num 24 0 64
  let (scale, badScale) := d.cvScale blockScale
  let conv (l : List Byte) : List (Nat × FFlags × Bool) :=
    (splitElems bs k l).map (convertOne d.cvSrc d.cvDst d.cvRm d.cvFtz scale)
  match s.moveSegment c w (d.num 16 0 64 + n * bs) (k * bs) (dst + n * bd) (k * bd) dst (dst + d.num 32 0 32 * bd)
      d.aux2 (fun l => (conv l).flatMap (fun r => toBytes bd r.1)) with
  | (.error (x, a), s1) => s1.moverStops c st d.idx a x
  | (.ok (l, run), s0) =>
    let r := conv l
    let (_, caught, s1) := s0.strike c [rwConvert] (r.foldl (fun x y => x + y.1) 0) (fun row => rowHolds row (r.foldl (fun x y => x + y.1) 0))
    if caught then s1.residueFails c st d.idx else
    let fl := (r.foldl (fun a x => a.or x.2.1) (FFlags.invalid badScale)).bits
    let slot : AmaxSlot := (splitElems bs k l).foldl (fun x v => x.gather s1.free (valueOf d.cvSrc d.cvFtz v)) ⟨d.aux1, d.nan, d.inf⟩
    let d' : Desc := { d with
      progress := n + k
      flags := d.flags ||| fl
      left := d.left + (r.filter (fun x => x.2.2)).length
      aux1 := slot.value
      nan := slot.nanSeen
      inf := slot.infSeen
      aux2 := run }
    let s2 : State := ({ s1 with free := s1.free + 1 } : State).dropAnswers c w
    let s3 := s2.modDesc st d.idx (fun _ => d')
    if n + k < d.num 32 0 32 then s3 else s3.convertEnd c st d'

/-- The next step of a CONVERT. -/
def State.convertStep (s : State) (c : ClusterId) (st : StreamId) (d : Desc) : State :=
  let w : Work := some (st, d.idx)
  if d.stage = 1 then
    match s.saveSpan c w (d.num 48 0 64) (toBytes 4 (2 ^ 23 * (127 - d.aux0.toInt).toNat)) with
    | (some x, s1) => s1.moverStops c st d.idx 2 x
    | (none, s1) => (s1.cvReset d c).modDesc st d.idx (fun e => { e with stage := 2 })
  else if d.progress = d.num 32 0 32 then s.convertEnd c st d
  else if d.cvMode = 2 then
    match s.loadSpan c w (d.num 48 0 64 + 4 * (d.progress / 2048)) 4 with
    | (.error x, s1) => s1.moverStops c st d.idx 1 x
    | (.ok b, s1) => s1.convertRun c st d (ofBytes b)
  else s.convertRun c st d 0

/-! ### The KV header and tables (R246-R250) -/

/-- Fields of a KV header. -/
def kvPt (h : Line) : Nat := if fieldAt h 1 0 8 = 0 then 256 else 16
def kvType (h : Line) : Nat := (fieldAt h 2 0 4).toNat
def kvHeads (h : Line) : Nat := (fieldAt h 3 0 8).toNat
def kvDhead (h : Line) : Nat := (fieldAt h 4 0 16).toNat
def kvKTable (h : Line) : Nat := (fieldAt h 8 0 64).toNat
def kvVTable (h : Line) : Nat := (fieldAt h 16 0 64).toNat
def kvMax (h : Line) : Nat := (fieldAt h 24 0 32).toNat
def kvPages (h : Line) : Nat := (fieldAt h 28 0 32).toNat
def kvLast (h : Line) : Nat := (fieldAt h 32 0 16).toNat
def kvFreeN (h : Line) : Nat := (fieldAt h 36 0 32).toNat
def kvFreeUsed (h : Line) : Nat := (fieldAt h 40 0 32).toNat
def kvFree (h : Line) : Nat := (fieldAt h 48 0 64).toNat
/-- Tokens that a cache holds. -/
def kvTokens (h : Line) : Nat := if kvPages h = 0 then 0 else kvPt h * (kvPages h - 1) + kvLast h

/-- Does a header keep R246, in a range of the kind it names? -/
def kvHeaderOk (h : Line) (e : Option RangeEntry) : Bool :=
  (match e with
    | some r => decide (r.type = tyDevice) && (r.r && (r.w && r.a))
    | none => false)
    && decide (fieldAt h 0 0 8 = 1) && decide ((fieldAt h 1 0 8).toNat ≤ 1)
    && decide (kvType h = 7 ∨ kvType h = 8) && decide (fieldAt h 2 4 4 = 0)
    && decide (1 ≤ kvHeads h ∧ kvHeads h ≤ 64) && decide (kvDhead h = 64 ∨ kvDhead h = 128 ∨ kvDhead h = 256)
    && decide (fieldAt h 6 0 8 = 0) && decide (fieldAt h 7 1 7 = 0)
    && decide (kvKTable h % 8 = 0) && decide (kvVTable h % 8 = 0)
    && decide (1 ≤ kvMax h ∧ kvMax h ≤ 8192) && decide (kvPages h ≤ kvMax h)
    && (if kvPages h = 0 then decide (kvLast h = 0) else decide (1 ≤ kvLast h ∧ kvLast h ≤ kvPt h))
    && decide (fieldAt h 34 0 16 = 0) && decide (kvFreeUsed h ≤ kvFreeN h) && decide (fieldAt h 44 0 32 = 0)
    && decide (kvFree h % 8 = 0) && decide (fieldAt h 56 0 64 = 0)

/-- A page table entry (R249), and whether one keeps R250. -/
def kvEntry (page count : Nat) : Nat := 1 + 2 * count + 4096 * (page / 4096)
def kvEntryOk (h : Line) (j e : Nat) : Bool :=
  decide (e % 2 = 1) && decide (e / 1024 % 4 = 0)
    && (decide (j + 1 = kvPages h) || decide (e / 2 % 512 = kvPt h))
/-- The page of an entry. -/
def kvPage (e : Nat) : Nat := 4096 * (e / 4096)

/-! ### KV_APPEND (R257, R258) -/

/-- New pages an append takes. -/
def kvNew (h : Line) (nnew : Nat) : Nat :=
  let fill := if kvPages h = 0 then kvPt h else kvLast h
  ceilDiv (nnew - (kvPt h - fill)) (kvPt h)

/-- Clear BUSY and reject the descriptor. -/
def State.kvReject (s : State) (c : ClusterId) (st : StreamId) (d : Desc) : State :=
  let va := d.num 16 0 64
  match s.loadSpan c (some (st, d.idx)) (va + 7) 1 with
  | (.ok b, s1) =>
    match s1.saveSpan c (some (st, d.idx)) (va + 7) [(nthD b 0 0) &&& 0xFE] with
    | (none, s2) => s2.badDescriptor st d.idx 16
    | (some x, s2) => s2.moverStops c st d.idx 2 x
  | (.error x, s1) => s1.moverStops c st d.idx 1 x

/-- Steps 2 and 3: read the header, check it, and capture it with the free entries and the table entries of the page that holds
LAST_FILL. -/
def State.kvCapture (s : State) (c : ClusterId) (st : StreamId) (d : Desc) : State :=
  let w : Work := some (st, d.idx)
  let va := d.num 16 0 64
  match s.loadSpan c w va 64 with
  | (.error x, s1) => s1.moverStops c st d.idx 1 x
  | (.ok b, s1) =>
    let h : Line := BitVec.ofNat 512 (ofBytes b)
    let a := kvNew h (d.num 40 0 32)
    if kvHeaderOk h (s1.entryAt (s1.aspOf c) va) = false ∨ kvMax h < kvPages h + a ∨ kvFreeN h < kvFreeUsed h + 2 * a then
      s1.kvReject c st d
    else
      let entry (s : State) (t : Nat) : Except SpanStop (List Byte) × State :=
        if kvPages h = 0 then (.ok (toBytes 8 0), s) else s.loadSpan c w (t + 8 * (kvPages h - 1)) 8
      match entry s1 (kvKTable h) with
      | (.error x, s2) => s2.moverStops c st d.idx 1 x
      | (.ok k, s2) =>
        match entry s2 (kvVTable h) with
        | (.error x, s3) => s3.moverStops c st d.idx 1 x
        | (.ok v, s3) =>
          match s3.loadSpan c w (kvFree h + 8 * kvFreeUsed h) (16 * a) with
          | (.error x, s4) => s4.moverStops c st d.idx 1 x
          | (.ok f, s4) =>
            (s4.dropAnswers c w).modDesc st d.idx (fun e => { e with
              stage := 2
              hdr := h
              pages := ((ofBytes k :: ofBytes v :: splitElems 8 (2 * a) f).map (fun x => BitVec.ofNat 64 (kvPage x))) })

/-- Step 1: set BUSY by a compare-and-swap at the L2; a set BUSY is tried again later. The header must lie in a DEVICE range. -/
def State.kvBusy (s : State) (c : ClusterId) (st : StreamId) (d : Desc) : State :=
  let va := d.num 16 0 64
  match s.access c .mover .mover .a (BitVec.ofNat 64 va) 8 with
  | (.fault, s1) => s1.moverStops c st d.idx 4 ⟨va, 8, .xlate⟩
  | (.violation, s1) => s1.moverStops c st d.idx 4 ⟨va, 8, .violation⟩
  | (.ecc, s1) => s1.moverStops c st d.idx 4 ⟨va, 8, .eccOwn⟩
  | (.ok t e, s1) =>
    match t with
    | .device _ =>
      match s1.readThrough c none va t e 8 none with
      | (.bytes b, s2) =>
        let (_, caught, s2) := s2.strike c [rwAtomic] (ofBytes b) (fun row => rowHolds row (ofBytes b))
        if caught then s2.residueFails c st d.idx
        else if flagAt (BitVec.ofNat 64 (ofBytes b)) 7 0 then s2
        else
          match s2.writeThrough c none (va + 7) (t.plus 7) (e.map (fun r => { r with counted := false })) [nthD b 7 0 ||| 1]
            (va + 7) (va + 8) 0 with
          | (none, _, s3) => (s3.modDesc st d.idx (fun x => { x with stage := 1 })).kvCapture c st { d with stage := 1 }
          | (some g, _, s3) => s3.moverStops c st d.idx 4 ⟨va, 8, g⟩
      | (g, s2) => s2.moverStops c st d.idx 4 ⟨va, 8, g⟩
    | _ => s1.badDescriptor st d.idx 16

/-- The pages of a table position: captured for the page that held LAST_FILL and for the new ones. -/
def Desc.kvPageOf (d : Desc) (j v : Nat) : Nat :=
  (nthD d.pages (2 * (j + 1 - kvPages d.hdr) + v) 0).toNat

/-- Move `n` bytes in segments that cross no 4 KiB boundary on either side, each translated on both sides first (R288). `fuel` bounds their
number; `off` is how much has been moved. -/
def State.moveFuel : Nat → State → ClusterId → Work → Nat → Nat → Nat → Nat → Word → Option (SpanStop × BitVec 4) × State
  | 0, s, _, _, _, _, _, _, _ => (none, s)
  | fuel + 1, s, c, w, src, dst, len, off, run =>
    if len ≤ off then (none, s)
    else
      let n := segmentLen src dst len off
      match s.moveSegment c w (src + off) n (dst + off) n dst (dst + len) run (fun b => b) with
      | (.error x, s1) => (some x, s1)
      | (.ok (_, run'), s1) => s1.moveFuel fuel c w src dst len (off + n) run'

/-- Move one head's run of one token. -/
def State.kvRun (s : State) (c : ClusterId) (st : StreamId) (d : Desc) (n v h : Nat) : Option (SpanStop × BitVec 4) × State :=
  let w : Work := some (st, d.idx)
  let len := 2 * kvDhead d.hdr
  let src := d.num (if v = 0 then 24 else 32) 0 64 + (n * kvHeads d.hdr + h) * len
  let pos := kvTokens d.hdr + n
  let page := d.kvPageOf (pos / kvPt d.hdr) v
  s.moveFuel 4 c w src (page + (h * kvPt d.hdr + pos % kvPt d.hdr) * len) len 0 0

/-- One entry of a table (step 5): the page that held LAST_FILL and every new page, K before V. -/
def State.kvTable (s : State) (c : ClusterId) (st : StreamId) (d : Desc) (i : Nat) : Option (SpanStop × BitVec 4) × State :=
  let h := d.hdr
  let total := kvTokens h + d.num 40 0 32
  let j := (kvPages h - 1) + i / 2
  let v := i % 2
  let base := if v = 0 then kvKTable h else kvVTable h
  match s.saveSpan c (some (st, d.idx)) (base + 8 * j)
      (toBytes 8 (kvEntry (d.kvPageOf j v) (min (kvPt h) (total - kvPt h * j)))) with
  | (some x, s1) => (some (x, 2), s1)
  | (none, s1) => (none, s1)

/-- The committed header (step 6). -/
def Desc.kvCommit (d : Desc) : Line :=
  let h := d.hdr
  let a := kvNew h (d.num 40 0 32)
  let pages := kvPages h + a
  let last := kvTokens h + d.num 40 0 32 - kvPt h * (pages - 1)
  putBits (putBits (putBits (putBits h 56 (0#8)) (8 * 28) (BitVec.ofNat 32 pages)) (8 * 32) (BitVec.ofNat 16 last))
    (8 * 40) (BitVec.ofNat 32 (kvFreeUsed h + 2 * a))

/-- The next part of an append: a run, a table entry, or the commit. The order among the runs, K heads before V heads for each
token, is a DESIGN CHOICE (log entry 38). -/
def State.kvStep (s : State) (c : ClusterId) (st : StreamId) (d : Desc) : State :=
  if d.stage = 0 then s
  else if d.stage = 1 then s.kvCapture c st d
  else
    let heads := kvHeads d.hdr
    let runs := 2 * d.num 40 0 32 * heads
    let held := if kvPages d.hdr = 0 then 0 else 1
    let entries := 2 * (kvNew d.hdr (d.num 40 0 32) + held)
    let p := d.progress
    let next (r : Option (SpanStop × BitVec 4) × State) : State :=
      match r with
      | (some (x, a), s1) => s1.moverStops c st d.idx a x
      | (none, s1) => (s1.dropAnswers c (some (st, d.idx))).modDesc st d.idx (fun e => { e with progress := p + 1 })
    if p < runs then next (s.kvRun c st d (p / (2 * heads)) (p % (2 * heads) / heads) (p % heads))
    else if p < runs + entries then next (s.kvTable c st d (p - runs))
    else
      match s.saveSpan c (some (st, d.idx)) (d.num 16 0 64) (toBytes 64 d.kvCommit.toNat) with
      | (some x, s1) => s1.moverStops c st d.idx 2 x
      | (none, s1) => s1.finish st d.idx stDone 0

/-- KV_APPEND begins with its first attempt to set BUSY. -/
def execKvAppend (st : StreamId) (idx : W32) (s : State) : Result :=
  .next (s.beginMover st idx opKvAppend (fun _ => true) (fun c d s => s.kvBusy c st d))

/-- KV_BUSY_RETRY: BUSY was found set, or the attempt took a fault that has been resumed. -/
def execKvBusyRetry (st : StreamId) (idx : W32) (s : State) : Result :=
  .next (s.continuing st idx opKvAppend (fun d s =>
    match s.jciCluster (s.stream st).job (BitVec.ofNat 6 d.moverJci) with
    | some c => if s.moverReady c && (decide (d.stage = 0) && d.heldBy.isNone) then s.kvBusy c st d else s
    | none => s))

/-! ### The runtime's requests (R289) and the segment -/

/-- MOVER_REQUEST: the runtime of a granted cluster queues a request; the mover takes 256 at most (R14), and a request that finds no place
is not made: DESIGN CHOICE (log entry 121). -/
def execMoverRequest (c : ClusterId) (src dst : Word) (len : W32) (completion : Word) (s : State) : Result :=
  .next (if s.mayRun c && decide ((s.cluster c).queue.length < 256) then
    s.modCluster c (fun x => { x with
      queue := x.queue ++ [⟨src, dst, len, completion, 0, 0, none, (s.moverDescs c).map (fun p => (p.1, p.2.idx))⟩] })
  else s)

/-- The stream and descriptor that a request serves: those of the cluster's work. -/
def State.requestStops (s : State) (c : ClusterId) (q : MoverReq) (rest : List MoverReq) (x : SpanStop) (a : BitVec 4) : State :=
  match s.clusterWork c with
  | none => s
  | some (st, idx) =>
    match x.how with
    | .xlate =>
      let id := s.sched.nextFault
      (s.modCluster c (fun y => { y with queue := { q with fault := some id } :: rest })).postFault st 3 (some c) a
        (BitVec.ofNat 64 x.va) x.len idx
    | .remote _ _ _ => s.askMover c none st idx x
    | g => s.moverFails c st idx g

/-- The next segment of the runtime's first request; after the last one its completion word is written, with a value the spec does
not give (a free value, log entry 39), and the MOVER line is raised. -/
def State.requestStep (s : State) (c : ClusterId) (q : MoverReq) (rest : List MoverReq) : State :=
  let src := q.src.toNat
  let dst := q.dst.toNat
  let len := q.len.toNat
  let off := q.progress
  if off < len then
    let n := segmentLen src dst len off
    match s.moveSegment c none (src + off) n (dst + off) n dst (dst + len) q.run (fun b => b) with
    | (.error (x, a), s1) => s1.requestStops c q rest x a
    | (.ok (_, run), s1) =>
      (s1.dropAnswers c none).modCluster c (fun x => { x with queue := { q with progress := off + n, run := run } :: rest })
  else
    let (k, s0) := s.fresh
    match s0.saveSpan c none q.completion.toNat (toBytes 8 (Config.freeWord k).toNat) with
    | (some x, s1) => s1.requestStops c q rest x 2
    | (none, s1) => (s1.dropAnswers c none).modCluster c (fun x => { x with
        queue := rest
        k := { x.k with irqPend := x.k.irqPend ||| 4 } })

/-- The running descriptors of a mover that have a segment to perform: not a KV_APPEND that still tries to set BUSY. -/
def State.moverWork (s : State) (c : ClusterId) : List (StreamId × Desc) :=
  (s.moverDescs c).filter (fun p => !(decide (p.2.opcode = opKvAppend) && decide (p.2.stage = 0)))

/-- What comes first on a mover (R289): while a runtime request is queued, the descriptors that ran when it was queued, then the request;
else the descriptors, by stream and ring order. DESIGN CHOICE for the order among descriptors (log entry 37). -/
def State.moverFirst (s : State) (c : ClusterId) : Option (StreamId × Desc) :=
  match (s.cluster c).queue with
  | [] => (s.moverWork c).head?
  | q :: _ => (s.moverWork c).find? (fun p => q.behind.contains (p.1, p.2.idx))

/-- The next segment of a COPY, a CONVERT, an append's run or a request, as source, its bytes, destination and its bytes. -/
def Desc.nextSegment (d : Desc) : Option (Nat × Nat × Nat × Nat) :=
  if d.opcode = opCopy then
    let n := segmentLen (d.num 16 0 64) (d.num 24 0 64) (d.num 32 0 64) d.progress
    some (d.num 16 0 64 + d.progress, n, d.num 24 0 64 + d.progress, n)
  else if d.opcode = opConvert then
    let n := d.progress
    some (d.num 16 0 64 + n * esize d.cvSrc, d.cvCount * esize d.cvSrc, d.num 24 0 64 + n * esize d.cvDst, d.cvCount * esize d.cvDst)
  else if d.opcode = opKvAppend ∧ d.stage = 2 then
    let heads := kvHeads d.hdr
    let len := 2 * kvDhead d.hdr
    let n := d.progress / (2 * heads)
    let v := d.progress % (2 * heads) / heads
    let h := d.progress % heads
    let pos := kvTokens d.hdr + n
    if d.progress < 2 * d.num 40 0 32 * heads then
      some (d.num (if v = 0 then 24 else 32) 0 64 + (n * heads + h) * len, len,
        d.kvPageOf (pos / kvPt d.hdr) v + (h * kvPt d.hdr + pos % kvPt d.hdr) * len, len)
    else none
  else none

/-- The next segment of a runtime request. -/
def MoverReq.nextSegment (q : MoverReq) : Option (Nat × Nat × Nat × Nat) :=
  if q.progress < q.len.toNat then
    let n := segmentLen q.src.toNat q.dst.toNat q.len.toNat q.progress
    some (q.src.toNat + q.progress, n, q.dst.toNat + q.progress, n)
  else none

/-- The side of a segment that lies in a span, the source first: its ACCESS code, first byte and byte count. -/
def spanFault (va len : Nat) : Option (Nat × Nat × Nat × Nat) → Option (BitVec 4 × Nat × Nat)
  | none => none
  | some (src, n, dst, m) =>
    if spansMeet va len src n then some (1, src, n) else if spansMeet va len dst m then some (2, dst, m) else none

/-- A mover whose next segment lies in a span that is withdrawn stops before it, with a translation fault (R298 step 3). -/
def State.withdrawMover (s : State) (c : ClusterId) (va len : Nat) : State :=
  match s.moverFirst c with
  | some (st, d) =>
    if d.heldBy.isSome then s
    else
      match spanFault va len d.nextSegment with
      | some (a, v, n) => s.moverStops c st d.idx a ⟨v, n, .xlate⟩
      | none => s
  | none =>
    match (s.cluster c).queue with
    | [] => s
    | q :: rest =>
      if q.fault.isSome then s
      else
        match spanFault va len q.nextSegment with
        | some (a, v, n) => s.requestStops c q rest ⟨v, n, .xlate⟩ a
        | none => s

/-- The next segment of a descriptor on a mover. -/
def State.descStep (s : State) (c : ClusterId) (st : StreamId) (d : Desc) : State :=
  if d.opcode = opCopy then s.copyStep c st d
  else if d.opcode = opConvert then s.convertStep c st d
  else s.kvStep c st d

/-- MOVER_SEGMENT: the next segment of what comes first on the mover. One that a fault holds, or that waits for a peer, goes no further,
nor does what stands behind it (R289). -/
def execMoverSegment (c : ClusterId) (s : State) : Result :=
  .next (if s.moverReady c then
    match s.moverFirst c with
    | some (st, d) =>
      if d.heldBy.isSome ∨ s.awaitsRead c (some (st, d.idx)) then s
      else s.continuing st d.idx d.opcode (fun d s => s.descStep c st d)
    | none =>
      match (s.cluster c).queue with
      | [] => s
      | q :: rest => if q.fault.isSome ∨ s.awaitsRead c none ∨ s.inDrop c then s else s.requestStep c q rest
  else s)

end Sys2Proof.Machine
end

