-- ==== Sys2Proof/Machine/Shares.lean ====
section
/-! DEFINITION. The shares of a descriptor on clusters (R52, R122, R193, R231, R254, R313): which clusters take them, DISPATCH, and
the end of a share. -/
namespace Sys2Proof.Machine

/-- May a descriptor's share be dispatched to a cluster: it runs, at J or S, with no share of another? -/
def State.shareless (s : State) (c : ClusterId) : Bool :=
  let x := s.cluster c
  s.mayRun c && (x.share.isNone && (decide (x.k.level ≠ 2) && decide (x.k.run = .running ∨ x.k.run = .waiting)))

/-- The clusters of a job that no descriptor runs on, in ascending job cluster index. -/
def State.idleClusters (s : State) (j : JobId) : List ClusterId :=
  (List.range 48).filterMap (fun i =>
    match s.jciCluster j (BitVec.ofNat 6 i) with
    | some c => if s.shareless c then some c else none
    | none => none)

/-- Raise DISPATCH on a cluster for a rank: its line becomes pending (R110), the L1D is invalidated and the share begins. -/
def State.raiseDispatch (s : State) (c : ClusterId) (st : StreamId) (idx : W32) (rank : Nat) : State :=
  s.modCluster c (fun x => { x with
    l1d := []
    share := some ⟨st, idx, rank, 0, 0⟩
    work := ShareWork.empty
    stream := some st
    k := { x.k with irqPend := x.k.irqPend ||| 2 } })

/-- With DISPATCH for a KERNEL the Hearth starts afresh, before the runtime starts ENTRY_VA (R193). -/
def State.beginHearth (s : State) (c : ClusterId) (rank : Nat) : State :=
  s.modCluster c (fun x => { x with m := x.m.begin (s.seedOf c) rank })

/-- What the runtime does for DISPATCH of a KERNEL (R122): ENTRY_VA starts at J with g1 to g3 set and every other register zero, in the
mode the descriptor names; ESP, SSP and IE stand as they stood before the entry. DEDUCED (log entry 35). -/
def State.startKernel (s : State) (c : ClusterId) (before : Kestrel) (d : Desc) (rank ncl : Nat) : State :=
  let s1 := s.modK c (fun k => { k with
    g := [(1, d.word 24), (2, BitVec.ofNat 64 rank), (3, BitVec.ofNat 64 ncl)]
    pc := d.word 16
    level := 0
    ie := before.ie
    esp := before.esp
    ssp := before.ssp
    run := .running })
  s1.setDet c (flagAt d.bits 33 0)

/-- The runtime answers DISPATCH once it has taken the line at S: it starts the KERNEL of the cluster's share; the share of an operator
it runs itself is that operator's KEND. -/
def State.answerDispatch (s : State) (c : ClusterId) (before : Kestrel) : State :=
  match (s.cluster c).share with
  | none => s
  | some sh =>
    match s.desc sh.st sh.idx with
    | none => s
    | some d =>
      if d.isRunning && (decide (d.opcode = opKernel) && decide ((s.kestrel c).level = 1)) then
        s.startKernel c before d sh.rank (d.num 32 0 6)
      else s

/-- INTERRUPT_ENTRY (R111, R112, R136, R168): no report waits and VPROG holds no index. DISPATCH starts the runtime's work (R122). -/
def execInterruptEntry (c : ClusterId) (s : State) : Result :=
  let k := s.kestrel c
  .next (if s.atSample c && (k.reports.isEmpty && s.irqReady c) then
    let n := s.irqLine c
    let s1 := (s.sEntry c (0x80 + n) 0 k.pc 0x100).modK c (fun k => k.takeLine n)
    if n = 1 then s1.answerDispatch c k else s1
  else s)

/-- Begin a descriptor that runs on NCL clusters of its job: one whose NCL exceeds the live clusters is bad, one that finds too few
clusters idle waits. `start` is what its share does at once on a cluster of a rank. -/
def State.beginNcl (s : State) (st : StreamId) (idx : W32) (op nclOff : Nat)
    (start : Desc → ClusterId → Nat → State → State) : State :=
  match s.beginning st idx op with
  | none => s
  | some d =>
    let x := s.stream st
    let n := d.num nclOff 0 6
    if x.periodic && before32 d.period x.current then s.finish st idx stLateDropped 0
    else
      match firstBad (s.payloadChecks (s.maxClOf st) d.bits) with
      | some b => s.badDescriptor st idx b
      | none =>
        if s.liveCount < n then s.badDescriptor st idx nclOff
        else
          let cs := (s.idleClusters x.job).take n
          if cs.length < n then s
          else s.begin st idx op (fun d s =>
            cs.zipIdx.foldl (fun s p => start d p.1 p.2 (s.raiseDispatch p.1 st idx p.2))
              (s.modDesc st idx (fun e => { e with left := n })))

/-- The clusters that a running descriptor has shares on. -/
def State.shareClusters (s : State) (st : StreamId) (idx : W32) : List ClusterId :=
  allClusters.filter (fun c => match (s.cluster c).share with
    | some sh => decide (sh.st = st) && decide (sh.idx = idx)
    | none => false)

/-- A cluster's share ends (R313): the store buffer drains, dirty lines are written back, its DISPATCH is no longer pending, and the
descriptor has one rank less to wait for; `last` finishes it. -/
def State.endShare (s : State) (c : ClusterId) (sh : Share) (last : Desc → State → State) : State :=
  let s1 := ((s.drainStores c).cleanL1 c false).modCluster c (fun x => { x with share := none, k := x.k.takeLine 1 })
  match s1.desc sh.st sh.idx with
  | none => s1
  | some d =>
    if d.isRunning then
      let s2 := s1.modDesc sh.st sh.idx (fun e => { e with left := e.left - 1 })
      if d.left ≤ 1 then last d s2 else s2
    else s1

end Sys2Proof.Machine
end

