-- ==== Sys2Proof/Machine/Image.lean ====
section
/-! DEFINITION. The image operators CONV_STRIPE, CONV_LOAF and POOL (R227-R245): the operator table and its checks, the arithmetic of a
layer, and what a rank reads, computes and writes. -/
namespace Sys2Proof.Machine

/-! ### Reads and writes of a share -/

/-- What stops the work of a share: the mover, with the span and its ACCESS code; or the runtime's Kestrel, by a translation fault, by an
exception, or by what a read gave. -/
inductive ShareStop where
  | mover (x : SpanStop) (access : BitVec 4)
  | xlate (va : Word)
  | raises (code : Nat) (va : Word)
  | got (va : Word) (t : Target) (g : Got)

/-- Work of a share: it ends with a value, or stops. -/
abbrev Run (α : Type) := ExceptT ShareStop (StateM State) α

/-- Change the state in the course of a share. -/
def runDo (f : State → State) : Run Unit := ExceptT.mk (fun s => (.ok (), f s))

/-- An access of a share. One that was made before the share stopped is not made again (R244, R288). -/
def once (c : ClusterId) (f : State → Except ShareStop (List Byte) × State) : Run (List Byte) := ExceptT.mk (fun s =>
  match (s.cluster c).work.ahead with
  | b :: rest => (.ok b, s.modCluster c (fun x => { x with work := { x.work with ahead := rest, done := x.work.done ++ [b] } }))
  | [] =>
    match f s with
    | (.ok b, s1) => (.ok b, if (s1.cluster c).share.isSome then
        s1.modCluster c (fun x => { x with work := { x.work with done := x.work.done ++ [b] } }) else s1)
    | r => r)

/-- Read one segment. -/
def loadOnce (c : ClusterId) (w : Work) (va n : Nat) : Run (List Byte) := once c (fun s =>
  match s.loadSpan c w va n with
  | (.ok b, s1) => (.ok b, s1)
  | (.error x, s1) => (.error (.mover x 1), s1))

/-- Write one segment. -/
def saveOnce (c : ClusterId) (w : Work) (va : Nat) (bytes : List Byte) : Run (List Byte) := once c (fun s =>
  match s.saveSpan c w va bytes with
  | (none, s1) => (.ok [], s1)
  | (some x, s1) => (.error (.mover x 2), s1))

/-- Read a span segment by segment; `fuel` bounds their number. -/
def loadParts (c : ClusterId) (w : Work) : Nat → Nat → Nat → Run (List Byte)
  | 0, _, _ => pure []
  | fuel + 1, va, n =>
    if n = 0 then pure []
    else do
      let b ← loadOnce c w va (min n (toBlockEnd va))
      let more ← loadParts c w fuel (va + min n (toBlockEnd va)) (n - min n (toBlockEnd va))
      return b ++ more

/-- Read a span. -/
def loadRun (c : ClusterId) (w : Work) (va n : Nat) : Run (List Byte) := loadParts c w (n / blockSize + 2) va n

/-- Write a span segment by segment. -/
def saveParts (c : ClusterId) (w : Work) : Nat → Nat → List Byte → Run Unit
  | 0, _, _ => pure ()
  | fuel + 1, va, bytes =>
    if bytes.isEmpty then pure ()
    else do
      let _ ← saveOnce c w va (bytes.take (toBlockEnd va))
      saveParts c w fuel (va + toBlockEnd va) (bytes.drop (toBlockEnd va))

/-- Write a span. -/
def saveRun (c : ClusterId) (w : Work) (va : Nat) (bytes : List Byte) : Run Unit := saveParts c w (bytes.length / blockSize + 2) va bytes

/-- The element of `size` bytes at a place of what was read. -/
def elemAt (a : Array Byte) (size i : Nat) : Nat :=
  ofBytes ((List.range size).map (fun k => a.getD (size * i + k) 0))

/-! ### Channel-blocked layouts (R227) -/

/-- Channels in a block, and bytes of a block. The table of layouts lists six types; the others take the width of a listed type of
their size, and 16 channels above that: DESIGN CHOICE (log entry 46). -/
def cbWidth (t : Nat) : Nat := if esize t = 1 then 32 else 16
def cbBytes (t : Nat) : Nat := cbWidth t * esize t
/-- Planes of a tensor, its pitches and its bytes. -/
def planesOf (t ch : Nat) : Nat := ceilDiv ch (cbWidth t)
def rowPitch (t w : Nat) : Nat := ceilDiv (w * cbBytes t) 64 * 64
def planePitch (t h w : Nat) : Nat := h * rowPitch t w
def tensorBytes (t ch h w : Nat) : Nat := planesOf t ch * planePitch t h w

/-! ### The operator table (R232-R234) -/

/-- A group record. -/
structure ImgGroup where
  out : Nat
  first : Nat
  blocks : Nat
  layer : Nat
  count : Nat
  mode : Nat
  rows : Nat
  cols : Nat
  deriving DecidableEq, Repr

/-- A layer record with its index. -/
structure ImgLayer where
  index : Nat
  type : Nat
  kh : Nat
  kw : Nat
  sy : Nat
  sx : Nat
  act : Nat
  wtype : Nat
  outType : Nat
  cout : Nat
  wgt : Nat
  bias : Nat
  scale : Nat
  deriving DecidableEq, Repr

/-- A number of `n` bytes at a byte of a table held as 64-bit words. -/
def tabNum (t : List Word) (b n : Nat) : Nat := (nthD t (b / 8) 0).toNat / 2 ^ (8 * (b % 8)) % 2 ^ (8 * n)

/-- Header fields. -/
def tabGroups (t : List Word) : Nat := tabNum t 1 1
def tabLayers (t : List Word) : Nat := tabNum t 2 1
def tabType (t : List Word) : Nat := tabNum t 3 1
def tabH (t : List Word) : Nat := tabNum t 4 2
def tabW (t : List Word) : Nat := tabNum t 6 2
def tabCin (t : List Word) : Nat := tabNum t 8 2

/-- Group record `n`; INHERIT takes the mode of the opcode. -/
def groupOf (op : Nat) (t : List Word) (n : Nat) : ImgGroup :=
  let b := 32 + 32 * n
  let m := tabNum t (b + 14) 1
  { out := tabNum t b 8, first := tabNum t (b + 8) 2, blocks := tabNum t (b + 10) 2, layer := tabNum t (b + 12) 1
    count := tabNum t (b + 13) 1, mode := if m = 0 then (if op = opConvLoaf then 2 else 1) else m
    rows := tabNum t (b + 16) 1, cols := tabNum t (b + 17) 1 }

/-- Layer record `n`. -/
def layerOf (t : List Word) (n : Nat) : ImgLayer :=
  let b := 32 + 32 * tabGroups t + 32 * n
  let k := tabNum t (b + 1) 1
  let a := tabNum t (b + 2) 1
  let y := tabNum t (b + 3) 1
  { index := n, type := tabNum t b 1, kh := k % 16, kw := k / 16, sy := 1 + a % 2, sx := 1 + a / 2 % 2, act := a / 4 % 4
    wtype := y % 16, outType := y / 16, cout := tabNum t (b + 4) 2, wgt := tabNum t (b + 8) 8, bias := tabNum t (b + 16) 8
    scale := tabNum t (b + 24) 4 }

/-- The groups, and the layers of one. -/
def groupsOf (op : Nat) (t : List Word) : List ImgGroup := (List.range (tabGroups t)).map (groupOf op t)
def chainOf (t : List Word) (g : ImgGroup) : List ImgLayer := (List.range g.count).map (fun i => layerOf t (g.layer + i))

/-- A layer at its place in a chain: the type, channels and size of its input and the size of its output. -/
structure ImgStage where
  l : ImgLayer
  t : Nat
  ch : Nat
  h : Nat
  w : Nat
  deriving DecidableEq, Repr

def ImgStage.outH (x : ImgStage) : Nat := ceilDiv x.h x.l.sy
def ImgStage.outW (x : ImgStage) : Nat := ceilDiv x.w x.l.sx
/-- Padded input channels. -/
def ImgStage.cinp (x : ImgStage) : Nat := planesOf x.t x.ch * cbWidth x.t

/-- The chain of a group as stages. -/
def stagesFrom : List ImgLayer → Nat → Nat → Nat → Nat → List ImgStage
  | [], _, _, _, _ => []
  | l :: ls, t, ch, h, w => ⟨l, t, ch, h, w⟩ :: stagesFrom ls l.outType l.cout (ceilDiv h l.sy) (ceilDiv w l.sx)
def stagesOf (t : List Word) (g : ImgGroup) : List ImgStage :=
  stagesFrom (chainOf t g) (tabType t) (g.blocks * cbWidth (tabType t)) (tabH t) (tabW t)

/-! ### Budgets (R241, R242) -/

/-- Bytes of a pixel at full padded channel width, at a layer's input and output. -/
def ImgStage.inPixel (x : ImgStage) : Nat := planesOf x.t x.ch * cbBytes x.t
def ImgStage.outPixel (x : ImgStage) : Nat := planesOf x.l.outType x.l.cout * cbBytes x.l.outType

/-- Bytes of the crust rows of a chain. -/
def crustBytes (l : List ImgStage) : Nat := (l.map (fun x => (x.l.kh - x.l.sy) * x.w * x.inPixel)).sum

/-- From the last layer back: the rows of a stripe at the input of the chain, and the largest working rows. The working rows of a stripe
are the new rows it computes, the crust being held apart. DEDUCED (log entry 47). -/
def stripeWork (rows : Nat) (l : List ImgStage) : Nat × Nat :=
  l.foldr (fun x (r, most) =>
    let n := min x.h (r * x.l.sy)
    (n, max most (n * x.w * x.inPixel + min x.outH r * x.outW * x.outPixel))) (rows, 0)

/-- From the last layer back: the extents of a tile at the input of the chain, and the largest pair of tiles. -/
def loafWork (rows cols : Nat) (l : List ImgStage) : Nat × Nat × Nat :=
  l.foldr (fun x (eh, ew, most) =>
    let ih := (eh - 1) * x.l.sy + x.l.kh
    let iw := (ew - 1) * x.l.sx + x.l.kw
    (ih, iw, max most (ih * iw * x.inPixel + eh * ew * x.outPixel))) (rows, cols, 0)

def groupFits (g : ImgGroup) (l : List ImgStage) : Bool :=
  if g.mode = 1 then decide (crustBytes l ≤ 2 ^ 20) && decide ((stripeWork g.rows l).2 ≤ 6 * 2 ^ 20)
  else decide ((loafWork g.rows g.cols l).2.2 ≤ 6 * 2 ^ 20)

/-! ### The checks of R235 -/

/-- A type that a tensor may have. -/
def tensorType (t : Nat) : Bool := decide (t ≤ 10 ∧ t ≠ 4)

/-- Are the reserved bytes of the table zero? -/
def tabZeros (t : List Word) : Bool :=
  let zero (b n : Nat) : Bool := (List.range n).all (fun i => decide (tabNum t (b + i) 1 = 0))
  zero 10 22
    && (List.range (tabGroups t)).all (fun n => let b := 32 + 32 * n; zero (b + 15) 1 && zero (b + 18) 14)
    && (List.range (tabLayers t)).all (fun n => let b := 32 + 32 * tabGroups t + 32 * n
        decide (tabNum t (b + 2) 1 < 16) && (zero (b + 6) 2 && zero (b + 28) 4))

/-- Is a layer a convolution by the Hearth, or a pool? -/
def ImgLayer.conv (l : ImgLayer) : Bool := decide (l.type = 0)
def ImgLayer.pool (l : ImgLayer) : Bool := decide (l.type = 2 ∨ l.type = 3)

/-- The fields of a layer record in their ranges (R234), whether or not a group names it. -/
def ImgLayer.fieldsOk (op : Nat) (l : ImgLayer) : Bool :=
  let kOk (k : Nat) : Bool := if l.pool then decide (k = 2 ∨ k = 3) else decide (k = 1 ∨ k = 3 ∨ k = 5 ∨ k = 7)
  decide (l.type ≤ 3) && (kOk l.kh && kOk l.kw) && decide (l.act ≠ 3) && tensorType l.outType
    && decide (1 ≤ l.cout ∧ l.cout ≤ 2048) && (l.conv || decide (l.wtype = 0)) && (!l.conv || typeOk l.wtype)
    && (!l.pool || decide (l.wgt = 0 ∧ l.bias = 0 ∧ l.scale = 0x3F800000))
    && (l.pool || decide (op ≠ opPool)) && (!l.pool || (decide (l.kh = 3 ∨ l.sy = 2) && decide (l.kw = 3 ∨ l.sx = 2)))

/-- A layer at its place in a group. -/
def stageOk (pi1 : Nat) (x : ImgStage) : Bool :=
  let l := x.l
  (l.conv || decide (l.cout = x.ch)) && (!l.conv || mmaTypes x.t l.wtype) && (!(l.conv && decide (x.t = 0)) || decide (pi1 ≤ 3))

/-- A group record and its layers. -/
def groupOk (pi1 : Nat) (t : List Word) (g : ImgGroup) : Bool :=
  decide (g.out % 64 = 0) && decide (1 ≤ g.count ∧ g.count ≤ 8) && decide (g.mode ≤ 2) && decide (1 ≤ g.rows ∧ g.rows ≤ 64)
    && (if g.mode = 1 then decide (g.cols = 0) else decide (8 ≤ g.cols ∧ g.cols ≤ 64 ∧ g.cols % 8 = 0))
    && decide (g.layer + g.count ≤ tabLayers t)
    && decide (g.first + g.blocks ≤ planesOf (tabType t) (tabCin t))
    && (stagesOf t g).all (stageOk pi1) && groupFits g (stagesOf t g)

/-- The bytes that a group reads of its input, and those of its output. -/
def groupIn (t : List Word) (va : Nat) (g : ImgGroup) : Nat × Nat :=
  let p := planePitch (tabType t) (tabH t) (tabW t)
  (va + g.first * p, g.blocks * p)
def groupOut (t : List Word) (g : ImgGroup) : Nat × Nat :=
  match (stagesOf t g).getLast? with
  | some x => (g.out, tensorBytes x.l.outType x.l.cout x.outH x.outW)
  | none => (g.out, 0)

/-- Do two groups overlap: layers, or an output with the input or the output of the other? -/
def groupsClash (t : List Word) (va : Nat) (a b : ImgGroup) : Bool :=
  let meets (p q : Nat × Nat) : Bool := spansMeet p.1 p.2 q.1 q.2
  spansMeet a.layer a.count b.layer b.count || meets (groupOut t a) (groupIn t va b) || meets (groupIn t va a) (groupOut t b)
    || meets (groupOut t a) (groupOut t b)

/-- No two members of a list clash. -/
def pairwiseFree {α : Type} (p : α → α → Bool) : List α → Bool
  | [] => true
  | a :: l => l.all (fun b => !p a b) && pairwiseFree p l

/-- The header of the table. -/
def headerOk (t : List Word) : Bool :=
  decide (tabNum t 0 1 = 1) && decide (1 ≤ tabGroups t ∧ tabGroups t ≤ 4) && decide (1 ≤ tabLayers t ∧ tabLayers t ≤ 8)
    && tensorType (tabType t) && decide (1 ≤ tabH t ∧ tabH t ≤ 8192) && decide (1 ≤ tabW t ∧ tabW t ≤ 8192)
    && decide (1 ≤ tabCin t ∧ tabCin t ≤ 2048)

/-- Does a table keep R235? -/
def tableOk (op pi1 va : Nat) (t : List Word) : Bool :=
  headerOk t && tabZeros t && (List.range (tabLayers t)).all (fun n => (layerOf t n).fieldsOk op)
    && (groupsOf op t).all (groupOk pi1 t) && pairwiseFree (groupsClash t va) (groupsOf op t)

/-! ### The arithmetic of a layer (R236-R238) -/

/-- An image: the encoding at a channel, a row and a column. -/
abbrev Img := Nat → Nat → Nat → Nat

/-- A rectangle of rows and columns. -/
structure Rect where
  y0 : Nat
  y1 : Nat
  x0 : Nat
  x1 : Nat
  deriving DecidableEq, Repr

/-- The frame positions that a kernel reads for an output position, with the tap that reads each; none outside the frame. -/
def tapAt (o s k tap size : Nat) : Option Nat :=
  let p := (k - 1) / 2
  if p ≤ o * s + tap ∧ o * s + tap - p < size then some (o * s + tap - p) else none

/-- The input that a tap reads, zero outside the frame. -/
def ImgStage.input (x : ImgStage) (img : Img) (c oy ox ky kx : Nat) : Nat :=
  match tapAt oy x.l.sy x.l.kh ky x.h, tapAt ox x.l.sx x.l.kw kx x.w with
  | some y, some z => img c y z
  | _, _ => 0

/-- The window elements inside the frame, in row-major order. -/
def ImgStage.window (x : ImgStage) (img : Img) (c oy ox : Nat) : List Nat :=
  (List.range x.l.kh).flatMap (fun ky => (List.range x.l.kw).filterMap (fun kx =>
    match tapAt oy x.l.sy x.l.kh ky x.h, tapAt ox x.l.sx x.l.kw kx x.w with
    | some y, some z => some (img c y z)
    | _, _ => none))

/-- One cell of a Hearth accumulation: tile, partial, LFSR and steps of the open interval. -/
structure CellAcc where
  tile : W32
  p : BitVec 20
  l : BitVec 16
  n : Nat
  deriving DecidableEq, Repr

/-- Promote a cell. -/
def CellAcc.promote (x : CellAcc) (ta : Nat) : CellAcc :=
  { x with tile := (promoteCell ta false 0 x.tile x.p).1, p := 0, n := 0 }

/-- One step of a cell. -/
def CellAcc.step (ta pi1 : Nat) (rndm : Bool) (x : CellAcc) (ps : List (FVal × Bool)) : CellAcc :=
  let q := stepSum ps
  if ta = 6 then
    { x with tile := BitVec.ofNat 32 (roundV fmtF32 .rne false (addV .rne (decodeF fmtF32 x.tile.toNat) q.1).1).1 }
  else
    let y : CellAcc := { x with
      p := if ta = 0 then x.p + BitVec.ofInt 20 (intOfV q.1) else (p20Step x.p q.1 q.2 (if rndm then none else some x.l)).1
      l := lfsrNext x.l
      n := x.n + 1 }
    if y.n = pi1 + 1 then y.promote ta else y

/-- The salt of a run (R236). -/
def runSalt (layer row run : Nat) : W32 := BitVec.ofNat 32 (2 ^ 28 * layer + 2 ^ 8 * row + run)

/-- What a layer's arithmetic takes from the descriptor, the job and the rank. -/
structure ImgMode where
  pi1 : Nat
  rndm : Bool
  seed : Word
  rank : Nat
  deriving DecidableEq, Repr

/-- The promoted tile value of a CONV output as FP32. The runs of a row are its 64-pixel pieces counted from column 0, whichever tile they
are computed for. DEDUCED (log entry 48). -/
def convCell (m : ImgMode) (x : ImgStage) (wgt : Array Byte) (img : Img) (co oy ox : Nat) : Nat :=
  let l := x.l
  let ks := l.kh * l.kw * x.cinp
  let wAt (k : Nat) : Nat := elemAt wgt (esize l.wtype) (co / 64 * 64 * ks + 256 * (k / 4) + 4 * (co % 64) + k % 4)
  let xAt (k : Nat) : Nat := x.input img (k % x.cinp) oy ox (k / x.cinp / l.kw) (k / x.cinp % l.kw)
  let start : CellAcc := ⟨0, 0, lfsrSeed m.seed (runSalt l.index oy (ox / 64)) m.rank (64 * (ox % 64) + co % 64), 0⟩
  let done := (List.range (ks / 4)).foldl (fun a t =>
    a.step x.t m.pi1 m.rndm ((List.range 4).map (fun i => product x.t l.wtype (xAt (4 * t + i)) (wAt (4 * t + i))))) start
  if x.t = 6 then done.tile.toNat
  else if x.t = 0 then (convertElem 3 6 .rne false none (done.promote 0).tile.toNat).1
  else (done.promote x.t).tile.toNat

/-- The accumulator of a DWCONV output. -/
def dwCell (x : ImgStage) (wgt : Array Byte) (img : Img) (c oy ox : Nat) : Nat :=
  let l := x.l
  (List.range (l.kh * l.kw)).foldl (fun acc k =>
    let v := (convertElem x.t 6 .rne false none (x.input img c oy ox (k / l.kw) (k % l.kw))).1
    (fmaF fmtF32 .rne false false false v (elemAt wgt 4 (c * l.kh * l.kw + k)) acc).1) 0

/-- The value of a pool output. The sum begins with the first element. DEDUCED (log entry 49). -/
def poolCell (x : ImgStage) (img : Img) (c oy ox : Nat) : Nat :=
  match (x.window img c oy ox).map (fun v => (convertElem x.t 6 .rne false none v).1) with
  | [] => 0
  | v :: vs =>
    if x.l.type = 2 then vs.foldl (fun a b => (minMaxF fmtF32 false true a b).1) v
    else
      let sum := vs.foldl (fun a b => (addF fmtF32 .rne false a b).1) v
      (divF fmtF32 .rne false sum (roundV fmtF32 .rne false (intV (vs.length + 1 : Nat))).1).1

/-- ACT (R237 step 3). -/
def actCell (act v : Nat) : Nat :=
  if act = 0 then v
  else
    let r := (minMaxF fmtF32 false true v 0).1
    if act = 2 then (minMaxF fmtF32 false false r 0x40C00000).1 else r

/-- The FP32 value of an output before its conversion (R237 steps 1 to 3). -/
def ImgStage.value (x : ImgStage) (m : ImgMode) (wgt bias : Array Byte) (img : Img) : Img := fun c y z =>
  let l := x.l
  let scaleIt (t : Nat) : Nat := (fmaF fmtF32 .rne false false false t l.scale (if l.bias = 0 then 0 else elemAt bias 4 c)).1
  actCell l.act (if l.type = 0 then scaleIt (convCell m x wgt img c y z)
    else if l.type = 1 then scaleIt (dwCell x wgt img c y z) else poolCell x img c y z)

/-- The output of a layer (R237 step 5); padding channels are zero. -/
def ImgStage.output (x : ImgStage) (m : ImgMode) (wgt bias : Array Byte) (img : Img) : Img := fun c y z =>
  if c < x.l.cout then (convertElem 6 x.l.outType .rne false none (x.value m wgt bias img c y z)).1 else 0

/-- The same image, with what lies in a rectangle computed once. -/
def Img.hold (img : Img) (ch : Nat) (r : Rect) : Img :=
  let h := r.y1 - r.y0
  let w := r.x1 - r.x0
  let a := ((List.range (ch * h * w)).map (fun i => img (i / (h * w)) (r.y0 + i / w % h) (r.x0 + i % w))).toArray
  fun c y z =>
    if c < ch ∧ r.y0 ≤ y ∧ y < r.y1 ∧ r.x0 ≤ z ∧ z < r.x1 then a.getD ((c * h + (y - r.y0)) * w + (z - r.x0)) 0 else img c y z

/-! ### What a rank does (R231, R240, R242-R245) -/

/-- The output rectangles of a rank: the stripes of its band in ascending order, or its tiles (R240, R242). -/
def rankRects (g : ImgGroup) (h w rank ncl : Nat) : List Rect :=
  if g.mode = 1 then
    let ns := ceilDiv h g.rows
    ((List.range ns).filter (fun n => decide (rank * ns / ncl ≤ n) && decide (n < (rank + 1) * ns / ncl))).map (fun n =>
      ⟨g.rows * n, min h (g.rows * (n + 1)), 0, w⟩)
  else
    let nx := ceilDiv w g.cols
    let ny := ceilDiv h g.rows
    ((List.range (nx * ny)).filter (fun t => decide (t % ncl = rank))).map (fun t =>
      ⟨t / nx * g.rows, min h ((t / nx + 1) * g.rows), t % nx * g.cols, min w ((t % nx + 1) * g.cols)⟩)

/-- The input rectangle that an output rectangle of a layer needs: nothing for no rows. -/
def ImgStage.needs (x : ImgStage) (r : Rect) : Rect :=
  let l := x.l
  if r.y1 ≤ r.y0 then ⟨0, 0, 0, 0⟩
  else ⟨r.y0 * l.sy - (l.kh - 1) / 2, min x.h ((r.y1 - 1) * l.sy + l.kh - (l.kh - 1) / 2),
   r.x0 * l.sx - (l.kw - 1) / 2, min x.w ((r.x1 - 1) * l.sx + l.kw - (l.kw - 1) / 2)⟩

/-- No rows held. -/
def CrustRows.none : CrustRows := { y0 := 0, y1 := 0, x0 := 0, x1 := 0, cells := [] }

/-- At each layer of a chain, for an output rectangle of the last: what it needs of its input, and which of that is not held in the line
buffers of its input, and so is read, or computed by the layer before. -/
def rectsBack (lines : List CrustRows) (l : List ImgStage) (r : Rect) : List (Rect × Rect) :=
  l.zipIdx.foldr (fun p acc =>
    let need := p.1.needs ((acc.map (·.2)).headD r)
    (need, { need with y0 := max need.y0 (min need.y1 (nthD lines p.2 CrustRows.none).y1) }) :: acc) []

/-- The image of a layer's input: rows of the line buffers, and the new ones. -/
def Img.onto (img : Img) (ch : Nat) (x : CrustRows) : Img :=
  let h := x.y1 - x.y0
  let w := x.x1 - x.x0
  let a := x.cells.toArray
  fun c y z =>
    if c < ch ∧ x.y0 ≤ y ∧ y < x.y1 ∧ x.x0 ≤ z ∧ z < x.x1 then a.getD ((c * h + (y - x.y0)) * w + (z - x.x0)) 0 else img c y z

/-- The crust rows of a layer's input that the output rows from `out` on need too: the last KH − stride (R241), fewer at the frame's
end. -/
def ImgStage.crust (x : ImgStage) (img : Img) (r : Rect) (out : Nat) : CrustRows :=
  let y0 := out * x.l.sy - (x.l.kh - 1) / 2
  let w := r.x1 - r.x0
  { y0 := y0, y1 := r.y1, x0 := r.x0, x1 := r.x1
    cells := (List.range (x.cinp * (r.y1 - y0) * w)).map (fun i =>
      img (i / ((r.y1 - y0) * w)) (y0 + i / w % (r.y1 - y0)) (r.x0 + i % w)) }

/-- The bytes of weights and biases of a layer. -/
def ImgStage.wgtBytes (x : ImgStage) : Nat :=
  let taps := x.l.kh * x.l.kw
  if x.l.type = 0 then ceilDiv x.l.cout 64 * 64 * taps * x.cinp * esize x.l.wtype
  else if x.l.type = 1 then 4 * x.ch * taps else 0

/-- Read the weights and biases of a layer. -/
def ImgStage.params (x : ImgStage) (c : ClusterId) (w : Work) : Run (Array Byte × Array Byte) := do
  let wgt ← loadRun c w x.l.wgt x.wgtBytes
  let bias ← if x.l.bias = 0 then pure [] else loadRun c w x.l.bias (4 * x.l.cout)
  return (wgt.toArray, bias.toArray)

/-- Read a rectangle of a group's input blocks, row by row. -/
def readInput (c : ClusterId) (w : Work) (t : List Word) (va : Nat) (g : ImgGroup) (r : Rect) : Run Img := do
  let ty := tabType t
  let bb := cbBytes ty
  let rows := r.y1 - r.y0
  let parts ← (List.range (g.blocks * rows)).mapM (fun i =>
    loadRun c w (va + (g.first + i / rows) * planePitch ty (tabH t) (tabW t) + (r.y0 + i % rows) * rowPitch ty (tabW t)
      + r.x0 * bb) ((r.x1 - r.x0) * bb))
  let a := parts.flatten.toArray
  return fun ch y z =>
    if r.y0 ≤ y ∧ y < r.y1 ∧ r.x0 ≤ z ∧ z < r.x1 then
      elemAt a (esize ty) (((ch / cbWidth ty * rows + (y - r.y0)) * (r.x1 - r.x0) + (z - r.x0)) * cbWidth ty + ch % cbWidth ty)
    else 0

/-- Write a rectangle of a group's output, padding channels as zero. -/
def writeOutput (c : ClusterId) (w : Work) (g : ImgGroup) (x : ImgStage) (img : Img) (r : Rect) : Run Unit :=
  let ty := x.l.outType
  let rows := r.y1 - r.y0
  (List.range (planesOf ty x.l.cout * rows)).forM (fun i =>
    let b := i / rows
    let y := r.y0 + i % rows
    saveRun c w (g.out + b * planePitch ty x.outH x.outW + y * rowPitch ty x.outW + r.x0 * cbBytes ty)
      ((List.range ((r.x1 - r.x0) * cbWidth ty)).flatMap (fun j =>
        toBytes (esize ty) (img (b * cbWidth ty + j % cbWidth ty) y (r.x0 + j / cbWidth ty)))))

/-- The larger of two gathered maxima. -/
def AmaxSlot.merge (a b : AmaxSlot) : AmaxSlot :=
  { value := if a.value.ult b.value then b.value else a.value
    nanSeen := a.nanSeen || b.nanSeen
    infSeen := a.infSeen || b.infSeen }

/-- A layer with its weights and biases. -/
abbrev Loaded := ImgStage × Array Byte × Array Byte

/-- The layers of a chain from the first on, for output rows that end before `last`: the input image of each is that of the line buffers
and, after it, the new rows; the answer is the image at the input of the last layer, and the line buffers as this stripe leaves them. -/
def chainRun (m : ImgMode) (last : Nat) : List CrustRows → List (Rect × Rect) → List Loaded → Img → Img × List CrustRows
  | _, _, [], img => (img, [])
  | lines, rects, x :: rest, img =>
    let r := rects.headD (⟨0, 0, 0, 0⟩, ⟨0, 0, 0, 0⟩)
    let full := Img.onto (Img.hold img x.1.cinp r.2) x.1.cinp (lines.headD CrustRows.none)
    let crust := x.1.crust full r.1 (((rects.drop 1).map (fun p => p.1.y1)).headD last)
    match rest with
    | [] => (full, [crust])
    | _ :: _ =>
      let (input, more) := chainRun m last (lines.drop 1) (rects.drop 1) rest (x.1.output m x.2.1 x.2.2 full)
      (input, crust :: more)

/-- What is gathered over a rectangle of the values of a group's last layer (R237 step 4). -/
def gatherRect (x : ImgStage) (value : Img) (r : Rect) : AmaxSlot :=
  let h := r.y1 - r.y0
  let n := r.x1 - r.x0
  (List.range (x.l.cout * h * n)).foldl (fun a i =>
    a.gather 0 (decodeF fmtF32 (value (i / (h * n)) (r.y0 + i / n % h) (r.x0 + i % n)))) AmaxSlot.zero

/-- A stripe or tile is done: it counts in the share, its crust is what the line buffers hold, and its maximum is the descriptor's. -/
def State.unitDone (s : State) (c : ClusterId) (w : Work) (lines : List CrustRows) (g : AmaxSlot) : State :=
  let s1 := (s.dropAnswers c w).modCluster c (fun x => { x with
    share := x.share.map (fun sh => { sh with unit := sh.unit + 1 })
    work := { x.work with lines := lines, done := [], ahead := [] } })
  match w with
  | some (st, idx) => s1.modDesc st idx (fun e =>
      let m := (AmaxSlot.mk e.aux1 e.nan e.inf).merge g
      { e with aux1 := m.value, nan := m.nanSeen, inf := m.infSeen })
  | none => s1

/-- Compute one stripe or tile of a group's output: rows that the line buffers hold are neither read nor computed again (R240, R241). -/
def rectRun (c : ClusterId) (w : Work) (m : ImgMode) (t : List Word) (va : Nat) (g : ImgGroup) (l : List Loaded) (r : Rect) :
    Run Unit := do
  let s ← get
  let lines := if g.mode = 1 then (s.cluster c).work.lines else []
  let rects := rectsBack lines (l.map (·.1)) r
  let img ← readInput c w t va g ((rects.map (·.2)).headD r)
  match l.getLast? with
  | none => return ()
  | some (last, wgt, bias) =>
    let (before, crust) := chainRun m r.y1 lines rects l img
    writeOutput c w g last (last.output m wgt bias before) r
    runDo (fun s => s.unitDone c w (if g.mode = 1 then crust else []) (gatherRect last (Img.hold (last.value m wgt bias before) last.l.cout r) r))

/-- The weights and biases of a group: held, or read. -/
def groupParams (c : ClusterId) (w : Work) (stages : List ImgStage) : Run (List Loaded) := do
  let s ← get
  if (s.cluster c).work.weights.isEmpty then
    let l ← stages.mapM (fun x => do return (x, ← x.params c w))
    runDo (fun s => s.modCluster c (fun x => { x with work := { x.work with
      weights := l.flatMap (fun p => [p.2.1.toList, p.2.2.toList]), done := [], ahead := [] } }))
    return l
  else
    return stages.zipIdx.map (fun p => (p.1, (nthD (s.cluster c).work.weights (2 * p.2) []).toArray,
      (nthD (s.cluster c).work.weights (2 * p.2 + 1) []).toArray))

/-- A rank's part of a group, from stripe or tile `first` on. -/
def groupRun (c : ClusterId) (w : Work) (m : ImgMode) (t : List Word) (va ncl first : Nat) (g : ImgGroup) : Run Unit := do
  let stages := stagesOf t g
  match stages.getLast? with
  | none => return ()
  | some last =>
    match (rankRects g last.outH last.outW m.rank ncl).drop first with
    | [] => return ()
    | rects =>
      let l ← groupParams c w stages
      rects.forM (fun r => rectRun c w m t va g l r)

/-- Has every rank of a descriptor finished the groups before one (R243)? A rank that has ended has no share. -/
def State.groupReady (s : State) (sh : Share) (g : Nat) : Bool :=
  let past (x : Option Share) : Bool :=
    match x with
    | some y => !(decide (y.st = sh.st) && decide (y.idx = sh.idx)) || decide (g ≤ y.group)
    | none => true
  allClusters.all (fun c => past (s.cluster c).share)
    && (match s.job (s.stream sh.st).job with
      | some j => j.saved.all (fun v => past v.share)
      | none => true)

/-- One group of a rank's share, if the share has come to it; the answer says whether the next may begin. -/
def groupStep (c : ClusterId) (w : Work) (m : ImgMode) (d : Desc) (g : ImgGroup) (n : Nat) : Run Bool := do
  let s ← get
  match (s.cluster c).share with
  | none => return false
  | some sh =>
    if n < sh.group then return true
    else if s.groupReady sh n then do
      groupRun c w m d.pages (d.num 24 0 64) (d.num 32 0 6) sh.unit g
      runDo (fun s => s.modCluster c (fun x => { x with
        share := x.share.map (fun sh => { sh with group := n + 1, unit := 0 })
        work := ShareWork.empty }))
      return true
    else return false

/-- The share of a rank: its part of every group, in group order, each once every rank has finished the one before (R243). The answer
says whether the share is complete. -/
def imageRun (c : ClusterId) (w : Work) (seed : Word) (rank : Nat) (d : Desc) : Run Bool :=
  let m : ImgMode := ⟨d.num 33 0 4, flagAt d.bits 33 4, seed, rank⟩
  (groupsOf d.opcode d.pages).zipIdx.foldlM (fun go p => if go then groupStep c w m d p.1 p.2 else pure false) true

/-! ### Begin and end -/

/-- A descriptor that runs on clusters reads its table or header with the mover of rank 0 when it begins; `ready` then dispatches it. One that
a fault held tries again. Stage 0 is a table still to be read. -/
def State.beginShares (s : State) (st : StreamId) (idx : W32) (op nclOff : Nat) (ready : ClusterId → Desc → State → State) :
    State :=
  let cs (s : State) (d : Desc) : List ClusterId := (s.idleClusters (s.stream st).job).take (d.num nclOff 0 6)
  let go (d : Desc) (s : State) : State :=
    match cs s d with
    | c :: _ => ready c d s
    | [] => s
  match s.desc st idx with
  | none => s
  | some d =>
    if d.isRunning then
      s.continuing st idx op (fun d s =>
        if d.stage = 0 ∧ d.heldBy.isNone ∧ d.num nclOff 0 6 ≤ (cs s d).length then go d s else s)
    else if s.liveCount < d.num nclOff 0 6 ∧ (s.beginning st idx op).isSome then s.beginChecked st idx op (fun _ s => s.badDescriptor st idx nclOff)
    else s.beginWhen st idx op (fun d => decide (d.num nclOff 0 6 ≤ (cs s d).length)) go

/-- Raise DISPATCH on NCL clusters. -/
def State.dispatchAll (s : State) (st : StreamId) (idx : W32) (n : Nat) : State :=
  ((s.idleClusters (s.stream st).job).take n).zipIdx.foldl (fun s p => s.raiseDispatch p.1 st idx p.2)
    (s.modDesc st idx (fun e => { e with left := n, stage := 1 }))

/-- The table of an operator: its header, then the records that the header counts. -/
def tableRun (c : ClusterId) (w : Work) (va : Nat) : Run (List Word) := do
  let words (b : List Byte) : List Word := (splitElems 8 (b.length / 8) b).map (BitVec.ofNat 64)
  let h ← loadRun c w va 32
  if headerOk (words h) then
    let rest ← loadRun c w (va + 32) (32 * (tabGroups (words h) + tabLayers (words h)))
    return words (h ++ rest)
  else return words h

/-- Read and check the table, and dispatch. -/
def State.readTable (s : State) (c : ClusterId) (st : StreamId) (d : Desc) : State :=
  let w : Work := some (st, d.idx)
  match (tableRun c w (d.num 16 0 64)).run s with
  | (.error (.mover x a), s1) => s1.moverStops c st d.idx a x
  | (.error _, s1) => s1
  | (.ok t, s1) =>
    let s2 := s1.dropAnswers c w
    if tableOk d.opcode (d.num 33 0 4) (d.num 24 0 64) t then
      (s2.modDesc st d.idx (fun e => { e with pages := t })).dispatchAll st d.idx (d.num 32 0 6)
    else s2.badDescriptor st d.idx 16

/-- Every rank has finished: the gathered maximum is folded into its slot, and the descriptor is DONE. While no cluster holds AMAX_JCI it
waits (stage 2). -/
def State.imageEnd (s : State) (st : StreamId) (d : Desc) : State :=
  if flagAt d.bits 34 4 then
    match s.jciCluster (s.stream st).job (BitVec.ofNat 6 (d.num 35 0 6)) with
    | some c =>
      let n := d.num 34 0 4
      (s.modH c (fun h => h.setSlot n ((h.slot n).merge ⟨d.aux1, d.nan, d.inf⟩))).finish st d.idx stDone 0
    | none => s.modDesc st d.idx (fun e => { e with stage := 2 })
  else s.finish st d.idx stDone 0

/-- The three operators. -/
def State.imageOp (s : State) (st : StreamId) (idx : W32) (op : Nat) : State :=
  match s.desc st idx with
  | some d =>
    if d.stage = 2 then s.continuing st idx op (fun d s => s.imageEnd st d)
    else s.beginShares st idx op 32 (fun c d s => s.readTable c st d)
  | none => s

/-- CONV_STRIPE. -/
def execConvStripe (st : StreamId) (idx : W32) (s : State) : Result := .next (s.imageOp st idx opConvStripe)
/-- CONV_LOAF. -/
def execConvLoaf (st : StreamId) (idx : W32) (s : State) : Result := .next (s.imageOp st idx opConvLoaf)
/-- POOL. -/
def execPool (st : StreamId) (idx : W32) (s : State) : Result := .next (s.imageOp st idx opPool)

end Sys2Proof.Machine
end

