-- ==== Sys2Proof/Machine/KestrelMem.lean ====
section
/-! DEFINITION. The Kestrel's loads, stores, atomics, cache maintenance and fences (R101, R132, R310-R326, R329). -/
namespace Sys2Proof.Machine

/-! ### Loads and stores -/

/-- Finish an access that reached its target. -/
def State.afterRead (s : State) (c : ClusterId) (va : Word) (t : Target) (got : Got) (f : List Byte → State → State) : State :=
  match got with
  | .bytes b => f b s
  | .bad => (s.raise c exEccUncorr va (s.kestrel c).pc).logConsumed c t
  | .badLine => s.raise c exEccUncorr va (s.kestrel c).pc
  | .hostError => s.freezeCluster .kestrel c fcHostError
  | .fenced k u => s.fencedFor c k u
  | .remote _ _ => s

/-- Ask a peer and wait for its answer; the requester does not wait when the request has already failed its job. -/
def State.askPeer (s : State) (c : ClusterId) (kind dev pa len op : Nat) (data : List Byte) (purpose : PeerFor) (va : Word) :
    State :=
  let s1 := (s.drainStores c).sendRequest c .kestrel kind (BitVec.ofNat 12 dev) pa len op false none data purpose va none
  if s1.awaits c .kestrel then s1.modK c (fun k => { k with run := .remote }) else s1

/-- Translate an address that the Kestrel generated and go on with the access: the causes in R134's order, the misalignment first and a
mismatch of the address adder last (R342, R343). -/
def State.reach (s : State) (c : ClusterId) (right : Right) (access : BitVec 4) (base off : Word) (n : Nat)
    (f : Word → Target → Option RangeEntry → State → State) : State :=
  let (a, caught, s) := s.strike c [rwAdder] (base + off).toNat (fun _ => addHolds base off)
  let va := BitVec.ofNat 64 a
  if va.toNat % n ≠ 0 then s.raise c exMisalign va (s.kestrel c).pc
  else
    match s.access c .kestrel .mover right va n with
    | (.fault, s1) => s1.xlateFault c access va n
    | (.violation, s1) => s1.raise c exRights va (s1.kestrel c).pc
    | (.ecc, s1) => s1.raise c exEccUncorr va (s1.kestrel c).pc
    | (.ok t e, s1) => if caught then s1.raise c exResidueFail 0 (s1.kestrel c).pc else f va t e s1

/-- Issue a LOAD by its MINOR3. -/
def State.load (s : State) (c : ClusterId) (how : Nat) (rd ra : BitVec 5) (imm : BitVec 12) : State :=
  s.issue c 4 (fun s => s.reach c .r 1 (s.g c ra) (imm12 imm) (loadSize how) (fun va t e s1 =>
    let n := loadSize how
    let s2 := if t.isStore && (s1.cluster c).storeFails t.addr n then s1.drainStores c else s1
    match s2.kestrelRead c (s2.aspOf c) va.toNat t e n with
    | (.remote dev pa, s3) => s3.askPeer c 1 dev pa n 0 [] (.load rd how) va
    | (got, s3) => s3.afterRead c va t got (fun b s =>
        s.writeReg c rd (loadExtend how (ofBytes (forward (s.cluster c).storeBuf t b))) 4))) [ra]

/-- Issue a STORE of `n` bytes of g(rb). -/
def State.storeN (s : State) (c : ClusterId) (n : Nat) (rb ra : BitVec 5) (imm : BitVec 12) : State :=
  s.issue c 4 (fun s => s.reach c .w 2 (s.g c ra) (imm12 imm) n (fun va t e s1 =>
    let entry : StoreEntry := { target := t, gen := (e.map (·.gen)).getD 0
                                cacheable := match e with
                                  | some r => r.cacheable
                                  | none => false
                                aspace := (s1.aspOf c).val
                                va := va
                                size := n
                                data := s1.g c rb }
    (s1.pushStore c entry).advance c 4)) [ra, rb]

def execLb (c : ClusterId) (rd ra : BitVec 5) (imm : BitVec 12) (s : State) : Result := .next (s.load c 0 rd ra imm)
def execLh (c : ClusterId) (rd ra : BitVec 5) (imm : BitVec 12) (s : State) : Result := .next (s.load c 1 rd ra imm)
def execLw (c : ClusterId) (rd ra : BitVec 5) (imm : BitVec 12) (s : State) : Result := .next (s.load c 2 rd ra imm)
def execLd (c : ClusterId) (rd ra : BitVec 5) (imm : BitVec 12) (s : State) : Result := .next (s.load c 3 rd ra imm)
def execLbu (c : ClusterId) (rd ra : BitVec 5) (imm : BitVec 12) (s : State) : Result := .next (s.load c 4 rd ra imm)
def execLhu (c : ClusterId) (rd ra : BitVec 5) (imm : BitVec 12) (s : State) : Result := .next (s.load c 5 rd ra imm)
def execLwu (c : ClusterId) (rd ra : BitVec 5) (imm : BitVec 12) (s : State) : Result := .next (s.load c 6 rd ra imm)
def execSb (c : ClusterId) (rb ra : BitVec 5) (imm : BitVec 12) (s : State) : Result := .next (s.storeN c 1 rb ra imm)
def execSh (c : ClusterId) (rb ra : BitVec 5) (imm : BitVec 12) (s : State) : Result := .next (s.storeN c 2 rb ra imm)
def execSw (c : ClusterId) (rb ra : BitVec 5) (imm : BitVec 12) (s : State) : Result := .next (s.storeN c 4 rb ra imm)
def execSd (c : ClusterId) (rb ra : BitVec 5) (imm : BitVec 12) (s : State) : Result := .next (s.storeN c 8 rb ra imm)

/-! ### Atomics (R324) -/

/-- What memory becomes: old value, operand and compare value, of `w` bits. `op` is the ATOMIC minor of R101. -/
def atomicNew {w : Nat} (op : Nat) (old v cmp : BitVec w) : BitVec w :=
  match op with
  | 0 => old + v
  | 1 => if old.slt v then old else v
  | 2 => if old.slt v then v else old
  | 3 => v
  | 4 => if old = cmp then v else old
  | _ => BitVec.ofNat w (addF (if w = 32 then fmtF32 else fmtF64) .rne false old.toNat v.toNat).1

/-- The new value of a memory number of 4 or 8 bytes. -/
def atomicNum (op : Nat) (w32 : Bool) (old v cmp : Nat) : Nat :=
  if w32 then (atomicNew op (BitVec.ofNat 32 old) (BitVec.ofNat 32 v) (BitVec.ofNat 32 cmp)).toNat
  else (atomicNew op (BitVec.ofNat 64 old) (BitVec.ofNat 64 v) (BitVec.ofNat 64 cmp)).toNat

/-- The old value as the register takes it: the 32-bit forms sign-extend. -/
def atomicOld (w32 : Bool) (old : Nat) : Word :=
  if w32 then (BitVec.ofNat 32 old).signExtend 64 else BitVec.ofNat 64 old

/-- Write back and invalidate the Kestrel's own L1D copy of a line. -/
def State.dropOwnLine (s : State) (c : ClusterId) (t : Target) : State :=
  let s1 := s.landFill c t
  match (s1.cluster c).l1Find t with
  | some l => s1.maintain c l .cleanInval
  | none => s1

/-- The new value of an atomic from its unit, and whether the unit's check caught a mismatch (R342, R343). -/
def State.atomicValue (s : State) (c : ClusterId) (op : Nat) (w32 : Bool) (old v cmp : Nat) : Nat × Bool × State :=
  let x := atomicNum op w32 old v cmp
  s.strike c [rwAtomic] x (fun r => rowHolds r x)

/-- Perform an atomic on a translated target; earlier accesses have been performed (R324): the stores have drained and the maintenance
held for a fill is done. One at a peer waits for the answers to earlier ones. -/
def State.atomicAt (s : State) (c : ClusterId) (op : Nat) (w32 : Bool) (rd rb : BitVec 5) (va : Word) (t : Target)
    (e : Option RangeEntry) : State :=
  let n := if w32 then 4 else 8
  let v := (s.g c rb).toNat
  let cmp := (s.g c rd).toNat
  let pc := (s.kestrel c).pc
  match t with
  | .store off =>
    let x := s.cluster c
    if x.storeFails off n then (s.raise c exEccUncorr va pc).logConsumed c t
    else
      let old := ofBytes (Mem.readBytes x.store off n)
      match s.atomicValue c op w32 old v cmp with
      | (_, true, s1) => s1.raise c exResidueFail 0 pc
      | (new, false, s1) => (s1.storeWrite c off (toBytes n new)).writeReg c rd (atomicOld w32 old) 4
  | .device pa =>
    let a := s.aspOf c
    let s0 := s.dropOwnLine c t
    match s0.fencedUnit pa with
    | some (k, u) => s0.fencedFor c k u
    | none =>
      let s1 := match e with
        | some r => s0.count a r va.toNat
        | none => s0
      if s1.poisoned (pa / 64) then (s1.raise c exEccUncorr va pc).logConsumed c t
      else
        let old := s1.readNum pa n
        let cacheable := match e with
          | some r => r.cacheable
          | none => false
        match s1.atomicValue c op w32 old v cmp with
        | (_, true, s2) => s2.raise c exResidueFail 0 pc
        | (new, false, s2) =>
          ((s2.deviceWrite pa (toBytes n new) cacheable).mirror a va.toNat (toBytes n new)).writeReg c rd (atomicOld w32 old) 4
  | .peer dev pa =>
    let s1 := match e with
      | some r => s.count (s.aspOf c) r va.toNat
      | none => s
    if s.awaits c .kestrel then s
    else s1.askPeer c 5 dev pa n (op + 16 * bit w32) (toBytes 8 v ++ toBytes 8 cmp) (.atomic rd w32) va
  | .host _ _ => s.raise c exRights va pc

/-- Issue an ATOMIC: `minor` is MINOR10[9:4]; a value with a bit of MINOR10[8:4] set is no
assigned minor value (R101, R102). DEDUCED (log entry 20). -/
def State.atomic (s : State) (c : ClusterId) (op : Nat) (rd ra rb : BitVec 5) (minor : BitVec 6) : State :=
  s.issue c 4 (fun s =>
    let w32 := minor.getLsbD 5
    let n := if w32 then 4 else 8
    let va := s.g c ra
    if bitsAt minor 0 5 ≠ 0 then s.raiseWord c exIllegalOp (wordRR 0x0A rd ra rb (op + 16 * minor.toNat))
    else s.reach c .a 4 va 0 n (fun va t e s1 => ((s1.drainStores c).settleAllHeld c).atomicAt c op w32 rd rb va t e))
    [rd, ra, rb]

def execAtadd (c : ClusterId) (rd ra rb : BitVec 5) (minor : BitVec 6) (s : State) : Result :=
  .next (s.atomic c 0 rd ra rb minor)
def execAtmin (c : ClusterId) (rd ra rb : BitVec 5) (minor : BitVec 6) (s : State) : Result :=
  .next (s.atomic c 1 rd ra rb minor)
def execAtmax (c : ClusterId) (rd ra rb : BitVec 5) (minor : BitVec 6) (s : State) : Result :=
  .next (s.atomic c 2 rd ra rb minor)
def execAtswp (c : ClusterId) (rd ra rb : BitVec 5) (minor : BitVec 6) (s : State) : Result :=
  .next (s.atomic c 3 rd ra rb minor)
def execAtcas (c : ClusterId) (rd ra rb : BitVec 5) (minor : BitVec 6) (s : State) : Result :=
  .next (s.atomic c 4 rd ra rb minor)
def execAtfadd (c : ClusterId) (rd ra rb : BitVec 5) (minor : BitVec 6) (s : State) : Result :=
  .next (s.atomic c 5 rd ra rb minor)

/-! ### Cache maintenance (R325, R326, R329, R330) -/

/-- Act on an L1D line; on a pending line the operation is held until the fill lands. Deterministic mode leaves it alone. -/
def State.cacheLine (s : State) (c : ClusterId) (l : L1Line) (op : CacheOp) : State :=
  if (s.kestrel c).det then s
  else if l.pending then s.modCluster c (fun x => x.l1Put { l with held := l.held ++ [op] })
  else s.maintain c l op

/-- Act on the line of a target, with its L2 side. -/
def State.cacheTarget (s : State) (c : ClusterId) (t : Target) (op : CacheOp) (level1 : Bool) : State :=
  let s1 := match (s.cluster c).l1Find t with
    | some l => s.cacheLine c l op
    | none => s
  match t with
  | .host f iova => if level1 && decide (op ≠ .clean) then s1.l2Drop (some f) (iova / 64) else s1
  | _ => s1

/-- Issue a by-address CACHE form of a MINOR3. Older stores of the buffer are drained first. In a SEALED range it is no Kestrel
access: it checks right R as the range grants it (R337), as a mover's does. -/
def State.cacheOp (s : State) (c : ClusterId) (minor3 : Nat) (op : CacheOp) (rd ra : BitVec 5) (imm : BitVec 12) : State :=
  s.issue c 4 (fun s =>
    let va := s.g c ra
    if rd ≠ 0 ∨ bitsAt imm 1 11 ≠ 0 then s.raiseWord c exRsvdEnc (wordRI 0x15 rd ra minor3 imm)
    else if va.toNat < storeSize ∨ windowBase ≤ va.toNat then s.advance c 4
    else
      match s.access c .mover .mover .r va 1 with
      | (.fault, s1) => s1.xlateFault c 1 va 1
      | (.violation, s1) => s1.raise c exRights va (s1.kestrel c).pc
      | (.ecc, s1) => s1.raise c exEccUncorr va (s1.kestrel c).pc
      | (.ok t _, s1) => ((s1.drainStores c).cacheTarget c t op (imm.getLsbD 0)).advance c 4) [ra]

/-- Issue a set/way CACHE form of a MINOR3: PRIV at J; it translates nothing and never faults. -/
def State.cacheSw (s : State) (c : ClusterId) (minor3 : Nat) (op : CacheOp) (rd ra : BitVec 5) (imm : BitVec 12) : State :=
  s.issue c 4 (fun s =>
    let v := s.g c ra
    if rd ≠ 0 ∨ imm ≠ 0 then s.raiseWord c exRsvdEnc (wordRI 0x15 rd ra minor3 imm)
    else if (s.kestrel c).level = 0 then s.raiseWord c exPriv (wordRI 0x15 rd ra minor3 imm)
    else
      let s1 := s.drainStores c
      (match (s1.cluster c).l1d.find? (fun (l : L1Line) => decide (l.set = bitsAt v 0 8) && decide (l.way = bitsAt v 8 2)) with
        | some l => s1.cacheLine c l op
        | none => s1).advance c 4) [ra]

def execClean (c : ClusterId) (rd ra : BitVec 5) (imm : BitVec 12) (s : State) : Result :=
  .next (s.cacheOp c 0 .clean rd ra imm)
def execInval (c : ClusterId) (rd ra : BitVec 5) (imm : BitVec 12) (s : State) : Result :=
  .next (s.cacheOp c 1 .inval rd ra imm)
def execCleanInval (c : ClusterId) (rd ra : BitVec 5) (imm : BitVec 12) (s : State) : Result :=
  .next (s.cacheOp c 2 .cleanInval rd ra imm)
def execCleanSw (c : ClusterId) (rd ra : BitVec 5) (imm : BitVec 12) (s : State) : Result :=
  .next (s.cacheSw c 3 .clean rd ra imm)
def execInvalSw (c : ClusterId) (rd ra : BitVec 5) (imm : BitVec 12) (s : State) : Result :=
  .next (s.cacheSw c 4 .inval rd ra imm)
def execCleanInvalSw (c : ClusterId) (rd ra : BitVec 5) (imm : BitVec 12) (s : State) : Result :=
  .next (s.cacheSw c 5 .cleanInval rd ra imm)

/-! ### Fences (R322) -/

/-- Is a write of a runtime's mover request at a peer not yet acknowledged? -/
def State.awaitsRuntime (s : State) (c : ClusterId) : Bool :=
  s.fabric.requests.any (fun r => decide (r.cluster = c) && (decide (r.mkind = .mover) && (r.work.isNone && r.answer.isNone)))

/-- Does a fence of a SCOPE still wait, once the store buffer has drained: for runtime mover requests, and for FABRIC also for
requests to peers that are not answered? -/
def State.fenceWaits (s : State) (c : ClusterId) (scope : BitVec 2) : Bool :=
  !(s.cluster c).queue.isEmpty || (decide (scope = 2) && (s.awaits c .kestrel || s.awaitsRuntime c))

/-- Issue a FENCE form of a MINOR3; `waits` says what it still waits for after the drain, with which the maintenance held for pending
fills is performed. A fence that waits stays the next instruction. -/
def State.fenceOp (s : State) (c : ClusterId) (minor3 : Nat) (rd ra : BitVec 5) (imm : BitVec 12) (bad : Bool)
    (drains : Bool) (waits : State → Bool) : State :=
  s.issue c 4 (fun s =>
    if bad ∨ rd ≠ 0 ∨ ra ≠ 0 then s.raiseWord c exRsvdEnc (wordRI 0x16 rd ra minor3 imm)
    else
      let s1 := if drains then (s.drainStores c).settleAllHeld c else s
      if waits s1 then s1 else s1.advance c 4)

def execFence (c : ClusterId) (rd ra : BitVec 5) (imm : BitVec 12) (s : State) : Result :=
  .next (s.fenceOp c 0 rd ra imm (decide (bitsAt imm 2 10 ≠ 0) || decide (bitsAt imm 0 2 = 3)) true
    (fun s => s.fenceWaits c (bitsAt imm 0 2)))
def execFenceV (c : ClusterId) (rd ra : BitVec 5) (imm : BitVec 12) (s : State) : Result :=
  .next (s.fenceOp c 1 rd ra imm (decide (imm ≠ 0)) true (fun _ => false))
/-- FENCE_H waits for Harrier and Hearth instructions, which this model completes as they issue. -/
def execFenceH (c : ClusterId) (rd ra : BitVec 5) (imm : BitVec 12) (s : State) : Result :=
  .next (s.fenceOp c 2 rd ra imm (decide (imm ≠ 0)) false (fun _ => false))

end Sys2Proof.Machine
end

