-- ==== Sys2Proof/Machine/Attention.lean ====
section
/-! DEFINITION. ATTN (R246-R256): the header it captures, the page walk, the arithmetic of a query head, and the end of a cluster's
share by KEND (R122, R231, R254, R313). -/
namespace Sys2Proof.Machine

/-! ### EXP (R255 step 5) -/

/-- Fraction bits of the working value. -/
def expBits : Nat := 320

/-- The series of e^y over `n` terms from term `k`, for a fixed-point `y` and the term before. -/
def expSeries (y : Int) : Nat → Nat → Int → Int
  | 0, _, _ => 0
  | n + 1, k, term =>
    let next := term * y / ((k : Int) * 2 ^ expBits)
    next + expSeries y n (k + 1) next

/-- e^x in fixed point for a fixed-point `x` of magnitude at most 104: the series at x / 256, squared eight times. -/
def expFixed (x : Int) : Int :=
  let one : Int := 2 ^ expBits
  (List.range 8).foldl (fun r _ => r * r / one) (one + expSeries (x / 256) 60 1 one)

/-- EXP. The working value has over 80 correct bits beyond those of FP32, which tells every rounding apart: no FP32 operand but 0 has a
rational exponential. DEDUCED (log entry 50). -/
def expF (x : Nat) : Nat :=
  match decodeF fmtF32 x with
  | .nan _ => canonNan fmtF32
  | .inf n => if n then 0 else infBits fmtF32 false
  | .fin n m e =>
    let v : FVal := .fin n m e
    if cmpV v (intV 89) > 0 then infBits fmtF32 false
    else if cmpV v (intV (-104)) < 0 then 0
    else (roundF fmtF32 .rne false false false (expFixed (scaled n m e (-(expBits : Int)))).toNat (-(expBits : Int)) true).1

/-! ### One query head (R255) -/

/-- Fields of an ATTN. -/
def Desc.atQ (d : Desc) : Nat := d.num 24 0 64
def Desc.atOut (d : Desc) : Nat := d.num 32 0 64
def Desc.atScale (d : Desc) : Nat := d.num 40 0 32
def Desc.atPos (d : Desc) : Nat := d.num 44 0 32
def Desc.atNq (d : Desc) : Nat := d.num 48 0 7
def Desc.atNqh (d : Desc) : Nat := d.num 49 0 7
def Desc.atNcl (d : Desc) : Nat := d.num 50 0 6
def Desc.atType (d : Desc) : Nat := d.num 51 0 4
def Desc.atCausal (d : Desc) : Bool := flagAt d.bits 51 4
def Desc.atGroup (d : Desc) : Nat := d.atNqh / kvHeads d.hdr

/-- An FP32 operation on encodings, each rounded once. -/
def f32add : ElemOp := addF fmtF32 .rne false
def f32mul (x y : Nat) : Nat := (mulF fmtF32 .rne false x y).1

/-- The value of the tree of R170 over leaves, some of them absent. -/
def treeValue (op : ElemOp) (l : List (Option Nat)) : Option Nat :=
  ((tree op (bitLen l.length) (l.map (fun x => x.map (fun v => (v, FFlags.none))))).headD none).map (·.1)

/-- The score of a key (step 2). -/
def scoreOf (scale : Nat) (q k : List Nat) : Nat :=
  f32mul ((treeValue f32add ((q.zip k).map (fun p => some (f32mul p.1 p.2)))).getD 0) scale

/-- The outputs of one query head (steps 3 to 7) in FP32: `present` says which positions are seen. -/
def headOut (scale dh : Nat) (q : List Nat) (ks vs : List (List Nat)) (present : Nat → Bool) : List Nat :=
  let scores := (ks.map (scoreOf scale q)).zipIdx.map (fun p => if present p.2 then some p.1 else none)
  match scores.filterMap id with
  | [] => List.replicate dh 0
  | s0 :: rest =>
    let m := rest.foldl (fun a b => (minMaxF fmtF32 false true a b).1) s0
    let es := scores.map (fun x => x.map (fun v => expF (addF fmtF32 .rne false v (negF fmtF32 m)).1))
    let l := (treeValue f32add es).getD 0
    (List.range dh).map (fun i =>
      let num := (treeValue f32add ((es.zip vs).map (fun p => p.1.map (fun e => f32mul e (nthD p.2 i 0))))).getD 0
      (divF fmtF32 .rne false num l).1)

/-! ### A rank (R251, R254) -/

/-- Elements of the cache type as FP32. -/
def kvFloats (h : Line) (b : List Byte) : List Nat :=
  (splitElems 2 (b.length / 2) b).map (fun x => (convertElem (kvType h) 6 .rne false none x).1)

/-- Tokens of a page. -/
def kvTokensIn (h : Line) (j : Nat) : Nat := if j + 1 = kvPages h then kvLast h else kvPt h

/-- A 64-byte line that the runtime's Kestrel loads (R251); one at a peer is asked for as its mover asks. -/
def kestrelLine (c : ClusterId) (w : Work) (va : Nat) : Run (List Byte) := once c (fun s =>
  let v : Word := BitVec.ofNat 64 va
  match s.access c .kestrel .mover .r v 64 with
  | (.fault, s1) => (.error (.xlate v), s1)
  | (.violation, s1) => (.error (.raises exRights v), s1)
  | (.ecc, s1) => (.error (.raises exEccUncorr v), s1)
  | (.ok t e, s1) =>
    match s1.kestrelRead c (s1.aspOf c) va t e 64 with
    | (.bytes b, s2) => (.ok b, s2)
    | (.remote _ _, _) =>
      match s1.loadSpan c w va 64 with
      | (.ok b, s2) => (.ok b, s2)
      | (.error x, s2) => (.error (.mover x 1), s2)
    | (g, s2) => (.error (.got v t g), s2))

/-- Walk a page table from entry `j` (R251): the Kestrel reads each line of entries as it comes to it, and the mover brings the rank's
heads of each page; `none` at an entry that breaks R250. The answer has a list per page, of one run per head. -/
def walkPages (c : ClusterId) (w : Work) (h : Line) (heads : List Nat) (base : Nat) :
    List Nat → List Byte → Run (Option (List (List (List Byte))))
  | [], _ => pure (some [])
  | j :: js, line => do
    let va := base + 8 * j
    let l ← if line.isEmpty || decide (va % 64 = 0) then kestrelLine c w (va / 64 * 64) else pure line
    let e := ofBytes ((l.drop (va % 64)).take 8)
    if kvEntryOk h j e then
      let part ← heads.mapM (fun hd => loadRun c w (kvPage e + hd * kvPt h * kvDhead h * 2) (kvTokensIn h j * kvDhead h * 2))
      let more ← walkPages c w h heads base js l
      return more.map (fun r => part :: r)
    else return none

/-- The tokens of head number `i` of a rank. -/
def headTokens (h : Line) (pages : List (List (List Byte))) (i : Nat) : List (List Nat) :=
  let l := pages.flatMap (fun p => kvFloats h (nthD p i []))
  (List.range (kvTokens h)).map (fun t => (l.drop (t * kvDhead h)).take (kvDhead h))

/-- One KV head with its query heads: read the queries, compute, write. -/
def headRun (c : ClusterId) (w : Work) (d : Desc) (head : Nat) (ks vs : List (List Nat)) : Run Unit := do
  let h := d.hdr
  let dh := kvDhead h
  let g := d.atGroup
  (List.range d.atNq).forM (fun i => do
    let b ← loadRun c w (d.atQ + (i * d.atNqh + head * g) * dh * 2) (g * dh * 2)
    let q := kvFloats h b
    let out := (List.range g).flatMap (fun k =>
      headOut d.atScale dh ((q.drop (k * dh)).take dh) ks vs (fun p => !d.atCausal || decide (p ≤ d.atPos + i)))
    saveRun c w (d.atOut + (i * d.atNqh + head * g) * dh * esize d.atType)
      (out.flatMap (fun v => toBytes (esize d.atType) (convertElem 6 d.atType .rne false none v).1)))

/-- The share of a rank. The answer says whether every entry keeps R250. -/
def attnRun (c : ClusterId) (w : Work) (rank : Nat) (d : Desc) : Run Bool := do
  let heads := (List.range (kvHeads d.hdr)).filter (fun h => decide (h % d.atNcl = rank))
  let pages := List.range (kvPages d.hdr)
  match ← walkPages c w d.hdr heads (kvKTable d.hdr) pages [] with
  | none => return false
  | some kp =>
    match ← walkPages c w d.hdr heads (kvVTable d.hdr) pages [] with
    | none => return false
    | some vp =>
      heads.zipIdx.forM (fun p => headRun c w d p.1 (headTokens d.hdr kp p.2) (headTokens d.hdr vp p.2))
      return true

/-! ### Begin (R253) -/

/-- Does an ATTN keep R253 for a header? -/
def attnOk (d : Desc) (h : Line) (e : Option RangeEntry) : Bool :=
  kvHeaderOk h e && decide (d.atNqh % kvHeads h = 0) && decide (d.atNcl ≤ kvHeads h)
    && decide (d.atNq * (d.atNqh / kvHeads h) * kvTokens h * 4 ≤ 4 * 2 ^ 20) && decide (d.atScale / 2 ^ 23 % 256 ≠ 255)

/-- Read and capture the header, and dispatch. -/
def State.readKvHeader (s : State) (c : ClusterId) (st : StreamId) (d : Desc) : State :=
  let w : Work := some (st, d.idx)
  let va := d.num 16 0 64
  match s.loadSpan c w va 64 with
  | (.error x, s1) => s1.moverStops c st d.idx 1 x
  | (.ok b, s1) =>
    let h : Line := BitVec.ofNat 512 (ofBytes b)
    let s2 := s1.dropAnswers c w
    if attnOk d h (s2.entryAt (s2.aspOf c) va) then
      (s2.modDesc st d.idx (fun e => { e with hdr := h })).dispatchAll st d.idx d.atNcl
    else s2.badDescriptor st d.idx 16

/-- ATTN. -/
def execAttn (st : StreamId) (idx : W32) (s : State) : Result :=
  .next (s.beginShares st idx opAttn 50 (fun c d s => s.readKvHeader c st d))

/-! ### KEND -/

/-- The working registers and store that a runtime-executed share leaves behind have no stated contents: free values (log entry 51).
VFLAGS, the AMAX slots and the first CSLIVE bytes of the store are not touched. -/
def State.runtimeLeaves (s : State) (c : ClusterId) : State :=
  let (k, s1) := s.fresh
  let free (m : Nat) (w : Nat) : BitVec w := BitVec.ofNat w (ofBytes ((List.range (w / 8)).map (Config.freeByte (k + 2 ^ 64 * m))))
  s1.modCluster c (fun x =>
    let live := x.k.cslive.toNat
    { x with
      h := { x.h with
        v := (List.range 32).foldl (fun t i => Table.set t i (free i 16384)) x.h.v
        p := (List.range 8).foldl (fun t i => Table.set t i (free (32 + i) 2048)) x.h.p
        vl := BitVec.ofNat 12 ((Config.freeWord k).toNat % 2049) }
      m := { x.m with
        tiles := (List.range 8).foldl (fun t i => Table.set t i (free (64 + i) 131072)) x.m.tiles
        partials := 0
        isOpen := false
        steps := 0
        lfsr := free 80 65536
        hflags := free 81 8 |>.setWidth 3 }
      store := Mem.writeBytes x.store live ((List.range (shadowBase - live)).map (Config.freeByte (k + 2 ^ 64 * 82))) })

/-- The share goes on from where it stopped: what was accessed lies ahead again. -/
def State.shareBack (s : State) (c : ClusterId) : State :=
  s.modCluster c (fun x => { x with work := { x.work with done := [], ahead := x.work.done ++ x.work.ahead } })

/-- A share stops. A translation fault of its mover or of the runtime's Kestrel holds the cluster, and KEND is issued again after RESUME,
from where it stopped (R244). -/
def State.shareStops (s : State) (c : ClusterId) (sh : Share) : ShareStop → State
  | .mover x a =>
    match x.how with
    | .xlate =>
      let s1 := (s.shareBack c).runtimeLeaves c
      let id := s1.sched.nextFault
      (s1.modCluster c (fun y => { y with fault := some id, k := { y.k with run := .faultStop } })).postFault sh.st 3 (some c) a
        (BitVec.ofNat 64 x.va) x.len (some sh.idx)
    | .remote _ _ _ => (s.shareBack c).askMover c (some (sh.st, sh.idx)) sh.st (some sh.idx) x
    | g => s.moverFails c sh.st (some sh.idx) g
  | .xlate va => ((s.shareBack c).runtimeLeaves c).xlateFault c 1 va 64
  | .raises code va => s.raise c code va (s.kestrel c).pc
  | .got va t g => s.afterRead c va t g (fun _ s => s)

/-- The share of an image operator goes on, and ends once its last group is done; before a group that other ranks have not come to, it
waits, and KEND is issued again. -/
def State.imageShare (s : State) (c : ClusterId) (sh : Share) (d : Desc) : State :=
  let w : Work := some (sh.st, sh.idx)
  match (imageRun c w (s.seedOf c) sh.rank d).run s with
  | (.error x, s1) => s1.shareStops c sh x
  | (.ok false, s1) => s1
  | (.ok true, s1) => ((s1.dropAnswers c w).runtimeLeaves c).endShare c sh (fun d s => s.imageEnd sh.st d)

/-- The share of an ATTN is computed and ends; a table entry that breaks R250 ends the descriptor. -/
def State.attnShare (s : State) (c : ClusterId) (sh : Share) (d : Desc) : State :=
  let w : Work := some (sh.st, sh.idx)
  match (attnRun c w sh.rank d).run s with
  | (.error x, s1) => s1.shareStops c sh x
  | (.ok good, s1) =>
    let s2 := s1.dropAnswers c w
    let s3 := if good then s2 else s2.badDescriptor sh.st sh.idx 16
    (s3.runtimeLeaves c).endShare c sh (fun d s => s.finish sh.st d.idx stDone 0)

/-- Control returns to the runtime: LEVEL S with IE 0, but a KEND at O stays there. DEDUCED (log entry 36). -/
def State.kendReturn (s : State) (c : ClusterId) : State :=
  (s.modK c (fun k => if k.level = 2 then k else { k with level := 1, ie := false })).advance c 4

/-- End the share of a cluster: a KERNEL's once its mover has done the runtime's requests, whose writes come before the DONE record
(R89), a runtime-executed operator's with its work, if its mover may work. -/
def State.kend (s : State) (c : ClusterId) : State :=
  match (s.cluster c).share with
  | none => s.kendReturn c
  | some sh =>
    match s.desc sh.st sh.idx with
    | none => (s.kendReturn c).endShare c sh (fun _ s => s)
    | some d =>
      let image := decide (d.opcode = opConvStripe ∨ d.opcode = opConvLoaf ∨ d.opcode = opPool)
      if d.isRunning && (image || decide (d.opcode = opAttn)) then
        if s.moverReady c && !s.awaitsRead c (some (sh.st, sh.idx)) then
          let s1 := if image then s.imageShare c sh d else s.attnShare c sh d
          if (s1.cluster c).share.isNone ∧ (s1.cluster c).job.isSome then s1.kendReturn c else s1
        else s
      else if (s.cluster c).queue.isEmpty then (s.kendReturn c).endShare c sh (fun d s => s.finish sh.st d.idx stDone 0)
      else s

/-- KEND (R122, R313). -/
def execKend (c : ClusterId) (rd ra : BitVec 5) (code : BitVec 12) (s : State) : Result :=
  .next (s.issue c 4 (fun s =>
    if rd ≠ 0 ∨ ra ≠ 0 ∨ code ≠ 0 then s.raiseWord c exRsvdEnc (wordSY 7 rd ra code)
    else s.kend c))

end Sys2Proof.Machine
end

