-- ==== Sys2Proof/Machine/Descriptors.lean ====
section
/-! DEFINITION. The descriptors that the device runs itself (R33, R41, R76-R83, R116, R122, R292-R295). -/
namespace Sys2Proof.Machine

/-- NOP (R76). -/
def execNop (st : StreamId) (idx : W32) (s : State) : Result :=
  .next (s.beginChecked st idx opNop (fun _ s => s.finish st idx stDone 0))

/-! ### JOB_START (R33, R77-R79) -/

/-- Bytes a job's save area takes (R34). -/
def saveBytes (maxCl : Nat) : Nat := (imageSize + snapshotSize) * maxCl

/-- The checks made when a JOB_START begins; the save area is looked for only in an address space that the job can use (R479). -/
def State.startChecks (s : State) (st : StreamId) (d : Desc) : List (Nat × Bool) :=
  let x := s.stream st
  let minCl := d.num 17 0 6
  let maxCl := d.num 18 0 6
  let asp := AspId.ofNat' (d.num 20 0 10)
  let save := d.num 32 0 64
  let sp := s.space asp
  let usable := sp.enabled && decide (sp.function = x.function)
  [(16, decide (d.num 16 0 8 ≠ x.job.val) || (s.job x.job).isSome),
   (17, decide (minCl = 0 ∨ maxCl < minCl)), (18, decide (48 < maxCl)),
   (20, !usable),
   (18, usable && !sp.entries.any (fun e => e.pinned && (decide (e.type = tyDevice) && (decide (e.lo ≤ save)
      && decide (save + saveBytes maxCl ≤ e.hi)))))]

/-- The job a JOB_START creates. -/
def startJob (st : StreamId) (d : Desc) : Job :=
  { phase := .created, aspace := AspId.ofNat' (d.num 20 0 10), minCl := fieldAt d.bits 17 0 6, maxCl := fieldAt d.bits 18 0 6
    attempts := fieldAt d.bits 19 0 4, fromCheckpoint := flagAt d.bits 19 4, seed := d.word 24, saveVa := d.word 32
    attempt := 0, startStream := st, aborted := false, attemptPending := false, stripping := false, base := none
    saved := [], snapshots := [], ended := [], ckpt := none, restore := none }

/-- JOB_START; the periods of every stream of the job are numbered from it (R53, R54). -/
def execJobStart (st : StreamId) (idx : W32) (s : State) : Result :=
  .next (s.beginChecked st idx opJobStart (fun d s =>
    match firstBad (s.startChecks st d) with
    | some b => s.badDescriptor st idx b
    | none =>
      let j := (s.stream st).job
      let s1 := s.setJob j (some (startJob st d))
      let s2 : State := (s1.jobStreams j).foldl (fun s t => s.modStream t (fun (x : Stream) => { x with
        afterStart := if t = st then some (idx + 1) else none
        position := if t = st then x.position else 0
        current := 0
        periodOpen := false
        starts := if t = st then x.starts else []
        demoted := false
        charge := 0 })) s1
      s2.finish st idx stDone 0))

/-! ### JOB_END (R41, R80) -/

/-- The job ends in DONE once every stream assigned to it has its JOB_END. -/
def State.jobDone (s : State) (j : JobId) : State :=
  match s.job j with
  | some x =>
    if (s.jobStreams j).all (fun st => x.ended.contains st) then
      ((s.jobClusters j).foldl (fun s c => s.releaseCluster c) (s.setJob j (some { x with saved := [] }))).endJob j .done
    else s
  | none => s

/-- JOB_END. -/
def execJobEnd (st : StreamId) (idx : W32) (s : State) : Result :=
  let j := (s.stream st).job
  .next (if ((s.desc st idx).map (·.isAbort)) = some true then s
  else s.beginChecked st idx opJobEnd (fun _ s =>
      let s1 := (s.finish st idx stDone 0).modJob j (fun x => { x with ended := st :: x.ended })
      let s2 := s1.modStream st (fun x => x.unread)
      (s2.settle st).jobDone j))

/-- JOB_END with ABORT set begins at fetch, whatever stands before it, and it finishes when the job has ended (R41). Its completion ring
need not have room then: DEDUCED (log entry 118). -/
def execJobEndAbort (st : StreamId) (idx : W32) (s : State) : Result :=
  let x := s.stream st
  .next (match s.desc st idx with
    | some d =>
      if s.ready && x.enabled && d.isFetched && d.isAbort && !x.restartHeld then
        let s1 := s.modDesc st idx (fun e => { e with phase := .running })
        match s1.job x.job with
        | some j => if j.phase = .done ∨ j.phase = .failed then s1.finish st idx stDone 0 else s1.requestAbort x.job
        | none => s1.finish st idx stDone 0
      else s
    | none => s)

/-! ### FENCE (R81) -/

/-- Has a stream written every terminal record before an index? -/
def State.reached (s : State) (t : StreamId) (i : W32) : Bool := !before32 (s.stream t).nextTerminal i

/-- Are a job's writes to peers answered (R384)? -/
def State.peersQuiet (s : State) (j : JobId) : Bool :=
  s.fabric.requests.all (fun r => decide (r.job ≠ j) || r.answer.isSome)

/-- Are the conditions of a FENCE met? -/
def State.fenceMet (s : State) (st : StreamId) (d : Desc) : Bool :=
  (s.stream st).earlierClosed d
    && (decide (d.num 16 0 8 ≠ 2) || s.peersQuiet (s.stream st).job)
    && (!flagAt d.bits 19 7 || s.reached (StreamId.ofNat' (d.num 18 0 12)) (d.half 20))

/-- Go on with a FENCE: at SCOPE HOST a read of host memory follows the posted writes before the record. -/
def State.fenceStep (s : State) (st : StreamId) (d : Desc) : State :=
  if s.fenceMet st d then
    let s1 := if d.num 16 0 8 = 1 then
      s.emit (.hostRead 0 (BitVec.ofNat 64 (s.regPair (stbBase + 0x10) + 4 * (s.stream st).cring.val)) 4) else s
    s1.finish st d.idx stDone 0
  else s

/-- FENCE: it begins in ring order, and completes when its conditions hold. -/
def execFenceDescriptor (st : StreamId) (idx : W32) (s : State) : Result :=
  .next (match s.desc st idx with
    | some d =>
      if d.isRunning then s.continuing st idx opFence (fun d s => s.fenceStep st d)
      else s.beginChecked st idx opFence (fun d s =>
        let t := StreamId.ofNat' (d.num 18 0 12)
        if flagAt d.bits 19 7 && (!(s.stream t).enabled || decide ((s.stream t).job ≠ (s.stream st).job)) then
          s.badDescriptor st idx 18
        else s.fenceStep st d)
    | none => s)

/-! ### TIMESTAMP (R82), PERIOD_MARK (R55, R83), CODE_SYNC (R116) -/

/-- Read the timebase, write it, and finish. A translation fault suspends the descriptor, whose retry reads the timebase again: DESIGN
CHOICE (log entry 117); any other stop fails the job. -/
def State.stamp (s : State) (st : StreamId) (d : Desc) : State :=
  let va := d.word 16
  let j := (s.stream st).job
  let asp := ((s.job j).map (·.aspace)).getD 0
  if va = 0 then s.finishAt st d.idx stDone 0 (some s.tick)
  else
    match s.jobWrite asp va.toNat (toBytes 8 s.tick.toNat) with
    | (none, s1) => s1.finishAt st d.idx stDone 0 (some s.tick)
    | (some .xlate, s1) =>
      let id := s1.sched.nextFault
      (s1.modDesc st d.idx (fun e => { e with heldBy := some id })).postFault st 3 none 2 va 8 (some d.idx)
    | (some (.remote dev pa _), s1) =>
      if (s1.requestPort .mover 0 (BitVec.ofNat 12 dev)).isNone then
        (s1.postCause st (some d.idx) stFenced ukFabric).failJob j
      else (s1.sendRequest 0 .mover 3 (BitVec.ofNat 12 dev) pa 8 0 false none (toBytes 8 s.tick.toNat) .moveWrite va
        (some (st, d.idx))).finishAt st d.idx stDone 0 (some s.tick)
    | (some g, s1) => s1.jobStops st (some d.idx) g

/-- TIMESTAMP; one that a fault held goes on after its RESUME. -/
def execTimestamp (st : StreamId) (idx : W32) (s : State) : Result :=
  .next (match s.desc st idx with
    | some d =>
      if d.isRunning then s.continuing st idx opTimestamp (fun d s => if d.heldBy.isNone then s.stamp st d else s)
      else s.beginChecked st idx opTimestamp (fun d s => s.stamp st d)
    | none => s)

/-- Does the mover of a cluster run a descriptor of its job? -/
def State.moverBusy (s : State) (c : ClusterId) : Bool :=
  match (s.cluster c).job with
  | some (j, i) => (s.jobStreams j).any (fun st => (s.stream st).descs.any (fun d => d.isRunning && decide (d.workJci = some i.toNat)))
  | none => false

/-- PERIOD_MARK: every earlier descriptor has its terminal record; the stream's clusters are released until the next period. -/
def execPeriodMark (st : StreamId) (idx : W32) (s : State) : Result :=
  .next (s.beginChecked st idx opPeriodMark (fun d s =>
    let s1 := s.finish st idx stDone 0
    if d.period = (s1.stream st).current then
      let idle := (s1.contextsOf st).filter (fun c =>
        (s1.cluster c).share.isNone && (!(s1.cluster c).stopped && !s1.moverBusy c))
      idle.foldl (fun s c => s.releaseCluster c) s1
    else s1))

/-- CODE_SYNC: every cluster of the job drains and cleans, then every L1I is invalidated. -/
def execCodeSync (st : StreamId) (idx : W32) (s : State) : Result :=
  .next (s.beginChecked st idx opCodeSync (fun _ s =>
    let cs := s.jobClusters (s.stream st).job
    let s1 := cs.foldl (fun s c => (s.drainStores c).cleanL1 c false) s
    (cs.foldl (fun s c => s.modCluster c (fun x => { x with l1i := [] })) s1).finish st idx stDone 0))

/-! ### KERNEL (R121, R122) -/

/-- KERNEL. -/
def execKernel (st : StreamId) (idx : W32) (s : State) : Result :=
  .next (s.beginNcl st idx opKernel 32 (fun _ c rank s => s.beginHearth c rank))

/-! ### RESUME (R293-R295) -/

/-- RESUMED for every descriptor that got FAULT_SUSPENDED for a fault; it is not outstanding any more. -/
def State.resumedNotices (s : State) (st : StreamId) (id : W32) : State :=
  let hit := (s.stream st).descs.filter (fun d => d.faults.contains id)
  let recs := hit.map (fun d => s.descRecord st d stResumed id.toNat)
  (s.modStream st (fun x => { x with
    descs := x.descs.map (fun d => { d with faults := d.faults.filter (fun i => decide (i ≠ id)) })
    notices := x.notices ++ recs })).flushStream st

/-- Restart the master that a fault holds: a stopped Kestrel or Harrier reissues at its saved PC, a saved context when it is
restored, a mover at the segment it stopped on. -/
def State.restartMaster (s : State) (f : FaultInfo) : State :=
  let s1 := allClusters.foldl (fun s c =>
    let x := s.cluster c
    if x.fault = some f.id then
      s.setCluster c { x with
        fault := none
        k := { x.k with run := if x.k.run = .faultStop then .running else x.k.run } }
    else if x.queue.any (fun r => decide (r.fault = some f.id)) then
      s.setCluster c { x with queue := x.queue.map (fun r => if r.fault = some f.id then { r with fault := none } else r) }
    else s) s
  let s2 := s1.modJob f.job (fun j => { j with
    saved := j.saved.map (fun v => if v.fault = some f.id then { v with resumed := true } else v) })
  (s2.jobStreams f.job).foldl (fun s st => s.modStream st (fun x => { x with
    descs := x.descs.map (fun d => if d.heldBy = some f.id then { d with heldBy := none } else d) })) s2

/-- Leave SUSPENDED_FAULT when no fault of the stream is outstanding: PREEMPTED if its contexts were saved meanwhile (R43). -/
def State.leaveFault (s : State) (st : StreamId) : State :=
  let x := s.stream st
  if x.phase = .suspendedFault ∧ s.sched.faults.any (fun f => decide (f.stream = st) && f.outstanding) = false then
    (s.setStream st { x with phase := if s.contextSaved st then .preempted else .active }).settle st
  else s

/-- RESUME. -/
def execResume (st : StreamId) (idx : W32) (s : State) : Result :=
  .next (s.beginChecked st idx opResume (fun d s =>
    let id := d.half 16
    match s.sched.faults.find? (fun f => decide (f.id = id)) with
    | some f =>
      if (s.stream f.stream).function ≠ (s.stream st).function then s.badDescriptor st idx 16
      else if f.outstanding then
        let s1 := s.restartMaster f
        let mark := replaceFirst (fun (x : FaultInfo) => decide (x.id = id)) (fun x => { x with outstanding := false }) s1.sched.faults
        let s2 := { s1 with sched := { s1.sched with faults := mark } }
        ((s2.resumedNotices f.stream id).leaveFault f.stream).finish st idx stDone 0
      else s.finish st idx stDone 0
    | none =>
      if before32 (s.sched.nextFault - 1) id then s.badDescriptor st idx 16 else s.finish st idx stDone 0))

end Sys2Proof.Machine
end

