-- ==== Sys2Proof/Machine/Fabric.lean ====
section
/-! DEFINITION. The fabric (R378-R396): forwarding, serving the requests of other devices, the answers to this device's requests, the
timebase, ring cuts and the sleep agreement. -/
namespace Sys2Proof.Machine

/-! ### Packets (R381, R382) -/

/-- The response of a request kind. -/
def responseKind (k : Nat) : Option Nat :=
  match k with
  | 1 => some 2 | 3 => some 4 | 5 => some 6 | 0x10 => some 0x13 | 0x11 => some 4 | 0x12 => some 0x13 | 0x14 => some 0x15
  | _ => none

/-- Kinds a router knows; link-local ones are never forwarded. -/
def knownKind (k : Nat) : Bool := [1, 2, 3, 4, 5, 6, 8, 9, 0xA, 0xB, 0xC, 0xD, 0xE, 0xF, 0x10, 0x11, 0x12, 0x13, 0x14, 0x15].contains k
def linkLocal (k : Nat) : Bool := decide (k = 8 ∨ k = 9 ∨ (0xC ≤ k ∧ k ≤ 0xF))

/-- Status codes of responses. -/
def psOk : Nat := 0
def psViolation : Nat := 1
def psFenced : Nat := 2
def psUnreachable : Nat := 3

/-- A packet of this device with nothing but its kind, destination and data. -/
def State.ownPacket (s : State) (kind : Nat) (dst : BitVec 12) (data : List Byte) : Packet :=
  { dst := dst, src := s.fabId, kind := BitVec.ofNat 8 kind, vcb := false, sealedBlk := false, sealValid := false, tag := 0
    op := 0, mkind := 0, mnum := 0, addr := 0, crc := 0, len := BitVec.ofNat 8 data.length, data := data }

/-- Send a packet on its way; without a live path it is dropped. -/
def State.route (s : State) (pkt : Packet) : State :=
  match s.hop pkt.dst false none with
  | some (p, v) => s.sendPacket p { pkt with vcb := v }
  | none => s

/-- The response to a request with a status and data. -/
def State.response (s : State) (pkt : Packet) (status : Nat) (data : List Byte) (crc : Option W32) : Option Packet :=
  (responseKind pkt.kind.toNat).map (fun k => { pkt with
    dst := pkt.src, src := s.fabId, kind := BitVec.ofNat 8 k, op := BitVec.ofNat 8 status, sealValid := crc.isSome
    crc := crc.getD 0, len := BitVec.ofNat 8 data.length, data := data })

/-- Answer a request. -/
def State.answer (s : State) (pkt : Packet) (status : Nat) (data : List Byte) (crc : Option W32) : State :=
  match s.response pkt status data crc with
  | some r => s.route r
  | none => s

/-- Is a dump under way, with a port still up (R454)? -/
def State.dumpPort (s : State) (p : PortId) : Bool :=
  decide (s.card.device = .ready ∧ s.integ.reason ≠ 0) && ((s.port p).carries || decide ((s.port p).lstate = 5))

/-- A port held in Talon delivers no request; once a dump has begun, a request is answered UNREACHABLE (R454), by the port that brought it:
DESIGN CHOICE (log entry 139), since the cuts of that dump lead no other way. -/
def State.turnAway (s : State) (p : PortId) (pkt : Packet) : State :=
  match s.response pkt psUnreachable [] none with
  | some r => if s.dumpPort p then s.sendPacket p r else s
  | none => s

/-- A port receives flits while it carries traffic (R380), and in DRAIN, where it waits for acknowledgements (R397). -/
def State.receives (s : State) (p : PortId) : Bool := s.ready && ((s.port p).carries || decide ((s.port p).lstate = 5))

/-! ### Failures of this device's own requests (R387) -/

/-- Forget one request. -/
def State.closeRequest (s : State) (r : PeerReq) : State := s.forget (fun x => decide (x.tag = r.tag) && decide (x.dst = r.dst))

/-- FENCED with the fabric's unit kind for the job of a request. -/
def State.requestFails (s : State) (r : PeerReq) : State :=
  let s1 := s.closeRequest r
  match r.work with
  | some (st, idx) => (s1.postCause st (some idx) stFenced ukFabric).failJob r.job
  | none => s1.fencedFor r.cluster ukFabric 0

/-- The request an answer belongs to. -/
def State.requestOf (s : State) (pkt : Packet) : Option PeerReq :=
  if pkt.dst = s.fabId then
    s.fabric.requests.find? (fun r => decide (r.tag = pkt.tag) && (decide (r.dst = pkt.src) && r.answer.isNone))
  else none

/-- A VIOLATION answer is a rights violation of the master that made the request (R302, R385): the Kestrel's own access enters the
Owl, a mover is frozen. -/
def State.requestViolates (s : State) (r : PeerReq) : State :=
  let s1 := s.closeRequest r
  match r.purpose with
  | .load _ _ | .store | .atomic _ _ =>
    (s1.modK r.cluster (fun k => if k.run = .remote then { k with run := .running } else k)).raise r.cluster exRights r.va
      (s1.kestrel r.cluster).pc
  | _ =>
    match r.work with
    | some (st, idx) =>
      if s.ownWork r then s1.jobFreeze st (some idx) fcRights
      else s1.freezeMover r.cluster st (some idx) fcRights
    | none => s1.freezeCluster .mover r.cluster fcRights

/-- Act on an answer: a failure status fails the request, OK runs `f`; an answer to no request is discarded. -/
def State.answered (s : State) (p : PortId) (kind : Nat) (pkt : Packet) (f : PeerReq → State → State) : State :=
  if s.receives p ∧ pkt.kind.toNat = kind then
    match s.requestOf pkt with
    | none => s
    | some r =>
      if pkt.op.toNat = psViolation then s.requestViolates r
      else if pkt.op.toNat = psOk then f r s
      else s.requestFails r
  else s

/-! ### Forwarding (R383, R395) -/

/-- A packet finds no live path: a request is answered UNREACHABLE, anything else is discarded; a request of this device fails. -/
def State.unreachable (s : State) (pkt : Packet) : State :=
  if pkt.src = s.fabId then
    match s.fabric.requests.find? (fun r => decide (r.tag = pkt.tag) && (decide (r.dst = pkt.dst) && r.answer.isNone)) with
    | some r => s.requestFails r
    | none => s
  else s.answer pkt psUnreachable [] none

/-- FORWARD: a packet for another device goes on by dimension order; one of unknown KIND is discarded and logged. -/
def execForward (p : PortId) (pkt : Packet) (s : State) : Result :=
  let k := pkt.kind.toNat
  .next (if s.receives p then
    if knownKind k = false then s.logCorrected (s.logEntry Config.linkErrorType.toNat 3 p.val 0)
    else if linkLocal k ∨ k = 0xA ∨ k = 0xB ∨ pkt.dst = s.fabId then s
    else
      match s.hop pkt.dst pkt.vcb (s.roleDim p) with
      | some (q, v) => s.sendPacket q { pkt with vcb := v }
      | none => s.unreachable pkt
  else s)

/-! ### Serving other devices (R385, R386) -/

/-- The number of an export window whose span holds an access and that allows it. -/
def State.exports (s : State) (pkt : Packet) (right : Nat) : Bool :=
  (List.range 16).any (fun n =>
    let o := 0x210 + 16 * n
    let base := s.regPair o
    let cfg := s.reg (o + 12)
    cfg.getLsbD 31 && (cfg.getLsbD right && (decide (cfg.getLsbD 3 = pkt.sealedBlk) && (decide (base ≤ pkt.addr.toNat)
      && decide (pkt.addr.toNat + pkt.len.toNat ≤ base + 4096 * (s.reg (o + 8)).toNat)))))

/-- A refused request: VIOLATION, and the port that brought it is held in Talon (R303). -/
def State.refuse (s : State) (p : PortId) (pkt : Packet) : State :=
  (s.answer pkt psViolation [] none).holdMaster .evoirIn p.val none fcFabric

/-- Serve a request for this device: a held port turns it away, a refused one is answered VIOLATION, a unit under reset answers
FENCED. -/
def State.serve (s : State) (p : PortId) (kind right : Nat) (pkt : Packet) (f : State → State) : State :=
  if pkt.kind.toNat = kind ∧ pkt.dst = s.fabId then
    if s.receives p = false ∨ s.frozen .evoirIn p.val then s.turnAway p pkt
    else if s.exports pkt right then
      match s.fencedUnit pkt.addr.toNat with
      | some _ => s.answer pkt psFenced [] none
      | none => f s
    else s.refuse p pkt
  else s

/-- READ: a present line is used, an absent one is not allocated; a sealed block's seal goes along. -/
def execPeerRead (p : PortId) (pkt : Packet) (s : State) : Result :=
  .next (s.serve p 1 0 pkt (fun s =>
    let pa := pkt.addr.toNat
    let (b, s1) := s.deviceRead pa pkt.len.toNat false
    s1.answer pkt psOk b (if pkt.sealedBlk then some (s1.storedSeal pa) else none)))

/-- WRITE: the write that covers a sealed block's last byte brings the new seal, which follows the data. -/
def execPeerWrite (p : PortId) (pkt : Packet) (s : State) : Result :=
  .next (s.serve p 3 1 pkt (fun s =>
    let pa := pkt.addr.toNat
    let s1 := s.deviceWrite pa (pkt.data.take pkt.len.toNat) false
    let s2 := if pkt.sealedBlk && pkt.sealValid then s1.writeMem (sealAddr pa) (toBytes 4 pkt.crc.toNat) else s1
    s2.answer pkt psOk [] none))

/-- ATOMIC: OP names the operation, the data its operand and compare value (log entry 41 for the data's layout). -/
def execPeerAtomic (p : PortId) (pkt : Packet) (s : State) : Result :=
  .next (s.serve p 5 2 pkt (fun s =>
    let pa := pkt.addr.toNat
    let w32 := pkt.op.getLsbD 4
    let n := if w32 then 4 else 8
    let old := s.readNum pa n
    let new := atomicNum (bitsAt pkt.op 0 4).toNat w32 old (ofBytes (pkt.data.take 8)) (ofBytes ((pkt.data.drop 8).take 8))
    (s.deviceWrite pa (toBytes n new) false).answer pkt psOk (toBytes 8 old) none))

/-! ### Answers (R384, R386) -/

/-- Go on with a Kestrel that waited for a peer. -/
def State.remoteDone (s : State) (r : PeerReq) (rd : BitVec 5) (v : Word) : State :=
  if (s.kestrel r.cluster).run = .remote then
    (s.modK r.cluster (fun k => { k with run := .running })).writeReg r.cluster rd v 4
  else s

/-- READ_RSP: a load gets its value; a mover's data waits for its next segment, which compares the seal. -/
def execReadRsp (p : PortId) (pkt : Packet) (s : State) : Result :=
  .next (s.answered p 2 pkt (fun r s =>
    match r.purpose with
    | .load rd how => (s.closeRequest r).remoteDone r rd (loadExtend how (ofBytes pkt.data))
    | .moveRead => { s with fabric := { s.fabric with requests := s.fabric.requests.map (fun x =>
        if x = r then { x with answer := some pkt.data, crc := pkt.crc } else x) } }
    | _ => s.closeRequest r))

/-- WRITE_ACK: the write is performed. -/
def execWriteAck (p : PortId) (pkt : Packet) (s : State) : Result := .next (s.answered p 4 pkt (fun r s => s.closeRequest r))

/-- ATOMIC_RSP: the old value. -/
def execAtomicRsp (p : PortId) (pkt : Packet) (s : State) : Result :=
  .next (s.answered p 6 pkt (fun r s =>
    match r.purpose with
    | .atomic rd w32 => (s.closeRequest r).remoteDone r rd (atomicOld w32 (ofBytes (pkt.data.take (if w32 then 4 else 8))))
    | _ => s.closeRequest r))

/-- REMOTE_REQUEST_LIMIT: a request unanswered for 2 ms. -/
def execRemoteRequestLimit (tag : BitVec 16) (s : State) : Result :=
  .next (match s.fabric.requests.find? (fun r => decide (r.tag = tag) && r.answer.isNone) with
    | some r => if s.ready then s.requestFails r else s
    | none => s)

/-! ### Port states (R380, R395, R396) -/

/-- A port enters a state; every change is posted, and shown by the port's state sensor (R428). Its burst ends when it leaves Active, DRAIN
apart, where flits still wait for their ACK (DESIGN CHOICE, log entry 138); one begins when it comes from PERCH (R360, R394). -/
def State.setLink (s : State) (p : PortId) (l : Nat) : State :=
  if (s.port p).lstate = BitVec.ofNat 8 l then s
  else
    let x := s.port p
    let s1 := s.setPort p { (if l = 2 ∨ l = 5 then x else x.endBurst) with lstate := BitVec.ofNat 8 l }
    let s2 := if l = 2 ∧ x.lstate = 3 then s1.openBurst p else s1
    (s2.postLink p).sensorEvent (12 + p.val) l

/-- Direction of a port's role: plus or minus. -/
def State.rolePlus (s : State) (p : PortId) : Bool := decide (s.role p % 2 = 0)

/-- The link that a port's role stands for: bit `c` names the link from coordinate `c` to the next. -/
def State.linkOf (s : State) (p : PortId) (dim : Nat) : Nat :=
  let c := coord s.fabId dim
  let size := s.dimSize dim
  if s.rolePlus p then c else (c + (size - 1)) % size

/-- Change a bit of a cut mask. -/
def State.setCut (s : State) (dim link : Nat) (on : Bool) : State :=
  let m := s.cutMask dim
  let b : BitVec 16 := 1#16 <<< link
  { s with fabric := { s.fabric with cuts := Table.set s.fabric.cuts dim (if on then m ||| b else m &&& ~~~ b) } }

/-- Send a ring notice one way: on the carrying port of least load in that direction. Its data are the dimension and the link (log
entry 41). -/
def State.ringNotice (s : State) (kind dim link : Nat) (src : BitVec 12) (plus : Bool) : State :=
  match s.leastLoaded (allPorts.filter (fun q => s.serves q dim plus)) with
  | some q => s.sendPacket q { s.ownPacket kind 0 [BitVec.ofNat 8 dim, BitVec.ofNat 8 link] with src := src }
  | none => s

/-- A port leaves service or comes back: once no port of its direction carries traffic, or one does again, the cut is recorded or
cleared and told round the ring both ways. DEDUCED for parallel ports (log entry 43). -/
def State.cutRing (s : State) (p : PortId) (cut : Bool) : State :=
  match s.roleDim p with
  | none => s
  | some dim =>
    let others := allPorts.any (fun q => decide (q ≠ p) && (s.serves q dim (s.rolePlus p) && (s.port q).carries))
    let link := s.linkOf p dim
    if others ∨ (s.cutMask dim).getLsbD link = cut then s
    else
      let s1 := s.setCut dim link cut
      let kind := if cut then 0xA else 0xB
      (s1.ringNotice kind dim link s.fabId true).ringNotice kind dim link s.fabId false

/-- The packets a port still holds, oldest first. -/
def Port.held (x : Port) : List Packet :=
  (x.replay.map (·.body) ++ x.waiting).filterMap (fun b => match b with
    | .data pkt => some pkt
    | _ => none)

/-- Send on, by another way, what a lost port still holds (R396). -/
def State.reinject (s : State) (p : PortId) : State :=
  let held := (s.port p).held
  let s1 := s.modPort p (fun x => { x with replay := [], waiting := [] })
  held.foldl (fun s pkt =>
    if linkLocal pkt.kind.toNat ∨ pkt.kind.toNat = 0xA ∨ pkt.kind.toNat = 0xB then s
    else
      match s.hop pkt.dst false none with
      | some (q, v) => s.sendPacket q { pkt with vcb := v }
      | none => s.unreachable pkt) s1

/-- A port is LOST (R375, R395, R396); its CAPACITY event is posted (R355). -/
def State.losePort (s : State) (p : PortId) : State :=
  ((((s.modPort p (fun x => { x with train := .none, sleep := .none, wake := false })).setLink p 6).cutRing p true).reinject
    p).postCapacity 3 p.val (portStop p)

/-- RING_CUT and RING_JOIN: the mask changes, and the notice goes on until it meets a cut or its sender. -/
def State.ringMoves (s : State) (p : PortId) (dim : Fin 3) (link : BitVec 4) (src : BitVec 12) (cut : Bool) : State :=
  let on := !s.rolePlus p
  let c := coord s.fabId dim.val
  let size := s.dimSize dim.val
  let next := if on then (c + 1) % size else (c + (size - 1)) % size
  let nextLink := if on then c else (c + (size - 1)) % size
  if s.receives p ∧ s.roleDim p = some dim.val ∧ src ≠ s.fabId then
    let blocked := (s.cutMask dim.val).getLsbD nextLink || decide (setCoord s.fabId dim.val next = src) || decide (size ≤ 2)
    let s1 := s.setCut dim.val link.toNat cut
    if blocked then s1 else s1.ringNotice (if cut then 0xA else 0xB) dim.val link.toNat src on
  else s

def execRingCut (p : PortId) (dim : Fin 3) (link : BitVec 4) (src : BitVec 12) (s : State) : Result :=
  .next (s.ringMoves p dim link src true)
def execRingJoin (p : PortId) (dim : Fin 3) (link : BitVec 4) (src : BitVec 12) (s : State) : Result :=
  .next (s.ringMoves p dim link src false)

/-! ### The timebase (R388) -/

/-- The port toward the time parent, unless this device is the root or has no identity. -/
def State.isRoot (s : State) : Bool := s.fabValid && decide (bitsAt (s.reg 0x204) 0 12 = s.fabId)
def State.parentPort (s : State) : Option PortId :=
  if s.fabValid = false ∨ s.isRoot then none else (s.hop (bitsAt (s.reg 0x204) 0 12) false none).map (·.1)

/-- Change what TB_SYNC shows. -/
def State.missTime (s : State) (n : Nat) : State :=
  { s with fabric := { s.fabric with
      tbMissed := n
      tbState := if s.fabric.tbState = 1 ∧ 2 ≤ n then 2 else s.fabric.tbState } }

/-- Send a TIME packet to the parent. -/
def State.askTime (s : State) (p : PortId) : State := s.sendPacket p (s.ownPacket 9 0 [])

/-- TIME_EXCHANGE: the exchange is due. One that the last due time started and no answer ended has failed, and so has one without a
parent. -/
def execTimeExchange (s : State) : Result :=
  .next (if s.ready = false ∨ s.fabValid = false then s
  else if s.isRoot then { s with fabric := { s.fabric with tbState := 1, tbHops := 0, tbOffset := 0, tbMissed := 0 } }
  else
    match s.parentPort with
    | none => s.missTime (s.fabric.tbMissed + 1)
    | some p =>
      let s1 := (s.missTime s.fabric.tbMissed).askTime p
      { s1 with fabric := { s1.fabric with tbMissed := s.fabric.tbMissed + 1 } })

/-- TIME: an exchange with the parent ends. Times are in units of 1/256 tick; the first after reset steps the timebase, later ones
slew it. DESIGN CHOICE for the unit (log entry 44). -/
def execTimePacket (p : PortId) (t1 t2 t3 t4 : Int) (hops : BitVec 5) (s : State) : Result :=
  .next (if s.receives p ∧ s.parentPort = some p then
    let off : Int := ((t2 - t1) - (t4 - t3)) / 2
    let ticks : Int := (off + 128) / 256
    let s1 := { s with fabric := { s.fabric with
      tbState := 1, tbHops := if hops = 31 then 31 else hops + 1, tbOffset := BitVec.ofInt 32 off, tbMissed := 0
      tbStepped := true, tbSlew := if s.fabric.tbStepped then ticks else 0 } }
    if s.fabric.tbStepped then s1 else { s1 with tick := s.tick + BitVec.ofInt 64 ticks }
  else s)

/-! ### The sleep agreement (R391-R394) -/

/-- EVL_PWR. -/
def State.perchTicks (s : State) (p : PortId) : Nat := (bitsAt (s.reg (evlBase p + 0x30)) 0 16).toNat
def State.roostTicks (s : State) (p : PortId) : Nat := (bitsAt (s.reg (evlBase p + 0x30)) 16 16).toNat

/-- Is nothing queued or unacknowledged but the sleep packets themselves? -/
def Port.isQuiet (x : Port) : Bool :=
  x.early.isEmpty && x.held.all (fun k => decide (0xC ≤ k.kind.toNat ∧ k.kind.toNat ≤ 0xF))
    && (x.waiting.all (fun b => match b with
      | .data _ => true
      | _ => false)
    && x.replay.all (fun f => match f.body with
      | .data _ => true
      | _ => false))

/-- Send a sleep packet, which is no wake request; its data byte says which sleep (log entry 41). -/
def State.sendSleep (s : State) (p : PortId) (kind : Nat) (roost : Bool) : State :=
  let pkt := s.ownPacket kind (s.port p).neigh [BitVec.ofNat 8 (bit roost)]
  (s.modPort p (fun x => { x with waiting := x.waiting ++ [.data pkt] })).pump p

/-- PERCH_IDLE. -/
def execPerchIdle (p : PortId) (s : State) : Result :=
  let x := s.port p
  .next (if s.ready ∧ x.lstate = 2 ∧ s.perchTicks p ≠ 0 ∧ x.sleep = .none ∧ x.isQuiet ∧ x.draining = false then
    (s.setPort p { x with sleep := .requested, sleepRoost := false }).sendSleep p 0xC false
  else s)

/-- ROOST_IDLE: the request goes out in a brief Active burst; a port toward the time parent makes none. -/
def execRoostIdle (p : PortId) (s : State) : Result :=
  let x := s.port p
  .next (if s.ready ∧ x.lstate = 3 ∧ s.roostTicks p ≠ 0 ∧ x.sleep = .none ∧ x.isQuiet ∧ s.parentPort ≠ some p then
    ((s.setLink p 2).modPort p (fun y => { y with sleep := .requested, sleepRoost := true })).sendSleep p
      0xC true
  else s)

/-- SLEEP_REQ: of two outstanding requests the one of the lower fabric ID stands. -/
def execSleepReq (p : PortId) (roost : Bool) (s : State) : Result :=
  let x := s.port p
  .next (if s.receives p then
    if x.sleep = .requested ∧ s.fabId < x.neigh then s
    else if x.isQuiet ∧ x.lstate = 2 ∧ x.draining = false then
      (s.setPort p { x with sleep := .none }).sendSleep p 0xD roost |>.modPort p (fun y => { y with
        sleep := .acked
        sleepRoost := roost })
    else (s.setPort p { x with sleep := .none }).sendSleep p 0xF roost
  else s)

/-- Traffic goes on. -/
def State.resumePort (s : State) (p : PortId) : State := (s.modPort p (fun x => { x with sleep := .none, wake := false })).pump p

/-- SLEEP_ACK: CONFIRM goes out as the last flit, unless a wake request came first. -/
def execSleepAck (p : PortId) (_ : Bool) (s : State) : Result :=
  let x := s.port p
  .next (if s.receives p ∧ x.sleep = .requested then
    if x.wake ∨ x.waiting ≠ [] then s.resumePort p
    else (s.sendSleep p 0xE x.sleepRoost).modPort p (fun y => { y with sleep := .confirmed })
  else s)

/-- An end's entry completes: the port sleeps; with a wake request outstanding it stays asleep for the Stoop dwell only. -/
def State.enterSleep (s : State) (p : PortId) : State :=
  let x := s.port p
  (s.setPort p { x with sleep := if x.wake ∨ x.waiting ≠ [] then .stoop else .none }).setLink p (if x.sleepRoost then 4 else 3)

/-- SLEEP_CONFIRM: void after an abort was sent. -/
def execSleepConfirm (p : PortId) (s : State) : Result :=
  let x := s.port p
  .next (if s.receives p then
    if x.sleep = .acked then s.enterSleep p
    else if x.sleep = .aborted then s.resumePort p else s
  else s)

/-- Is the CONFIRM of an initiator still unacknowledged? -/
def Port.confirmOpen (x : Port) : Bool := x.held.any (fun k => decide (k.kind = 0xE))

/-- SLEEP_ABORT: entry is abandoned unless the CONFIRM is covered. -/
def execSleepAbort (p : PortId) (s : State) : Result :=
  let x := s.port p
  .next (if s.receives p ∧ (x.sleep = .requested ∨ (x.sleep = .confirmed ∧ x.confirmOpen)) then s.resumePort p else s)

/-- A sleeping port exits: from PERCH at once, from ROOST by training with the tables reused. -/
def State.wakePort (s : State) (p : PortId) : State :=
  let x := s.port p
  if x.lstate = 3 then
    let s1 := ((s.setPort p { x with sleep := .none, wake := false }).setLink p 2).pump p
    if s1.parentPort = some p then s1.askTime p else s1
  else if x.lstate = 4 then
    (s.setPort p { x with sleep := .none, wake := false, train := .lock, roostExit := true }).setLink p 1
  else s

/-- WAKE_REQUEST (R393). -/
def execWakeRequest (p : PortId) (s : State) : Result :=
  let x := s.port p
  .next (if s.receives p then
    match x.sleep with
    | .none => s.wakePort p
    | .requested => s.resumePort p
    | .acked => (s.setPort p { x with sleep := .aborted }).sendSleep p 0xF x.sleepRoost
    | .aborted => s
    | _ => s.setPort p { x with wake := true }
  else s)

/-- STOOP: the dwell ends. -/
def execStoop (p : PortId) (s : State) : Result :=
  .next (if s.receives p ∧ (s.port p).sleep = .stoop then s.wakePort p else s)

/-! ### HELLO (R379, R380) -/

/-- The fabric ID that a port's role implies for its neighbour. -/
def State.impliedNeighbour (s : State) (p : PortId) : Option (BitVec 12) :=
  match s.roleDim p with
  | none => none
  | some dim =>
    let c := coord s.fabId dim
    let size := s.dimSize dim
    some (setCoord s.fabId dim (if s.rolePlus p then (c + 1) % size else (c + (size - 1)) % size))

/-- The torus port of an EXPRESS role. -/
def State.torusPort (s : State) (p : PortId) : Option PortId :=
  if 8 ≤ s.role p ∧ s.role p < 14 then allPorts.find? (fun q => decide (s.role q = s.role p - 8)) else none

/-- Is a peer wrong for a port? -/
def State.wrongPeer (s : State) (p : PortId) (peer : BitVec 12) : Bool :=
  (match s.impliedNeighbour p with
    | some id => decide (id ≠ peer)
    | none => false)
    || (match s.torusPort p with
      | some q => (s.port q).neighValid && decide ((s.port q).neigh ≠ peer)
      | none => false)

/-- HELLO: the neighbour becomes known; a wrong one makes the port MISWIRED. -/
def execHello (p : PortId) (peer : BitVec 12) (_ : BitVec 4) (s : State) : Result :=
  .next (if s.receives p then
    let s1 := s.modPort p (fun x => { x with neigh := peer, neighValid := true })
    if s1.wrongPeer p peer then s1.setLink p 7 else s1
  else s)

end Sys2Proof.Machine
end

