-- ==== Sys2Proof/Machine/Checkpoint.lean ====
section
/-! DEFINITION. Checkpoints (R38, R399-R404): the slots this device keeps for others and for itself, SAVE, RESTORE, the restore of a
restarting job, and ADMISSION, which such a restart goes through. -/
namespace Sys2Proof.Machine

/-! ### Slots and halves (R399, R402) -/

/-- Base and bytes of a half of a slot: `h` is generation B. -/
def State.halfBytes (s : State) : Nat := s.ckptSlotBytes / 2
def State.halfBase (s : State) (slot : Nat) (h : Bool) : Nat := s.ckptBase + slot * s.ckptSlotBytes + bit h * s.halfBytes
/-- STATE and SEQ of a half. -/
def State.halfState (s : State) (slot : Nat) (h : Bool) : Nat := if s.ckptSlotBytes = 0 then 0 else s.readNum (s.halfBase slot h + 1) 1
def State.halfSeq (s : State) (slot : Nat) (h : Bool) : W32 := BitVec.ofNat 32 (s.readNum (s.halfBase slot h + 4) 4)
/-- Write STATE. -/
def State.setHalf (s : State) (slot : Nat) (h : Bool) (v : Nat) : State := s.writeMem (s.halfBase slot h + 1) (toBytes 1 v)

/-- Is a device the owner of a slot? -/
def State.ownsSlot (s : State) (src : BitVec 12) (slot : Nat) : Bool :=
  let r := s.reg (0x320 + 4 * slot)
  decide (s.ckptSlotBytes ≠ 0) && (r.getLsbD 31 && decide (bitsAt r 0 12 = src))

/-- The half of the newest SEALED generation. -/
def State.newest (s : State) (slot : Nat) : Option Bool :=
  match decide (s.halfState slot false = 2), decide (s.halfState slot true = 2) with
  | true, true => some (before32 (s.halfSeq slot false) (s.halfSeq slot true))
  | true, false => some false
  | false, true => some true
  | false, false => none

/-- The half that is FILLING. -/
def State.filling (s : State) (slot : Nat) : Option Bool :=
  if s.halfState slot false = 1 then some false else if s.halfState slot true = 1 then some true else none

/-- FILLING halves of a slot return to EMPTY. -/
def State.emptyFilling (s : State) (slot : Nat) : State :=
  [false, true].foldl (fun s h => if s.halfState slot h = 1 then s.setHalf slot h 0 else s) s

/-- Open a half for a new generation. Without a SEALED generation it is A with SEQ 1: DESIGN CHOICE (log entry 41). -/
def State.openHalf (s : State) (src : BitVec 12) (slot : Nat) : Bool × State :=
  let s1 := s.emptyFilling slot
  let (h, n) : Bool × W32 := match s1.newest slot with
    | some b => (!b, s1.halfSeq slot b + 1)
    | none => (false, 1)
  (h, s1.writeMem (s1.halfBase slot h)
    (toBytes 1 1 ++ toBytes 1 1 ++ toBytes 2 src.toNat ++ toBytes 4 n.toNat ++ List.replicate 56 0))

/-- Write into the filling half of a slot: `none` when there is none, or the bytes do not fit it. -/
def State.fillHalf (s : State) (slot off : Nat) (bytes : List Byte) : Option State :=
  match s.filling slot with
  | some h => if 8 ≤ off ∧ off + bytes.length ≤ s.halfBytes then some (s.writeMem (s.halfBase slot h + off) bytes) else none
  | none => none

/-- The CRC over TOTAL bytes of a half. -/
def State.halfCrc (s : State) (slot : Nat) (h : Bool) : W32 :=
  let total := s.readNum (s.halfBase slot h + 16) 8
  crc32c (s.readMem (s.halfBase slot h + 0x40) (min total (s.halfBytes - 0x40)))

/-- Seal the filling half if its CRC matches. -/
def State.sealHalf (s : State) (slot : Nat) (crc : W32) : Option State :=
  match s.filling slot with
  | some h =>
    if s.halfCrc slot h = crc then
      let b := s.halfBase slot h
      some (((s.writeMem (b + 24) (toBytes 4 crc.toNat)).writeMem (b + 32) (toBytes 8 s.tick.toNat)).setHalf slot h 2)
    else none
  | none => none

/-- Bytes of the newest SEALED generation, or of generation A when there is none. -/
def State.readHalf (s : State) (slot off n : Nat) : List Byte := s.readMem (s.halfBase slot ((s.newest slot).getD false) + off) n

/-! ### The standby (R401). The packets carry the slot in OP and the CRC in SEAL: DESIGN CHOICE (log entry 41). -/

/-- The slot a checkpoint packet names. -/
def ckPacketSlot (k : Packet) : Nat := (bitsAt k.op 0 4).toNat

/-- Serve a checkpoint request of the slot's owner; a held port turns it away. -/
def State.serveCkpt (s : State) (p : PortId) (kind : Nat) (pkt : Packet) (f : State → State) : State :=
  if pkt.kind.toNat = kind ∧ pkt.dst = s.fabId then
    if s.receives p = false ∨ s.frozen .evoirIn p.val then s.turnAway p pkt
    else if s.ownsSlot pkt.src (ckPacketSlot pkt) then f s else s.refuse p pkt
  else s

/-- CKPT_OPEN: the answer gives the half and its size. -/
def execCkptOpen (p : PortId) (pkt : Packet) (s : State) : Result :=
  .next (s.serveCkpt p 0x10 pkt (fun s =>
    let (h, s1) := s.openHalf pkt.src (ckPacketSlot pkt)
    s1.answer pkt psOk (toBytes 8 (bit h) ++ toBytes 8 s1.halfBytes) none))

/-- CKPT_DATA. -/
def execCkptData (p : PortId) (pkt : Packet) (s : State) : Result :=
  .next (s.serveCkpt p 0x11 pkt (fun s =>
    match s.fillHalf (ckPacketSlot pkt) pkt.addr.toNat (pkt.data.take pkt.len.toNat) with
    | some s1 => s1.answer pkt psOk [] none
    | none => s.refuse p pkt))

/-- CKPT_SEAL. -/
def execCkptSeal (p : PortId) (pkt : Packet) (s : State) : Result :=
  .next (s.serveCkpt p 0x12 pkt (fun s =>
    match s.sealHalf (ckPacketSlot pkt) pkt.crc with
    | some s1 => s1.answer pkt psOk [] none
    | none => s.answer pkt psViolation [] none))

/-- CKPT_READ. -/
def execCkptRead (p : PortId) (pkt : Packet) (s : State) : Result :=
  .next (s.serveCkpt p 0x14 pkt (fun s =>
    if pkt.addr.toNat + pkt.len.toNat ≤ s.halfBytes then
      s.answer pkt psOk (s.readHalf (ckPacketSlot pkt) pkt.addr.toNat pkt.len.toNat) none
    else s.refuse p pkt))

/-- FILLING_TIMEOUT. -/
def execFillingTimeout (slot : Fin 16) (s : State) : Result := .next (if s.ready then s.emptyFilling slot.val else s)

/-! ### The contents of a checkpoint (R399) -/

/-- Fields of a CHECKPOINT. -/
def Desc.ckPeer (d : Desc) : BitVec 12 := fieldAt d.bits 16 0 12
def Desc.ckSlot (d : Desc) : Nat := d.num 18 0 4
def Desc.ckRestore (d : Desc) : Bool := flagAt d.bits 19 0
def Desc.ckJci (d : Desc) : Nat := d.num 20 0 6

/-- JOB_START payload bytes 16-63 of a job. -/
def Job.startPayload (x : Job) (j : JobId) : List Byte :=
  toBytes 1 j.val ++ toBytes 1 x.minCl.toNat ++ toBytes 1 x.maxCl.toNat
    ++ toBytes 1 (x.attempts.toNat + 16 * bit x.fromCheckpoint) ++ toBytes 2 x.aspace.val ++ toBytes 2 0
    ++ toBytes 8 x.seed.toNat ++ toBytes 8 x.saveVa.toNat ++ List.replicate 24 0

/-- Offsets of the range records and of the range data. -/
def ckRecords : Nat := 0x1000
def ckData : Nat := 0x21000

/-- The captured stream records: `left` of them lead `pages`, each the stream and its RESUME_INDEX. -/
def Desc.ckStreams (d : Desc) : List Word := d.pages.take d.left
/-- The captured range images, four words each. -/
def Desc.ckRanges (d : Desc) : List Word := d.pages.drop d.left

/-- First address and length of captured ranges, in record order. -/
def spansOf : List Word → List (Nat × Nat)
  | v :: n :: _ :: _ :: rest => (v.toNat, n.toNat) :: spansOf rest
  | _ => []

/-- Where an offset of the range data lies: the range's first address and length, and the offset within it. -/
def spanAt : List (Nat × Nat) → Nat → Option (Nat × Nat × Nat)
  | [], _ => none
  | (v, n) :: rest, o => if o < n then some (v, n, o) else spanAt rest (o - n)

/-- Bytes from 0x40 that a checkpoint holds. -/
def Desc.ckTotal (d : Desc) : Nat := (ckData - 0x40) + ((spansOf d.ckRanges).map (·.2)).sum

/-- Lengthen a list with zeros. -/
def padTo (n : Nat) (l : List Byte) : List Byte := l ++ List.replicate (n - l.length) 0

/-- The bytes from 0x40 up to the range data. -/
def Desc.ckMeta (d : Desc) (x : Job) (j : JobId) : List Byte :=
  padTo 0x40 (x.startPayload j)
    ++ padTo (ckRecords - 0x80) (d.ckStreams.flatMap (fun w =>
        toBytes 4 (w.toNat % 2 ^ 32) ++ toBytes 4 (w.toNat / 2 ^ 32) ++ List.replicate 8 0))
    ++ padTo (ckData - ckRecords) (d.ckRanges.flatMap (fun w => toBytes 8 w.toNat))

/-- Header bytes 8-63 as the owner writes them; CRC and TICK follow at the seal. -/
def Desc.ckHeader (d : Desc) (x : Job) (j : JobId) (period : W32) : List Byte :=
  toBytes 1 j.val ++ toBytes 1 x.attempt.toNat ++ toBytes 2 d.left ++ toBytes 4 (d.ckRanges.length / 4) ++ toBytes 8 d.ckTotal
    ++ toBytes 4 0 ++ toBytes 4 period.toNat ++ List.replicate 32 0

/-- Words of a range image with GEN and STATE zero. -/
def RangeEntry.recordWords (e : RangeEntry) : List Word :=
  splitElems 8 4 (toBytes 32 ({ e with gen := 0, state := 0 } : RangeEntry).bits.toNat) |>.map (BitVec.ofNat 64)

/-! ### SAVE (R401) -/

/-- Requests a CHECKPOINT has open. -/
def State.ckOpen (s : State) (c : ClusterId) (w : Work) : Bool :=
  s.fabric.requests.any (fun r => decide (r.cluster = c) && (decide (r.work = w) && (decide (r.purpose = .ckpt) && r.answer.isNone)))

/-- Is a CHECKPOINT kept on this device itself? -/
def State.ckLocal (s : State) (d : Desc) : Bool := decide (d.ckPeer = s.fabId)

/-- The job's other streams, each with its read index: what a SAVE captures when it begins. -/
def State.ckCapture (s : State) (st : StreamId) (idx : W32) : List Word :=
  (s.jobStreams (s.stream st).job).map (fun t =>
    BitVec.ofNat 64 (t.val + 2 ^ 32 * (if t = st then idx + 1 else (s.stream t).readIdx).toNat))

/-- Has every descriptor of the job that was fetched before the SAVE its terminal record? Of two SAVEs that wait, the one on the
lower stream goes first: DESIGN CHOICE (log entry 42). -/
def State.ckQuiet (s : State) (st : StreamId) (d : Desc) : Bool :=
  (s.stream st).earlierClosed d && d.ckStreams.all (fun w =>
    let t := StreamId.ofNat' (w.toNat % 2 ^ 32)
    let i : W32 := BitVec.ofNat 32 (w.toNat / 2 ^ 32)
    decide (t = st) || (s.stream t).descs.all (fun e => !before32 e.idx i
      || (e.isRunning && (decide (e.opcode = opCheckpoint) && (!flagAt e.bits 19 0 && (decide (e.stage = 0) && decide (st < t)))))))

/-- Send a request of a CHECKPOINT; with no live path its job fails. -/
def State.ckSend (s : State) (c : ClusterId) (st : StreamId) (d : Desc) (kind off len : Nat) (crc : Option W32) (data : List Byte) :
    State :=
  if (s.requestPort .mover c d.ckPeer).isNone then
    (s.postCause st (some d.idx) stFenced ukFabric).failJob (s.stream st).job
  else s.sendRequest c .mover kind d.ckPeer off len d.ckSlot false crc data .ckpt (BitVec.ofNat 64 off) (some (st, d.idx))

/-- A half has been opened: the ranges are captured; data that exceed the half end the descriptor. -/
def State.ckOpened (s : State) (st : StreamId) (d : Desc) (half size : Nat) : State :=
  let es := ((s.space (((s.job (s.stream st).job).map (·.aspace)).getD 0)).entries.filter (·.checkpoint))
  let d' : Desc := { d with
    stage := 2
    progress := 8
    aux0 := BitVec.ofNat 64 half
    aux1 := BitVec.ofNat 64 size
    aux2 := 0xFFFFFFFF
    pages := d.ckStreams ++ es.flatMap (·.recordWords) }
  if size < 0x40 + d'.ckTotal then s.badDescriptor st d.idx 18 else s.modDesc st d.idx (fun _ => d')

/-- A SAVE is sealed: it completes, and is the job's last checkpoint. -/
def State.ckSaved (s : State) (st : StreamId) (d : Desc) : State :=
  let resume := d.ckStreams.map (fun w => (StreamId.ofNat' (w.toNat % 2 ^ 32), (BitVec.ofNat 32 (w.toNat / 2 ^ 32) : W32)))
  (s.modJob (s.stream st).job (fun x => { x with ckpt := some ⟨d.ckPeer, BitVec.ofNat 4 d.ckSlot, resume⟩ })).finish st d.idx
    stDone 0

/-- SEAL_FAIL of a CHECKPOINT; the spec names no block for its DETAIL (free value, log entry 45). -/
def State.ckFails (s : State) (st : StreamId) (idx : Option W32) : State :=
  let (k, s1) := s.fresh
  (s1.postCause st idx stSealFail (Config.freeWord k).toNat).failJob (s1.stream st).job

/-- Write bytes of a checkpoint: at once on this device, else in packets that do not cross a 4 KiB boundary. `fuel` bounds their
number. -/
def State.ckWrite : Nat → State → ClusterId → StreamId → Desc → Nat → List Byte → State
  | 0, s, _, _, _, _, _ => s
  | fuel + 1, s, c, st, d, off, bytes =>
    match bytes with
    | [] => s
    | _ :: _ =>
      let k := min packetBytes (toBlockEnd off)
      State.ckWrite fuel (s.ckSend c st d 0x11 off (min k bytes.length) none (bytes.take k)) c st d (off + k) (bytes.drop k)

/-- The next piece of a SAVE, up to a 4 KiB boundary: the header, the metadata, or the data of a range, read by the mover. -/
def State.ckPiece (s : State) (c : ClusterId) (st : StreamId) (d : Desc) (x : Job) : Except SpanStop (List Byte) × State :=
  let j := (s.stream st).job
  let off := d.progress
  if off < 0x40 then (.ok (d.ckHeader x j (if (s.stream st).periodic then (s.stream st).current else 0)), s)
  else if off < ckData then (.ok (((d.ckMeta x j).drop (off - 0x40)).take (toBlockEnd off)), s)
  else
    match spanAt (spansOf d.ckRanges) (off - ckData) with
    | some (v, _, o) => s.loadSpan c (some (st, d.idx)) (v + o) blockSize
    | none => (.ok [], s)

/-- Open, copy, seal: the next step of a SAVE that holds the other streams. -/
def State.ckSaveStep (s : State) (c : ClusterId) (st : StreamId) (d : Desc) (x : Job) : State :=
  let end_ := 0x40 + d.ckTotal
  if d.stage = 0 then
    if s.ckQuiet st d = false then s
    else
      let s1 := s.modDesc st d.idx (fun e => { e with stage := 1 })
      if s.ckLocal d then
        if s.ownsSlot s.fabId d.ckSlot then
          let (h, s2) := s1.openHalf s.fabId d.ckSlot
          s2.ckOpened st { d with stage := 1 } (bit h) s.halfBytes
        else s1.freezeMover c st (some d.idx) fcRights
      else s1.ckSend c st d 0x10 0 0 none []
  else if d.stage = 2 then
    if d.progress < end_ then
      match s.ckPiece c st d x with
      | (.error e, s1) => s1.moverStops c st d.idx 1 e
      | (.ok b, s1) =>
        let crc := if d.progress < 0x40 then d.aux2
          else (b.foldl (crcByte 0x82F63B78) (bitsAt d.aux2 0 32)).setWidth 64
        let s2 := (s1.dropAnswers c (some (st, d.idx))).modDesc st d.idx (fun e => { e with
          progress := if d.progress < 0x40 then 0x40 else d.progress + b.length
          aux2 := crc })
        if s.ckLocal d then
          match s2.fillHalf d.ckSlot d.progress b with
          | some s3 => s3
          | none => s2.freezeMover c st (some d.idx) fcRights
        else s2.ckWrite 64 c st d d.progress b
    else
      let crc : W32 := ~~~ (bitsAt d.aux2 0 32)
      let s1 := s.modDesc st d.idx (fun e => { e with stage := 3 })
      if s.ckLocal d then
        match s1.sealHalf d.ckSlot crc with
        | some s2 => s2.ckSaved st d
        | none => s1.ckFails st (some d.idx)
      else s1.ckSend c st d 0x12 0 0 (some crc) []
  else s

/-- Begin a CHECKPOINT of a mode once the mover of its job cluster index is ready. -/
def State.beginCkpt (s : State) (st : StreamId) (idx : W32) (restore : Bool) (f : Desc → State → State) : State :=
  if ((s.desc st idx).map (·.ckRestore)) = some restore then
    s.beginWhen st idx opCheckpoint
      (fun d => match s.jciCluster (s.stream st).job (BitVec.ofNat 6 d.ckJci) with
        | some c => s.moverReady c
        | none => false)
      (fun d s => if 248 < (s.jobStreams (s.stream st).job).length then s.badDescriptor st idx 0
        else match s.jciCluster (s.stream st).job (BitVec.ofNat 6 d.ckJci) with
          | some c => f d (s.serveStream c st)
          | none => f d s)
  else s

/-- Go on with a CHECKPOINT of a mode that nothing holds. -/
def State.goOnCkpt (s : State) (st : StreamId) (idx : W32) (restore : Bool) (f : ClusterId → Desc → Job → State → State) : State :=
  s.continuing st idx opCheckpoint (fun d s =>
    match s.jciCluster (s.stream st).job (BitVec.ofNat 6 d.ckJci), s.job (s.stream st).job with
    | some c, some x =>
      if d.ckRestore = restore ∧ d.heldBy.isNone ∧ s.moverReady c ∧ s.ckOpen c (some (st, idx)) = false
          ∧ s.awaitsRead c (some (st, idx)) = false then f c d x s else s
    | _, _ => s)

/-- CHECKPOINT_SAVE: it begins, and then goes on step by step. -/
def execCheckpointSave (st : StreamId) (idx : W32) (s : State) : Result :=
  .next (match s.desc st idx with
    | some d =>
      if d.isRunning then s.goOnCkpt st idx false (fun c d x s => s.ckSaveStep c st d x)
      else s.beginCkpt st idx false (fun _ s =>
        let l := s.ckCapture st idx
        s.modDesc st idx (fun e => { e with pages := l, left := l.length }))
    | none => s)

/-- CKPT_ACK: the half is open, or the generation is sealed; a mismatch at the seal is SEAL_FAIL. -/
def execCkptAck (p : PortId) (pkt : Packet) (s : State) : Result :=
  .next (match s.requestOf pkt with
    | some r =>
      match r.work.bind (fun w => (s.desc w.1 w.2).map (fun d => (w.1, d))) with
      | some (st, d) =>
        if s.receives p ∧ pkt.kind = 0x13 ∧ d.stage = 3 ∧ pkt.op.toNat = psViolation then (s.closeRequest r).ckFails st (some d.idx)
        else s.answered p 0x13 pkt (fun r s =>
          (s.closeRequest r).continuing st d.idx opCheckpoint (fun d s =>
            if d.stage = 1 then s.ckOpened st d (ofBytes (pkt.data.take 8)) (ofBytes ((pkt.data.drop 8).take 8))
            else if d.stage = 3 then s.ckSaved st d else s))
      | none => s.answered p 0x13 pkt (fun r s => s.closeRequest r)
    | none => s)

/-! ### RESTORE (R403) -/

/-- What a step of a RESTORE comes to. -/
inductive Restored where
  | more (d : Desc)
  | done
  | wait
  | bad
  | stop (x : SpanStop)
  deriving DecidableEq, Repr

/-- The answers to reads of a checkpoint. -/
def State.ckAnswers (s : State) (c : ClusterId) (w : Work) : List PeerReq :=
  s.fabric.requests.filter (fun r => decide (r.cluster = c) && (decide (r.work = w) && (decide (r.purpose = .ckpt) && r.answer.isSome)))

/-- Ask for bytes of a checkpoint in packets. -/
def State.ckAsk : Nat → State → ClusterId → Work → BitVec 12 → Nat → Nat → Nat → State
  | 0, s, _, _, _, _, _, _ => s
  | fuel + 1, s, c, w, peer, slot, off, n =>
    if n = 0 then s
    else
      let k := min n packetBytes
      State.ckAsk fuel (s.sendRequest c .mover 0x14 peer off k slot false none [] .ckpt (BitVec.ofNat 64 off) w) c w peer slot
        (off + k) (n - k)

/-- Bytes of a checkpoint: at once from this device, else once they are answered. -/
def State.ckRead (s : State) (c : ClusterId) (w : Work) (peer : BitVec 12) (slot off n : Nat) : Option (List Byte) × State :=
  if peer = s.fabId then
    (if s.ownsSlot s.fabId slot && decide (off + n ≤ s.halfBytes) then some (s.readHalf slot off n) else some [], s)
  else
    match answerBytes (s.ckAnswers c w) off n with
    | some b => (some b, s.forget (fun r => (s.ckAnswers c w).contains r))
    | none => (none, s.ckAsk 64 c w peer slot off n)

/-- One piece of a RESTORE: the header, the records, or data for the range of the same VBASE and LENGTH, and at the end the CRC.
`d` holds the header in `hdr`, the range records in `pages` and the running CRC in `aux2`. -/
def State.restoreStep (s : State) (c : ClusterId) (w : Work) (a : Fin 1024) (peer : BitVec 12) (slot : Nat) (d : Desc) :
    Restored × State :=
  if d.stage = 0 then
    match s.ckRead c w peer slot 0 0x40 with
    | (none, s1) => (.wait, s1)
    | (some b, s1) =>
      let h : Line := BitVec.ofNat 512 (ofBytes b)
      if b.length = 0x40 ∧ fieldAt h 0 0 8 = 1 ∧ fieldAt h 1 0 8 = 2 then
        (.more { d with stage := 1, progress := 0x40, hdr := h, aux2 := 0xFFFFFFFF, pages := [], left := 0 }, s1)
      else (.bad, s1)
  else
    let off := d.progress
    let total := (fieldAt d.hdr 16 0 64).toNat
    if off < 0x40 + total then
      let n := min (0x40 + total - off) (toBlockEnd off)
      match s.ckRead c w peer slot off n with
      | (none, s1) => (.wait, s1)
      | (some b, s1) =>
        let crc := (b.foldl (crcByte 0x82F63B78) (bitsAt d.aux2 0 32)).setWidth 64
        let d' : Desc := { d with
          progress := off + n
          aux2 := crc
          pages := if ckRecords ≤ off ∧ off < ckData then
              (d.pages ++ (splitElems 8 (n / 8) b).map (BitVec.ofNat 64)).take (4 * (fieldAt d.hdr 12 0 32).toNat)
            else d.pages }
        if b.length ≠ n then (.bad, s1)
        else if off < ckData then (.more d', s1)
        else
          match spanAt (spansOf d.pages) (off - ckData) with
          | none => (.bad, s1)
          | some (v, len, o) =>
            if (s1.space a).entries.any (fun e => decide (e.lo = v) && decide (e.len = len)) then
              match s1.saveSpan c w (v + o) b with
              | (none, s2) => (.more d', s2)
              | (some x, s2) => (.stop x, s2)
            else (.bad, s1)
    else if (~~~ (bitsAt d.aux2 0 32) : W32) = fieldAt d.hdr 24 0 32 then (.done, s)
    else (.bad, s)

/-- CHECKPOINT_RESTORE: it begins, and then goes on piece by piece. -/
def execCheckpointRestore (st : StreamId) (idx : W32) (s : State) : Result :=
  .next (match s.desc st idx with
    | some d =>
      if d.isRunning then s.goOnCkpt st idx true (fun c d x s =>
        match s.restoreStep c (some (st, idx)) x.aspace d.ckPeer d.ckSlot d with
        | (.more d', s1) => s1.modDesc st idx (fun _ => d')
        | (.done, s1) => s1.finish st idx stDone 0
        | (.wait, s1) =>
          if s1.ckOpen c (some (st, idx)) then s1
          else s1.requestFails ⟨0, 0, .mover, c, (s1.stream st).job, .ckpt, 0, false, 0, 0, some (st, idx), none, 0, 0⟩
        | (.bad, s1) => s1.ckFails st (some idx)
        | (.stop e, s1) => s1.moverStops c st idx 2 e)
      else s.beginCkpt st idx true (fun _ s => s)
    | none => s)

/-- CKPT_READ_RSP: the data wait for the next step. -/
def execCkptReadRsp (p : PortId) (pkt : Packet) (s : State) : Result :=
  .next (s.answered p 0x15 pkt (fun r s => { s with fabric := { s.fabric with requests := s.fabric.requests.map (fun x =>
    if x = r then { x with answer := some pkt.data } else x) } }))

/-! ### ADMISSION (R40, R50, R51, R61) -/

/-- The set-up of a restarted attempt is complete once the ranges of its last checkpoint are restored (R38). -/
def Job.restored (x : Job) : Bool :=
  !x.fromCheckpoint || (x.ckpt.isNone || (match x.restore with
    | some d => decide (d.stage = 9)
    | none => false))

/-- A step of the restore of a restarting job, on the mover of its lowest job cluster index. -/
def State.restoreJob (s : State) (j : JobId) (x : Job) : State :=
  match x.ckpt, (List.range 48).findSome? (fun i => s.jciCluster j (BitVec.ofNat 6 i)) with
  | some k, some c =>
    if s.ckOpen c none ∨ s.awaitsRead c none then s
    else
      let d := x.restore.getD (Desc.fresh 0 0)
      match s.restoreStep c none x.aspace k.peer k.slot.toNat d with
      | (.more d', s1) => s1.modJob j (fun y => { y with restore := some d' })
      | (.done, s1) => s1.modJob j (fun y => { y with restore := some { d with stage := 9 } })
      | (.wait, s1) => s1
      | (.bad, s1) => s1.ckFails x.startStream none
      | (.stop e, s1) => if e.isRemote then s1.askMover c none x.startStream none e else s1.moverFails c x.startStream none e.how
  | _, _ => s

/-- ADMISSION. A new job is admitted or waits; a waiting one is admitted in its turn; a restarting one runs once it holds MIN_CL clusters
and its attempt is set up, or waits when fewer are available. -/
def execAdmission (j : JobId) (s : State) : Result :=
  .next (if s.ready then
    match s.job j with
    | none => s
    | some x =>
      match x.phase with
      | .created =>
        if s.fits j then (s.stripFor 256 j x.minCl.toNat).startRunning j
        else (s.setJob j (some { x with phase := .waitCapacity })).postJobState j .waitCapacity x.attempt
      | .waitCapacity =>
        if s.fits j ∧ s.waitsAhead j = false then
          let s1 := s.stripFor 256 j x.minCl.toNat
          if x.attemptPending then s1.modJob j (fun y => { y with phase := .restarting }) else s1.startRunning j
        else s
      | .restarting =>
        if s.fits j then
          if x.minCl.toNat ≤ (s.jobClusters j).length then
            if x.restored then s.startRunning j else s.restoreJob j x
          else s.stripFor 256 j x.minCl.toNat
        else (s.setJob j (some { x with phase := .waitCapacity })).postJobState j .waitCapacity x.attempt
      | _ => s
  else s)

end Sys2Proof.Machine
end

