-- ==== Sys2Proof/Machine/Link.lean ====
section
/-! DEFINITION. The Evoir link (R360-R375, R397): training, bit loading and table swaps, received codewords and flits, replay, and DRAIN.
What a port transmits is in Symbols; of what it receives, the commands report the errors of the equalised points, the pilots and the
words the decoder gives (log entry 137). -/
namespace Sys2Proof.Machine

/-! ### Registers of a port (R376) -/

def State.evlCtl (s : State) (p : PortId) : W32 := s.reg (evlBase p)
def State.evlEnabled (s : State) (p : PortId) : Bool := (s.evlCtl p).getLsbD 0
def State.evlMargin (s : State) (p : PortId) : Int := Int.ofNat (25 * (bitsAt (s.evlCtl p) 16 6).toNat)
def State.evlThresh (s : State) (p : PortId) : Nat := (bitsAt (s.evlCtl p) 24 8).toNat
def State.loadInterval (s : State) (p : PortId) : Nat := (bitsAt (s.reg (evlBase p + 4)) 0 5).toNat

/-- One more on a saturating counter. -/
def satInc (x : W32) : W32 := if x = BitVec.allOnes 32 then x else x + 1

/-! ### Bit loading (R363, R375) -/

/-- T[b] in 0.01 dB; T[0] is below every value. -/
def loadThreshold (b : Nat) : Int := nthD [600, 900, 1300, 1600, 1950, 2250, 2550, 2850, 3150, 3450] (b - 1) 0

/-- The largest b in 0..10 whose threshold a ratio reaches. -/
def largestLoad (snr : Int) : Nat := ((List.range 10).filter (fun k => decide (loadThreshold (k + 1) ≤ snr))).foldl (fun m k => max m (k + 1)) 0

/-- The new loading of a sub-carrier. -/
def newLoad (m snr : Int) (old : Nat) : Nat :=
  let keep := largestLoad (snr - m)
  let up := largestLoad (snr - m - 100)
  if keep < old then keep else if old < up then up else old

/-- A new table from the active one; an empty table counts as all zeros. -/
def newTable (m : Int) (snr : List Int) (old : List (BitVec 4)) : List (BitVec 4) :=
  snr.zipIdx.map (fun p => BitVec.ofNat 4 (newLoad m p.1 (nthD old p.2 0).toNat))

/-- The banks of a lane. -/
def Lane.setRx (x : Lane) (bank : Bool) (t : List (BitVec 4)) : Lane := if bank then { x with rxB := t } else { x with rxA := t }
def Lane.setTx (x : Lane) (bank : Bool) (t : List (BitVec 4)) : Lane := if bank then { x with txB := t } else { x with txA := t }

/-- Can a stored table be reused (R374)? -/
def reusable (m : Int) (snr : List Int) (t : List (BitVec 4)) : Bool :=
  decide (t ≠ []) && snr.zipIdx.all (fun p => let b := (nthD t p.2 0).toNat; decide (b = 0) || decide (loadThreshold b + m ≤ p.1))

/-! ### Training (R373-R375) -/

/-- Only the active tables of a lane are kept, in bank A: training discards both standby banks (R365, R374). -/
def Lane.oneBank (x : Lane) : Lane :=
  { x with rxA := x.rx, rxB := [], rxBank := false, rxSwap := none, txA := x.tx, txB := [], txBank := false, txSwap := none }

/-- A port starts training; one without a cable, not enabled, or without auxiliary power for its domain (R22), does not. -/
def State.train (s : State) (p : PortId) (roost : Bool) : State :=
  let x := s.port p
  if x.cable && s.evlEnabled p && s.card.auxPower then
    let y := (List.range 4).foldl (fun (y : Port) l => y.setLane l (y.lane l).oneBank) x.endBurst
    (s.setPort p { y with train := .lock, roostExit := roost, superframe := 0, txFrame := 0, sleep := .none, wake := false
                          draining := false, powered := true }).setLink p 1
  else s

/-- A retrain, which the counter counts. -/
def State.retrainPort (s : State) (p : PortId) : State :=
  if (s.port p).cable && s.evlEnabled p then
    (s.modPort p (fun x => { x with retrains := satInc x.retrains, noProgress := 0 })).train p false
  else s

/-- Training fails; the third failure in a row loses the port, and the count begins anew: DEDUCED (log entry 139). -/
def State.trainFails (s : State) (p : PortId) : State :=
  let n := (s.port p).fails + 1
  let s1 := s.modPort p (fun x => { x.endBurst with fails := if 3 ≤ n then 0 else n, train := .lock })
  if 3 ≤ n then s1.losePort p else s1

/-- CABLE_PRESENT. -/
def execCablePresent (p : PortId) (s : State) : Result :=
  let x := s.port p
  .next (if s.ready ∧ x.cable = false then
    let s1 := s.setPort p { x with cable := true, fails := 0 }
    if x.lstate = 0 then s1.train p false else s1
  else s)

/-- The power-down of a port (R438): tables are lost and the epoch increments. -/
def State.portOff (s : State) (p : PortId) : State :=
  (s.modPort p (fun x => { Port.reset with
    lstate := x.lstate
    cable := x.cable
    nextSeq := x.nextSeq
    expected := x.expected })).bumpEpoch ukPort p.val false

/-- CABLE_REMOVAL (R436): the port becomes ABSENT; its domain powers down once its replay buffer is empty: DESIGN CHOICE (log entry 54). -/
def execCableRemoval (p : PortId) (s : State) : Result :=
  let x := s.port p
  .next (if s.ready ∧ x.cable = true then
    let s1 := (s.setPort p { x with cable := false, train := .none, sleep := .none, wake := false }).setLink p 0
    if x.replay.isEmpty ∧ x.waiting.isEmpty then s1.portOff p else s1
  else s)

/-- LOCK: with the lanes locked the burst opens, and the port looks for the peer's preamble. -/
def execLock (p : PortId) (s : State) : Result :=
  .next (if s.ready ∧ (s.port p).train = .lock then (s.modPort p (fun x => { x with train := .detect })).openBurst p else s)

/-- The correlator has fired: the AGC is frozen, the equaliser holds what PA and PB gave, and the next symbol is symbol 0 of the received
burst. -/
def Port.fires (x : Port) : Port := { x with agcFrozen := true, equalised := true, superframe := 0 }

/-- PREAMBLE_DETECT: the correlator fires at CORR_THRESH; a sleeping port wakes (R394). -/
def execPreambleDetect (p : PortId) (corr : Nat) (s : State) : Result :=
  let x := s.port p
  .next (if s.ready ∧ x.agcFrozen = false ∧ s.evlThresh p ≤ corr then
    if x.train = .detect then s.setPort p { x.fires with train := .probe }
    else if x.lstate = 3 then (s.wakePort p).modPort p Port.fires
    else if x.lstate = 4 then s.wakePort p
    else if x.lstate = 2 ∨ x.lstate = 5 then s.setPort p x.fires
    else s
  else s)

/-- CORRELATOR_NOISE_FIRE: the search is resumed. -/
def execCorrelatorNoiseFire (p : PortId) (corr : Nat) (s : State) : Result :=
  let x := s.port p
  .next (if s.ready ∧ x.agcFrozen = true ∧ corr < s.evlThresh p then
    s.setPort p { x with agcFrozen := false, equalised := false, train := if x.train = .probe then .detect else x.train }
  else s)

/-- CORRELATOR_TIMEOUT. -/
def execCorrelatorTimeout (p : PortId) (s : State) : Result :=
  .next (if s.ready ∧ (s.port p).train = .detect then s.trainFails p else s)

/-- Send the tables of EXCHANGE, outside the numbered flits: DESIGN CHOICE (log entry 53). -/
def State.sendTables (s : State) (p : PortId) : State :=
  let x := s.port p
  (List.range 8).foldl (fun s i =>
    let t := (x.lane (i / 2)).rx
    let nibble (k : Nat) : Nat := (nthD t k 0).toNat
    let bytes := (List.range 240).map (fun k => BitVec.ofNat 8 (nibble (2 * (240 * (i % 2) + k)) + 16 * nibble (2 * (240 * (i % 2) + k) + 1)))
    s.sendFlit p ⟨x.nextSeq, .loadPropose (BitVec.ofNat 2 (i / 2)) (decide (i % 2 = 1)) 0 0 bytes⟩) s

/-- A lane settles its table at the end of PROBE (R374): at Roost exit the stored one where every ratio still allows it, else a new one
computed from nothing. -/
def Lane.settle (x : Lane) (roost : Bool) (m : Int) (seen : LaneMeasure) : Lane :=
  let a := x.sees seen
  let snr := a.snr
  if roost && reusable m snr a.rx then { a.oneBank with sinceLoad := 0 }
  else { a.oneBank with rxA := newTable m snr [], pilotUsed := a.pilotErr, sinceLoad := 0 }

/-- PROBE: its 3,840 IDLE symbols are 15 superframes; `lanes` is what the receivers saw of the last of them. -/
def execProbe (p : PortId) (lanes : List LaneMeasure) (s : State) : Result :=
  .next (if s.ready ∧ (s.port p).train = .probe then
    let s1 := s.sendFrames 15 p
    let x := s1.port p
    let y := (List.range 4).foldl (fun (y : Port) l =>
      y.setLane l ((y.lane l).settle x.roostExit (s.evlMargin p) (nthD lanes l []))) x
    (s1.setPort p { y with train := .exchange }).sendTables p
  else s)

/-- EXCHANGE: the peer's receive tables become this end's transmit tables; VERIFY sends RESYNC and NULL flits. -/
def execExchange (p : PortId) (peer : Exchanged) (s : State) : Result :=
  .next (if s.ready ∧ (s.port p).train = .exchange then
    let s1 := s.sendFrames peer.frames p
    let x := s1.port p
    let y := (List.range 4).foldl (fun (y : Port) l =>
      y.setLane l { y.lane l with txA := nthD peer.tables l [], txBank := false, txSwap := none }) x
    ((s1.setPort p { y with train := .verify }).sendFlit p ⟨x.nextSeq, .resync x.expected⟩).emit (.nullFlits p)
  else s)

/-! ### Acknowledgement and replay (R371, R372) -/

/-- Does an ACK cover a SEQ: does it lie at most 512 behind it? -/
def covered (ack seq : BitVec 12) : Bool := decide (1 ≤ (ack - seq).toNat) && decide ((ack - seq).toNat ≤ 512)

/-- A port in DRAIN whose every flit is acknowledged goes on: an update of its link controller runs and it retrains (R397); one that is no
longer enabled sends what waits another way and powers down (R436, R438); any other waits for RETRAIN (R475). -/
def State.drained (s : State) (p : PortId) : State :=
  let x := s.port p
  if x.draining ∧ x.replay.isEmpty then
    if x.updating then s.retrainPort p
    else if s.evlEnabled p then s
    else (s.reinject p).portOff p
  else s

/-- Take an ACK: flits it covers leave the replay buffer, and what waits goes on. -/
def State.takeAck (s : State) (p : PortId) (ack : BitVec 12) : State :=
  let x := s.port p
  let left := x.replay.filter (fun f => !covered ack f.seq)
  if left.length < x.replay.length then
    let s1 := s.setPort p { x with replay := left, noProgress := 0 }
    let s2 := if x.sleep = .confirmed ∧ (s1.port p).confirmOpen = false then s1.enterSleep p else s1
    (s2.pump p).drained p
  else s

/-- Send the flits of the replay buffer again, in order. -/
def State.resend (s : State) (p : PortId) : State :=
  let x := s.port p
  x.replay.foldl (fun s f => s.sendFlit p f) s

/-- A replay: after eight without progress the port retrains instead of a ninth: DEDUCED (log entry 139). -/
def State.replay (s : State) (p : PortId) : State :=
  let x := s.port p
  if x.replay.isEmpty then s
  else if 8 ≤ x.noProgress then s.retrainPort p
  else (s.modPort p (fun y => { y with replays := satInc y.replays, noProgress := y.noProgress + 1 })).resend p

/-- NAK: replay from the SEQ named, which covers what lies before it. -/
def execNak (p : PortId) (seq : BitVec 12) (s : State) : Result :=
  .next (if s.receives p then (s.takeAck p seq).replay p else s)
/-- RESYNC. -/
def execResync (p : PortId) (seq : BitVec 12) (s : State) : Result :=
  .next (if s.receives p then (s.takeAck p seq).replay p else s)
/-- REPLAY_TIMEOUT. -/
def execReplayTimeout (p : PortId) (s : State) : Result :=
  .next (if s.receives p ∧ ((s.port p).lstate = 2 ∨ (s.port p).lstate = 5) then s.replay p else s)

/-! ### Activation -/

/-- A port with a role in a dimension of size 1 never becomes Active (R379). -/
def State.deadDimension (s : State) (p : PortId) : Bool :=
  match s.roleDim p with
  | some d => decide (s.dimSize d = 1)
  | none => false

/-- A port enters DRAIN from a state that carries traffic. -/
def State.drainPort (s : State) (p : PortId) : State :=
  let x := s.port p
  if x.carries then
    (((s.setPort p { x with draining := true, sleep := .none, wake := false }).cutRing p true).setLink p 5).drained p
  else s

/-- The next port of a self-contained update of the link controllers drains, the lowest first, once no other one drains (R430). -/
def State.nextUpdate (s : State) : State :=
  if allPorts.any (fun p => (s.port p).updating) then s
  else
    match allPorts.find? (fun p => (s.port p).update && (s.port p).carries) with
    | some p => (s.modPort p (fun x => { x with update := false, updating := true })).drainPort p
    | none => s

/-- The port becomes Active: HELLO, RING_JOIN for a recorded cut, a TIME exchange at a parent port, and what waits. -/
def State.activate (s : State) (p : PortId) : State :=
  let s1 := (s.modPort p (fun x => { x with train := .none, roostExit := false, fails := 0, noProgress := 0, updating := false })).setLink p 2
  let s2 := s1.sendPacket p (s1.ownPacket 8 0 (toBytes 2 s1.fabId.toNat ++ [BitVec.ofNat 8 (s1.role p)]))
  let cut := match s2.roleDim p with
    | some d => (s2.cutMask d).getLsbD (s2.linkOf p d)
    | none => false
  let s3 := if cut then s2.cutRing p false else s2
  let s4 := if s3.parentPort = some p then s3.askTime p else s3
  (s4.pump p).nextUpdate

/-- VERIFY: lanes of 960 bits or more per symbol are up; with one up the port becomes Active, and replay resumes from the peer's expected
SEQ. -/
def execVerify (p : PortId) (expected : BitVec 12) (s : State) : Result :=
  let x := s.port p
  .next (if s.ready ∧ x.train = .verify then
    let s0 := s.sendFrames 1 p
    let y := (List.range 4).foldl (fun (y : Port) l => y.setLane l { y.lane l with up := decide (960 ≤ tableBits (y.lane l).rx) })
      (s0.port p)
    let s1 := s0.setPort p y
    if s1.deadDimension p then s1.setLink p 7
    else if (List.range 4).any (fun l => (y.lane l).up) then
      let s2 := (s1.takeAck p expected).resend p
      s2.activate p
    else s1.trainFails p
  else s)

/-- LANE_PLL_UNLOCK (R434). -/
def execLanePllUnlock (p : PortId) (s : State) : Result :=
  .next (if s.ready ∧ ((s.port p).carries ∨ (s.port p).train ≠ .none) then s.retrainPort p else s)

/-! ### Superframes and swaps (R364, R365) -/

/-- A LINK message goes into the flit stream. -/
def State.sendLink (s : State) (p : PortId) (b : FlitBody) : State := s.sendBody p b

/-- The bytes of half a table (R363, R365). -/
def tableHalf (t : List (BitVec 4)) (half : Nat) : List Byte :=
  (List.range 240).map (fun k =>
    BitVec.ofNat 8 ((nthD t (480 * half + 2 * k) 0).toNat + 16 * (nthD t (480 * half + 2 * k + 1) 0).toNat))

/-- The receiver demaps a superframe with the bank that its symbol 0 flags; seeing the other bank flagged completes a swap (R365). -/
def Lane.flagged (x : Lane) (m : LaneMeasure) : Lane :=
  let bank := match m.head? with
    | some y => pilotFlag (bitsAt y.pilots 8 8) x.rxBank
    | none => x.rxBank
  if bank = x.rxBank then x
  else { x with rxBank := bank, rxSwap := none, pilotUsed := if x.rxSwap.isSome then x.pilotNext else x.pilotUsed }

/-- A bank switch of the transmitter that falls due at superframe `c`. -/
def Lane.switchTx (x : Lane) (c : W32) : Lane :=
  match x.txSwap with
  | some w => if w.at_ = bitsAt c 0 16 then { x with txBank := !x.txBank, txSwap := none } else x
  | none => x

/-- Does the end of a superframe call for a new table (R364)? -/
def Lane.due (x : Lane) (interval : Nat) : Bool :=
  decide (interval ≤ x.sinceLoad) || (List.range 16).any (fun g => rose (nthD x.pilotErr g 0) (nthD x.pilotUsed g 0))
    || decide (4 ≤ x.cwFails)

/-- What the end of a superframe does on a lane: the bank flagged becomes active, the noise estimates follow what was seen, a switch of the
transmitter that falls due takes effect, and a computation may start a swap. -/
def State.laneEnd (s : State) (p : PortId) (l : Nat) (m : LaneMeasure) : State :=
  let x := s.port p
  let c := x.superframe
  let a := (((x.lane l).flagged m).sees m).switchTx x.txFrame
  let a3 : Lane := { a with sinceLoad := a.sinceLoad + 1, cwFails := 0, up := decide (960 ≤ tableBits a.rx) }
  if { a3 with cwFails := a.cwFails }.due (s.loadInterval p) then
    let t := newTable (s.evlMargin p) a3.snr a3.rx
    let a4 : Lane := { a3 with sinceLoad := 0 }
    if t ≠ a3.rx ∧ a3.rxSwap = none then
      let sf : BitVec 16 := bitsAt (c + 3) 0 16
      let a5 : Lane := { a4.setRx (!a4.rxBank) t with
        rxSwap := some ⟨a4.nextId, sf⟩, nextId := a4.nextId + 1, pilotNext := a4.pilotErr }
      let s1 := s.modPort p (fun x => x.setLane l a5)
      (s1.sendLink p (.loadPropose (BitVec.ofNat 2 l) false a4.nextId sf (tableHalf t 0))).sendLink p
        (.loadPropose (BitVec.ofNat 2 l) true a4.nextId sf (tableHalf t 1))
    else s.modPort p (fun x => x.setLane l a4)
  else s.modPort p (fun x => x.setLane l a3)

/-- SUPERFRAME_END: the symbols of the superframe go out, and each lane ends it; with no lane left that carries a bit, the port retrains. -/
def execSuperframeEnd (p : PortId) (lanes : List LaneMeasure) (s : State) : Result :=
  .next (if s.receives p ∧ ((s.port p).lstate = 2 ∨ (s.port p).lstate = 5) then
    let s1 := ((List.range 4).zip lanes).foldl (fun s q => s.laneEnd p q.1 q.2) (s.sendFrames 1 p)
    if (List.range 4).all (fun l => decide (tableBits ((s1.port p).lane l).rx = 0)) then s1.retrainPort p else s1
  else s)

/-- LOAD_PROPOSE: a lane with a swap pending discards it. -/
def execLoadPropose (p : PortId) (lane : Fin 4) (id : Byte) (sf : BitVec 16) (table : List (BitVec 4)) (s : State) : Result :=
  let x := s.port p
  let a := x.lane lane.val
  .next (if s.receives p ∧ a.txSwap = none then
    let now : BitVec 16 := bitsAt x.txFrame 0 16
    let at_ : BitVec 16 := if (now - (sf - 1)).msb then sf else now + 2
    (s.setPort p (x.setLane lane.val { a.setTx (!a.txBank) table with txSwap := some ⟨id, at_⟩ })).sendLink p
      (.loadAccept (BitVec.ofNat 8 lane.val) id at_)
  else s)

/-- LOAD_ACCEPT: the receiver's swap is accepted; the switch itself follows the flagged bank. -/
def execLoadAccept (p : PortId) (lane : Fin 4) (id : Byte) (sf : BitVec 16) (s : State) : Result :=
  let x := s.port p
  let a := x.lane lane.val
  .next (if s.receives p then
    match a.rxSwap with
    | some w => if w.id = id then s.setPort p (x.setLane lane.val { a with rxSwap := some ⟨id, sf⟩ }) else s
    | none => s
  else s)

/-! ### Receiving flits (R372) -/

/-- Accept held flits that are next. `fuel` bounds their number. -/
def State.acceptHeld : Nat → State → PortId → State
  | 0, s, _ => s
  | n + 1, s, p =>
    let x := s.port p
    match x.early.find? (fun f => decide (f.seq = x.expected)) with
    | some f => State.acceptHeld n ((s.setPort p { x with
        expected := x.expected + 1
        early := x.early.filter (fun g => decide (g.seq ≠ f.seq)) }).emit (.deliver p f)) p
    | none => s

/-- Send one NAK, and discard what was held. -/
def State.sendNak (s : State) (p : PortId) : State :=
  let x := s.port p
  let s1 := s.setPort p { x with early := [], nakSent := true }
  if x.nakSent then s1 else s1.sendLink p (.nak x.expected)

/-- A bad flit: it is logged as a corrected error of the port. -/
def State.badFlit (s : State) (p : PortId) : State :=
  (s.logCorrected (s.logEntry Config.linkErrorType.toNat 3 p.val 0)).sendNak p

/-- A good DATA or LINK flit: accepted in order, held when early, discarded when it was accepted before or after a NAK; `kept` says that
the NAK is for another flit of its own codeword, whose other flits are kept. -/
def State.takeFlit (s : State) (p : PortId) (kept : Bool) (f : Flit) : State :=
  let x := s.port p
  let ahead := (f.seq - x.expected).toNat
  if ahead = 0 then
    ((s.setPort p { x with expected := x.expected + 1, nakSent := false }).emit (.deliver p f)).acceptHeld 32 p
  else if ahead < 2048 ∧ (x.nakSent = false ∨ kept = true) ∧ x.early.length < 32 then
    s.setPort p { x with early := x.early ++ [f] }
  else s

/-- One flit of a codeword. -/
def State.takeBytes (s : State) (p : PortId) (kept : Bool) (l : List Byte) : State :=
  match flitBody l with
  | none => (s.modPort p (fun x => if crc32 (l.take 252) ≠ BitVec.ofNat 32 (bytesNum l 252 4) then
      { x with crcFail := satInc x.crcFail } else x)).badFlit p
  | some .null => s.takeAck p (flitAck l)
  | some b => (s.takeAck p (flitAck l)).takeFlit p kept ⟨flitSeq l, b⟩

/-- A codeword of a lane fails. -/
def Port.codewordLost (x : Port) (l : Nat) : Port :=
  let a := x.lane l
  { x.setLane l { a with cwFails := a.cwFails + 1 } with cwFail := satInc x.cwFail }

/-- CODEWORD_DECODE: `word` is what the decoder of a lane gives after at most 12 iterations. -/
def execCodewordDecode (p : PortId) (at_ : WordPlace) (word : BitVec 9216) (s : State) : Result :=
  .next (if s.receives p then
    if codewordFails word then (List.range 4).foldl (fun s _ => s.badFlit p) (s.modPort p (fun x => x.codewordLost at_.lane.val))
    else
      let kept := !(s.port p).nakSent
      let bytes := scramble ((List.range 1024).map (fun k => bitsAt word (8 * k) 8)) (scramblerAt at_.pos)
      (List.range 4).foldl (fun s k => s.takeBytes p kept ((bytes.drop (256 * k)).take 256)) s
  else s)

/-- HOLD_EXPIRY: the gap is still open. -/
def execHoldExpiry (p : PortId) (s : State) : Result :=
  .next (if s.receives p ∧ (s.port p).early ≠ [] then s.sendNak p else s)

/-! ### Taking a port out of service (R397, R436) -/

/-- EVL_CTL.ENABLE is cleared: a port that carries traffic drains before its domain powers down, any other powers down at once
(R436, R438). DESIGN CHOICE (log entry 56): one in training goes to DRAIN. -/
def State.disablePort (s : State) (p : PortId) : State :=
  let x := s.port p
  if x.carries then s.drainPort p
  else if x.lstate = 5 then s.drained p
  else if x.lstate = 1 then ((s.setLink p 5).reinject p).portOff p
  else if x.powered then (s.reinject p).portOff p else s

end Sys2Proof.Machine
end

