-- ==== Sys2Proof/Machine/Rings.lean ====
section
/-! DEFINITION. What the device reads of the structures in host memory and what it does with it (R63-R75, R86, R90, R93, R94, R417):
doorbell lines, descriptor slots, head words, and the records and messages that were held back. -/
namespace Sys2Proof.Machine

/-- The KIND codes of HIF_ERR_LAST (R418). -/
def errKindOf : HostErr → Nat
  | .ur => 1 | .ca => 2 | .ep => 3 | .timeout => 4 | .ecrc => 5

/-- The base addresses of the tables (R62). -/
def State.streamTableBase (s : State) : Nat := s.regPair stbBase
def State.headBase (s : State) : Nat := s.regPair (stbBase + 0x10)

/-! ### Halting on an error of the host (R44, R63) -/

/-- Halt a stream with HOST_ERROR, unless it is out of service or halted already. -/
def State.haltHost (s : State) (st : StreamId) : State :=
  let x := s.stream st
  if x.enabled = false ∨ x.halted then s else (s.haltStream st 3 x.readIdx).settle st

/-- Disable a ring: its unsignalled state is discarded (R90). -/
def State.disableRing (s : State) (r : RingId) : State :=
  (s.setReg (ringCfgOff r) (s.ringCfg r &&& 0x7FFFFFFF)).setRing r { s.ring r with unsignalled := 0 }

/-- A failed read of a head word sets the ring's bit in HIF_RING_ERR and disables the ring. -/
def State.ringFailed (s : State) (r : RingId) : State :=
  if s.ringEnabled r then
    let s1 := { s with host := { s.host with ringErr := s.host.ringErr ||| (1#288 <<< r.val) } }
    s1.disableRing r
  else s

/-- What an error completion of a read of host memory does, by what the read was for (R63, R417). -/
def State.readFailed (s : State) (r : HostReadFor) (kind : Nat) : State :=
  match r with
  | .ringSlots st =>
    let x := s.stream st
    (s.hostError x.function.val (x.ringBase.toNat + 64 * (x.readIdx.toNat % 2 ^ x.log2Size.toNat)) kind).haltHost st
  | .doorbellLine line =>
    (lineStreams line).foldl (fun s st => s.haltHost st) (s.hostError 0 (s.doorbellBase + 64 * line.val) kind)
  | .streamTable st =>
    (s.hostError 0 (s.streamTableBase + 64 * st.val) kind).setupErr 4 0 (stbBase + 0x18)
      (BitVec.ofNat 64 (st.val + 2 ^ 16))
  | .headWord r => (s.hostError 0 (s.headBase + 4 * r.val) kind).ringFailed r
  | .jobAccess c m =>
    let f := (s.space (s.aspOf c)).function.val
    if (s.cluster c).job.isSome then (s.hostError f 0 kind).freezeCluster m c fcHostError else s

/-- COMPLETION_TIMEOUT (R417): an error completion of its own kind. -/
def execCompletionTimeout (r : HostReadFor) (s : State) : Result := .next (if s.ready then s.readFailed r 4 else s)

/-! ### Doorbells (R67-R72) -/

/-- Act on a stream's doorbell word (R69, R70): a new SEQ gives the new PRODUCER; one that overruns the ring halts the stream. -/
def State.ringDoorbell (s : State) (st : StreamId) (w : DoorbellWord) : State :=
  let x := s.stream st
  if x.enabled = false ∨ x.halted ∨ x.seqActed = some w.seq then s
  else
    let y := { x with seqActed := some w.seq }
    if 2 ^ x.log2Size.toNat < (w.producer - x.readIdx).toNat then
      (s.setStream st { y with seqActed := x.seqActed }).haltStream st 2 x.readIdx |>.settle st
    else s.setStream st { y with producer := w.producer }

/-- Word `k` of a doorbell line: PRODUCER in bytes 0-3, SEQ in bytes 4-7 (R69). -/
def doorbellWord (x : Line) (k : Nat) : DoorbellWord := { producer := fieldAt x (8 * k) 0 32, seq := fieldAt x (8 * k + 4) 0 32 }

/-- The streams of a line with their words. -/
def lineWords (n : Fin 512) (x : Line) : List (StreamId × DoorbellWord) :=
  (lineStreams n).zipIdx.map (fun p => (p.1, doorbellWord x p.2))

/-- What a poll that read a line does (R69-R71): a SEQ that differs from the previous poll's counts as a change, and every enabled
stream's word is acted on. -/
def State.polled (s : State) (n : Fin 512) (x : Line) : State :=
  let ws := lineWords n x
  let changed := ws.any (fun p => decide ((s.stream p.1).seqPolled ≠ p.2.seq))
  let s1 := s.setLine n { last := some ((s.line n).last.getD s.tick), changed := if changed then some s.tick else (s.line n).changed, asked := false }
  ws.foldl (fun s p => (s.ringDoorbell p.1 p.2).modStream p.1 (fun x => { x with seqPolled := p.2.seq })) s1

/-- DOORBELL_POLL (R71): the poll of a line, read now unless its read went out already: DESIGN CHOICE (log entry 125). Only lines with an
enabled stream are polled. -/
def execDoorbellPoll (line : Fin 512) (reply : Reply Line) (s : State) : Result :=
  .next (if s.ready && (lineStreams line).any (fun st => (s.stream st).enabled) then
    let s0 := s.askLine line
    match reply with
    | .error e => (s0.setLine line { s0.line line with asked := false }).readFailed (.doorbellLine line) (errKindOf e)
    | .data x => s0.polled line x
  else s)

/-! ### Fetching descriptors (R54, R67, R75, R79, R80, R95) -/

/-- May the device read descriptors of a stream? A frozen VF's fetching is stopped (R303). -/
def State.canRead (s : State) (st : StreamId) : Bool :=
  let x := s.stream st
  s.ready && (x.enabled && (!x.halted && (!x.restartHeld && !s.frozen .vf x.function.val)))

/-- Does a stream have a job for its descriptors: one that exists and that its JOB_END has not ended? -/
def State.hasJob (s : State) (st : StreamId) : Bool :=
  match s.job (s.stream st).job with
  | some j => decide (j.phase ≠ .done ∧ j.phase ≠ .failed) && !j.ended.contains st
  | none => false

/-- Does a stream hold an unfinished JOB_START or JOB_END? -/
def Stream.startPending (x : Stream) : Bool := x.descs.any (fun d => decide (d.opcode = opJobStart) && !d.isFinished)
def Stream.endPending (x : Stream) : Bool := x.descs.any (fun d => decide (d.opcode = opJobEnd) && !d.isFinished)

/-- Is the slot at the read index left unread: a JOB_START behind a JOB_END, or anything else while the job number is free? -/
def State.leftUnread (s : State) (st : StreamId) (op : Nat) : Bool :=
  let x := s.stream st
  if op = opJobStart then x.endPending else !s.hasJob st && !x.startPending

/-- A stream as it stands once it has taken a descriptor, whose records carry the period of its place (R84). The period a place
belongs to counts from the JOB_START (R54); `opens` says that the descriptor is that JOB_START. -/
def Stream.take (x : Stream) (op : Nat) (bits : Line) (first opens : Bool) : Stream :=
  let i := x.readIdx
  let pos : W32 := if opens then 0 else if op = opPeriodMark then x.position + 1 else x.position
  let starts := if opens then [((0 : W32), i + 1)]
    else
      let l := if first then [(x.position, i)] else x.starts
      if op = opPeriodMark then (l ++ [(x.position + 1, i + 1)]).filter (fun p => !before32 p.1 x.current) else l
  { x with
    descs := x.descs ++ [Desc.fresh i (putBits bits 32 (if opens then (0 : W32) else x.position))]
    readIdx := i + 1
    position := pos
    afterStart := if first then some i else x.afterStart
    starts := starts }

/-- Take descriptors in ring order while they may be read, validating each; a bad one halts the stream. A JOB_START that
creates the job belongs to no period, and its header PERIOD must be 0. DEDUCED (log entry 34). -/
def State.takeSlots : Nat → State → StreamId → List Line → State
  | 0, s, _, _ => s
  | n + 1, s, st, lines =>
    match lines with
    | [] => s
    | bits :: rest =>
      let x := s.stream st
      let op := descNum bits 0 0 8
      if x.readIdx = x.producer ∨ 32 ≤ x.descs.length ∨ s.leftUnread st op then s
      else
        let start := x.startPending
        let opens := decide (op = opJobStart) && (!s.hasJob st && !start)
        let first := s.hasJob st && (x.afterStart.isNone && (!start && decide (op ≠ opJobStart)))
        let late := x.periodic && (x.periodOpen && (!start && (decide (op ≠ opJobStart) && before32 x.position x.current)))
        let pos := if opens then 0 else x.position
        let s1 := s.setStream st (x.take op bits first opens)
        match s.descError x.periodic late pos (if start then none else s.maxClOf st) bits with
        | some b => s1.badDescriptor st x.readIdx b
        | none => State.takeSlots n (s1.settle st) st rest

/-- DESCRIPTOR_FETCH (R67, R75): one read of up to 8 slots that does not cross the ring's end. -/
def execDescriptorFetch (st : StreamId) (reply : Reply (List Line)) (s : State) : Result :=
  let x := s.stream st
  .next (if s.canRead st ∧ x.readIdx ≠ x.producer ∧ x.descs.length < 32 then
    let size := 2 ^ x.log2Size.toNat
    let slot := x.readIdx.toNat % size
    let n := min 8 (min (size - slot) (x.producer - x.readIdx).toNat)
    let s0 := s.emit (.hostRead x.function.val (x.ringBase + BitVec.ofNat 64 (64 * slot)) (64 * n))
    match reply with
    | .error e => s0.readFailed (.ringSlots st) (errKindOf e)
    | .data lines => s0.takeSlots n st (lines.take n)
  else s)

/-! ### Heads and what was held back (R86, R90, R93, R94) -/

/-- Does the device re-read a ring's head: its cached value shows less than a quarter of the ring free, which includes every value that
forbids a write (R86)? -/
def State.headStale (s : State) (r : RingId) : Bool :=
  s.ringEnabled r && decide (4 * (s.ringSize r - ((s.ring r).k - (s.ring r).head).toNat) < s.ringSize r)

/-- HEAD_REREAD (R86): a record that the cached value forbids is held until the value read allows it. -/
def execHeadReread (r : RingId) (reply : Reply W32) (s : State) : Result :=
  .next (if s.ready && s.headStale r then
    let s0 := s.emit (.hostRead 0 (BitVec.ofNat 64 (s.headBase + 4 * r.val)) 4)
    match reply with
    | .error e => s0.readFailed (.headWord r) (errKindOf e)
    | .data v => s0.setRing r { s0.ring r with head := v }
  else s)

/-- The streams whose records go to a completion ring. -/
def State.ringStreams (s : State) (r : RingId) : List StreamId :=
  s.streamIds.filter (fun st => decide (cring (s.stream st).cring = r))

/-- HELD_RECORD_WRITE (R94): the records that find room are written, and a drop whose last record this was ends. -/
def execHeldRecordWrite (r : RingId) (s : State) : Result :=
  .next (if s.ready then
    if r = eventRing then s.flushEvents
    else if r = faultRing then s.flushFaults
    else (s.ringStreams r).foldl (fun s st => ((s.flushStream st).leaveDrop st).settle st) s
  else s)

/-- FAULT_RECORD_WRITE (R93). -/
def execFaultRecordWrite (s : State) : Result := .next (if s.ready then s.flushFaults else s)

/-- Has COAL.TIME passed since the oldest unsignalled record of a ring was written (R90)? -/
def State.coalesceDue (s : State) (r : RingId) : Bool :=
  decide (0 < (s.ring r).unsignalled)
    && decide ((bitsAt (s.reg (ringBaseOff r + 12)) 16 16).toNat ≤ (s.tick - (s.ring r).oldest).toNat)

/-- COALESCE_TIMEOUT (R90). -/
def execCoalesceTimeout (n : JobId) (s : State) : Result :=
  .next (if s.ready && (s.ringEnabled (cring n) && s.coalesceDue (cring n)) then s.signalRing (cring n) else s)

/-- Send the messages of a function's pending, unmasked vectors (R415). -/
def State.releaseMsix (s : State) (f : FunctionId) : State :=
  s.host.msix.foldl (fun s e =>
    if e.1 / 2048 = f.val ∧ e.2.pending ∧ e.2.masked = false then
      (s.setMsix f.val (e.1 % 2048) { e.2 with pending := false }).emit (.msix f.val (e.1 % 2048) e.2.addr e.2.data)
    else s) s

/-- MSIX_RELEASE (R415): MSI-X Enable and Function Mask of a function take new values. -/
def execMsixRelease (f : FunctionId) (enable mask : Bool) (s : State) : Result :=
  let b : BitVec 32 := 1#32 <<< f.val
  let s1 := { s with host := { s.host with
    msixEnable := if enable then s.host.msixEnable ||| b else s.host.msixEnable &&& ~~~ b
    msixMask := if mask then s.host.msixMask ||| b else s.host.msixMask &&& ~~~ b } }
  .next (if s.hostAnswers = false then s else if enable && !mask then s1.releaseMsix f else s1)

/-- VECTOR_UNMASK (R90, R415). A function without that vector has nothing to unmask. -/
def execVectorUnmask (f : FunctionId) (v : BitVec 11) (s : State) : Result :=
  let m := s.msix f.val v.toNat
  .next (if s.hostAnswers = false ∨ (f ≠ 0 ∧ 64 ≤ v.toNat) then s
    else
      let s1 := s.setMsix f.val v.toNat { m with masked := false, pending := false }
      if m.pending then s1.sendMsix f.val v.toNat else s1)

end Sys2Proof.Machine
end

