-- ==== Sys2Proof/Machine/Registers.lean ====
section
/-! DEFINITION. The set-up registers of BAR0: which fields each has (R462, R468), the check of a write as a whole (R463, R464,
R467, R471, R472), and what the write of a field does. -/
namespace Sys2Proof.Machine

/-! ### The register map (R462, R468) -/

/-- Is an offset one of `n` at `lo`, `lo + step`, ...? -/
def inRun (off lo step n : Nat) : Bool := decide (lo ≤ off ∧ off < lo + step * n ∧ (off - lo) % step = 0)

/-- Every bit of a register. -/
def allBits : Nat := 0xFFFFFFFF

/-- The spans in which every offset belongs to the block and no field is writable: FUSE and the CL blocks (R468). -/
def readOnlySpan (off : Nat) : Bool := decide ((0x1000 ≤ off ∧ off < 0x2000) ∨ (0x1000000 ≤ off ∧ off < 0x1300000))

/-- GEN (R27, R378, R469): the bits a write may set, and the read-only bits. -/
def genFields (o : Nat) : Option (Nat × Nat) :=
  if inRun o 0 4 3 || inRun o 0x10 4 5 || inRun o 0x40 4 3 || inRun o 0x50 4 2 then some (0, allBits)
  else if o = 0x200 then some (0x8FFF0FFF, 0)
  else if o = 0x204 then some (0xFFF, 0)
  else if inRun o 0x21C 16 16 then some (0x8000000F, 0)
  else if inRun o 0x210 4 64 then some (allBits, 0)
  else if o = 0x310 ∨ o = 0x314 then some (allBits, 0)
  else if o = 0x318 then some (0xFFFF, 0)
  else if inRun o 0x320 4 16 then some (0x80000FFF, 0)
  else if inRun o 0x360 4 16 then some (0, allBits)
  else if o = 0x400 then some (0xFF, 0)
  else if o = 0x404 then some (1, 0)
  else if o = 0x408 ∨ o = 0x40C then some (allBits, 0)
  else none

/-- CLK (R435). -/
def clkFields (o : Nat) : Option (Nat × Nat) := if o = 0 ∨ inRun o 0x100 4 48 then some (0, allBits) else none

/-- PWR (R317, R437). -/
def pwrFields (o : Nat) : Option (Nat × Nat) :=
  if o = 0 then some (0x03FF0000, 0x3FF)
  else if o = 4 ∨ o = 8 ∨ o = 0xC ∨ inRun o 0x20 4 3 ∨ o = 0x48 then some (0, allBits)
  else if o = 0x10 ∨ o = 0x14 then some (0xFFFF, 0)
  else if o = 0x30 then some (0xF, 0)
  else if o = 0x40 then some (0x8000FFFF, 0)
  else if o = 0x44 then some (0xFFFF, 0)
  else if inRun o 0x100 16 4 then some (0xFFFF, 0)
  else if inRun o 0x104 16 4 then some (0, allBits)
  else if inRun o 0x108 16 4 then some (0x8FFF0FFF, 0)
  else none

/-- HIF (R415, R418); the MSI-X table has its own write, the PBA is read-only. -/
def hifFields (o : Nat) : Option (Nat × Nat) :=
  if o = 0 ∨ inRun o 0x40 4 3 ∨ inRun o 0xC000 4 64 then some (0, allBits)
  else if o = 0x30 then some (3, 0)
  else if inRun o 0x10 4 8 then some (allBits, 0)
  else if o = 0x80 then some (0xFFFFF000, 0)
  else if o = 0x84 then some (allBits, 0)
  else if inRun o 0x110 16 31 then some (0xFFFFF000, 0)
  else if inRun o 0x114 16 31 then some (allBits, 0)
  else if inRun o 0x118 16 31 then some (0x7FFFF, 0)
  else none

/-- STB (R62, R470). -/
def stbFields (o : Nat) : Option (Nat × Nat) :=
  if o = 0 ∨ o = 8 ∨ o = 0x40 ∨ o = 0x50 ∨ inRun o 0x1000 16 256 then some (0xFFFFF000, 0)
  else if o = 0x10 then some (0xFFFFFFC0, 0)
  else if o = 4 ∨ o = 0xC ∨ o = 0x14 ∨ o = 0x44 ∨ o = 0x54 ∨ inRun o 0x1004 16 256 then some (allBits, 0)
  else if o = 0x18 then some (0x10FFF, 0)
  else if o = 0x1C ∨ inRun o 0x24 4 3 ∨ o = 0x34 then some (0, allBits)
  else if o = 0x20 then some (0xFFF, 0)
  else if o = 0x30 then some (0xFF, 0)
  else if o = 0x38 then some (0x800000FF, 0)
  else if o = 0x48 ∨ o = 0x58 then some (0x87FF000F, 0)
  else if inRun o 0x1008 16 256 then some (0x87FF1F0F, 0)
  else if inRun o 0x100C 16 256 then some (0xFFFF00FF, 0)
  else none

/-- ASP (R264, R472). -/
def aspFields (o : Nat) : Option (Nat × Nat) :=
  if o = 0 then some (0x3FF, 0)
  else if o = 8 then some (0xFFFE0000, 0)
  else if o = 0xC ∨ o = 0x14 ∨ o = 0x20 then some (0xFFFF, 0)
  else if o = 0x10 then some (0xFFFFF000, 0)
  else if o = 0x18 then some (0x1FFFFFF, 0)
  else if o = 0x1C then some (0x801F1FFF, 0)
  else if o = 0x24 then some (1, 0)
  else if inRun o 0x28 4 3 then some (0, allBits)
  else none

/-- ERR (R304, R348). -/
def errFields (o : Nat) : Option (Nat × Nat) :=
  if o = 0 ∨ o = 8 ∨ o = 0x18 ∨ o = 0x104 ∨ o = 0x10C ∨ inRun o 0x1000 4 64 then some (0, allBits)
  else if o = 4 then some (allBits, 0)
  else if o = 0x10 then some (0xFF0F, 0)
  else if o = 0x14 then some (0x3F, 0)
  else if o = 0x1C then some (0x8000003F, 0)
  else if o = 0x100 then some (0xFFFF, 0)
  else if o = 0x108 then some (0x8000FFFF, 0)
  else none

/-- DMP (R451). -/
def dmpFields (o : Nat) : Option (Nat × Nat) :=
  if o = 0 ∨ o = 8 ∨ o = 0xC ∨ o = 0x1C ∨ inRun o 0x100 4 37 then some (0, allBits)
  else if o = 0x10 then some (0xFFFFF000, 0)
  else if o = 0x14 then some (allBits, 0)
  else if o = 0x18 then some (1, 0x100)
  else none

/-- One port's block (R376, R475). -/
def evlFields (o : Nat) : Option (Nat × Nat) :=
  if o = 0 then some (0xFF3F1F03, 0)
  else if o = 4 then some (0xFFFF001F, 0)
  else if o = 8 ∨ inRun o 0x10 4 8 ∨ o = 0x38 then some (0, allBits)
  else if 0x1000 ≤ o ∧ o < 0x1800 ∧ o % 0x200 < 0x1E0 then some (0, allBits)
  else if o = 0x30 then some (allBits, 0)
  else if o = 0x34 then some (0xF, 0)
  else if o = 0x3C then some (1, 0)
  else none

/-- The fields of the register at an offset that is a multiple of 4: the bits a write may set and the read-only bits; none where no
register is assigned (R410). -/
def fields (off : Nat) : Option (Nat × Nat) :=
  if readOnlySpan off then some (0, allBits)
  else if off < 0x1000 then genFields off
  else if 0x10000 ≤ off ∧ off < 0x20000 then clkFields (off - 0x10000)
  else if 0x20000 ≤ off ∧ off < 0x30000 then pwrFields (off - 0x20000)
  else if 0x30000 ≤ off ∧ off < 0x40000 then hifFields (off - 0x30000)
  else if 0x40000 ≤ off ∧ off < 0x50000 then stbFields (off - 0x40000)
  else if 0x50000 ≤ off ∧ off < 0x60000 then aspFields (off - 0x50000)
  else if 0x60000 ≤ off ∧ off < 0x70000 then errFields (off - 0x60000)
  else if 0x70000 ≤ off ∧ off < 0x80000 then dmpFields (off - 0x70000)
  else if inRun off 0x80000 4 2 ∨ inRun off 0x80010 4 2 then some (0, allBits)
  else if 0x100000 ≤ off ∧ off < 0x180000 then evlFields (off % 0x10000)
  else none

/-- The PF's MSI-X table (R415). -/
def inMsixTable (off : Nat) : Bool := decide (0x34000 ≤ off ∧ off < 0x3C000)

/-! ### Why a write is discarded (R464) -/

def whyBit : Nat := 1
def whyValue : Nat := 2
def whyReadOnly : Nat := 3
def whyState : Nat := 4
def whyUnassigned : Nat := 5
def whyDevice : Nat := 6

/-- The writes that FAILED permits (R467). -/
def failedPermits (off : Nat) : Bool :=
  [0x70010, 0x70014, 0x70018, 0x30080, 0x30084, 0x60004, 0x60014, 0x60100, 0x20044, 0x40020, 0x40030, 0x50000,
    0x400].contains off || inRun off 0x30010 4 9

/-- The writes that RECOVERY permits (R467): GEN, HIF and DMP. -/
def recoveryPermits (off : Nat) : Bool :=
  decide (off < 0x1000 ∨ (0x30000 ≤ off ∧ off < 0x40000) ∨ (0x70000 ≤ off ∧ off < 0x80000))

/-- Does the device state refuse a write? -/
def State.stateRefuses (s : State) (off : Nat) : Bool :=
  match s.card.device with
  | .failed => !failedPermits off
  | .recovery => !recoveryPermits off
  | _ => false

/-- The port of an offset in the EVL blocks. -/
def evlPort (off : Nat) : PortId := ⟨off / 0x10000 % 8, by omega⟩

/-- The ring whose BASE or CFG lies at an STB offset. -/
def ringAt (o : Nat) : Option RingId :=
  if 0x1000 ≤ o ∧ o < 0x2000 then some ⟨(o - 0x1000) / 16 % 256, by omega⟩
  else if 0x40 ≤ o ∧ o < 0x50 then some 256
  else if 0x50 ≤ o ∧ o < 0x60 then some 257
  else none

/-- Units that exist in a kind (R443). -/
def unitExists (kind number : Nat) : Bool :=
  decide ((kind = 1 ∧ number < 48) ∨ (kind = 2 ∧ number < 48) ∨ (kind = 3 ∧ number < 8) ∨ (kind = 4 ∧ number < 6)
    ∨ (kind = 5 ∧ number < 4) ∨ (kind = 6 ∧ 1 ≤ number ∧ number < 32) ∨ (kind = 0x40 ∧ number = 0))

/-- A logical cluster by number. -/
def ClusterId.ofNat' (n : Nat) : ClusterId := ⟨n % 48, by omega⟩

/-- Why PWR_UNIT_RESET with GO is discarded (R446). A VF is reset by its FLR, and a fabric destination is no unit of the device: DEDUCED
(log entry 57). -/
def State.unitResetRefused (s : State) (kind number : Nat) : Option Nat :=
  if unitExists kind number = false ∨ kind = ukVf ∨ kind = 0x40 then some whyValue
  else if (s.unit kind number).inReset then some whyState
  else if (kind = ukCluster ∨ kind = ukMover) ∧ (s.cluster (ClusterId.ofNat' number)).job.isSome then some whyState
  else none

/-- Why a CFG write is discarded (R471); a write that leaves ENABLE 0 never is. -/
def State.cfgRefused (s : State) (r : RingId) (v : W32) : Option Nat :=
  if v.getLsbD 31 = false then none
  else
    let size := (bitsAt v 0 4).toNat
    let f := if r.val < 256 then (bitsAt v 8 5).toNat else 0
    let vectors := if f = 0 then 2048 else 64
    if size < 4 ∨ (256 ≤ r.val ∧ 12 < size) ∨ vectors ≤ (bitsAt v 16 11).toNat then some whyValue
    else if s.ringEnabled r ∧ s.ringCfg r ≠ v then some whyState
    else none

/-- Is any stream, or any ring, enabled? -/
def State.anyStream (s : State) : Bool := s.streamIds.any (fun st => (s.stream st).enabled)
def State.anyRing (s : State) : Bool := (List.finRange 258).any (fun r => s.ringEnabled r)

/-! ### The address-space load (R265) -/

/-- The staged values of ASP_LOAD. -/
def State.aspSel (s : State) : Fin 1024 := AspId.ofNat' (bitsAt (s.reg 0x50000) 0 10).toNat
def State.aspTable (s : State) : Nat := s.regPair 0x50008
def State.aspCnt (s : State) : Nat := s.regPair 0x50010
def State.aspCount (s : State) : Nat := (s.reg 0x50018).toNat
def State.aspCfg (s : State) : W32 := s.reg 0x5001C

/-- The raw entries of the staged table. -/
def State.stagedEntries (s : State) : List (BitVec 256) :=
  (List.range (bitsAt s.aspCfg 0 13).toNat).map (fun i => BitVec.ofNat 256 (s.readNum (s.aspTable + 32 * i) 32))

/-- Are entries sorted by VBASE without overlap? -/
def sortedEntries : List RangeEntry → Bool
  | [] => true
  | [_] => true
  | a :: b :: l => decide (a.hi ≤ b.lo) && sortedEntries (b :: l)

/-- May the staged values be loaded? -/
def State.aspLoadable (s : State) : Bool :=
  let raw := s.stagedEntries
  let es := raw.map RangeEntry.ofBits
  !s.jobIds.any (fun j => decide ((s.job j).map (·.aspace) = some s.aspSel))
    && (!s.aspCfg.getLsbD 31
      || (s.plainDram s.aspTable 131072 && (s.plainDram s.aspCnt (2 * s.aspCount) || decide (s.aspCount = 0))
        && !s.spanPoisoned s.aspTable (32 * es.length)
        && raw.all (fun r => (s.entryError s.aspCount r).isNone)
        && es.all (fun e => decide (e.gen = 0 ∧ e.state = 0)) && sortedEntries es))

/-- Load the selected space. What range caches hold of the space is invalidated. -/
def State.aspLoad (s : State) : State :=
  let a := s.aspSel
  let en := s.aspCfg.getLsbD 31
  (s.setSpace a
    { enabled := en, function := bitsAt s.aspCfg 16 5 |>.toFin, tableBase := s.aspTable, cntBase := s.aspCnt
      cntSize := s.aspCount, threshold := bitsAt (s.reg 0x50020) 0 16, genctr := 0
      entries := if en then s.stagedEntries.map RangeEntry.ofBits else [], ops := [] }).flushRanges a

/-! ### Talon and retirement (R305, R349) -/

/-- The master kind of a code (R301). -/
def masterOf (k : Nat) : Option MasterKind :=
  if k = 1 then some .kestrel else if k = 2 then some .harrier else if k = 3 then some .mover
  else if k = 4 then some .hearth else if k = 5 then some .vf else if k = 6 then some .evoirIn else none

/-- The master in Talon that a KIND and NUMBER name. -/
def State.talonOf (s : State) (kind number : Nat) : Option Frozen :=
  match masterOf kind with
  | some k => s.integ.talon.find? (fun f => decide (f.kind = k) && decide (f.number.toNat = number))
  | none => none

/-- Is a master of Talon one of a fenced cluster, which ERR_UNFREEZE does not release (R356)? -/
def State.fencedMaster (s : State) (kind number : Nat) : Bool :=
  decide (1 ≤ kind ∧ kind ≤ 4) && !s.isLive (ClusterId.ofNat' number)

/-! ### Value and state checks of single registers -/

/-- Quadrant power-down (R442): may the quadrants newly requested go off? -/
def State.quadOffOk (s : State) (v : W32) : Bool :=
  let old := s.reg 0x20030
  (List.range 4).all (fun q =>
    let x := s.quad (QuadId.ofNat' q)
    let y := s.quad (QuadId.ofNat' (q ^^^ 1))
    !v.getLsbD q || old.getLsbD q
      || (decide (x.on = 0) && (decide (x.cleaning = 0) && (!y.off && (!v.getLsbD (q ^^^ 1) && !old.getLsbD (q ^^^ 1))))))

/-- Is an export window, as the registers stand, disabled or wholly plain DRAM (R378, R452)? -/
def State.windowOk (s : State) (n : Nat) : Bool :=
  let len := 4096 * (s.reg (0x218 + 16 * n)).toNat
  !(s.reg (0x21C + 16 * n)).getLsbD 31 || decide (len = 0) || s.plainDram (s.regPair (0x210 + 16 * n)) len

/-- Is the checkpoint area, as the registers stand, absent or wholly DRAM outside the other reserved areas? -/
def State.ckptOk (s : State) : Bool :=
  let len := 16 * s.ckptSlotBytes
  decide (len = 0) || (decide (s.ckptBase + len ≤ dramSize) && (decide (s.memory.stacksTrained ≠ 0)
    && !s.meetsReserved s.ckptBase len false))

/-- Is a value outside a field's range or alignment? `t` is the state with the whole write's fields set, for the registers that are
checked together. Windows and the checkpoint area are checked when the write leaves them enabled: DEDUCED (log entry 52). -/
def State.badValue (s t : State) (off : Nat) (v : W32) : Bool :=
  if off = 0x200 then
    (List.range 3).any (fun d => decide ((bitsAt v (16 + 4 * d) 4).toNat < coord (bitsAt v 0 12) d))
  else if inRun off 0x210 16 16 then decide (v.toNat % 4096 ≠ 0) || !t.windowOk ((off - 0x210) / 16)
  else if inRun off 0x214 4 63 then !t.windowOk ((off - 0x210) / 16)
  else if off = 0x310 then decide (v.toNat % 2 ^ 20 ≠ 0) || !t.ckptOk
  else if off = 0x314 then !t.ckptOk
  else if off = 0x318 then decide (v.toNat % 2 ≠ 0) || decide (510 < v.toNat) || !t.ckptOk
  else if off = 0x20000 then
    decide ((bitsAt v 16 10).toNat < 150) || decide (s.card.boardW.toNat < (bitsAt v 16 10).toNat)
  else if off = 0x20040 then v.getLsbD 31 &&
    decide (s.unitResetRefused (bitsAt v 0 8).toNat (bitsAt v 8 8).toNat = some whyValue)
  else if off = 0x20044 then !([1, 2, 3, 4, 5, 6, 0x40].contains (bitsAt v 0 8).toNat)
  else if inRun off 0x20108 16 4 then
    v.getLsbD 31 && (decide ((bitsAt v 16 12).toNat < (bitsAt v 0 12).toNat) || decide (3071 < (bitsAt v 16 12).toNat))
  else if inRun off 0x30118 16 31 then decide (262144 < v.toNat)
  else if inRun off 0x41008 16 256 ∨ off = 0x40048 ∨ off = 0x40058 then
    match ringAt (off - stbBase) with
    | some r => decide (s.cfgRefused r v = some whyValue)
    | none => false
  else if off = 0x50018 then decide (2 ^ 24 < v.toNat)
  else if off = 0x5001C then decide (4096 < (bitsAt v 0 13).toNat)
  else if off = 0x60010 then
    decide (bitsAt v 0 4 = 0) || decide (bitsAt v 8 8 = 0) || decide (168 < (bitsAt v 8 8).toNat)
  else if 0x100000 ≤ off ∧ off < 0x180000 then
    let o := off % 0x10000
    if o = 0 then decide (16 < (bitsAt v 8 5).toNat)
    else if o = 4 then decide (bitsAt v 0 5 = 0) || decide ((bitsAt v 16 16).toNat < 100)
    else if o = 0x34 then decide (v = 7 ∨ v = 14 ∨ v = 15)
    else false
  else false

/-- Is a register's state condition broken (R464 lists the rules)? -/
def State.badState (s : State) (off : Nat) (v : W32) : Bool :=
  if off = 0x200 then allPorts.any (fun p => s.evlEnabled p)
  else if off = 0x404 then (s.job (JobId.ofNat' (s.reg 0x400).toNat)).isSome
  else if off = 0x20030 then !s.quadOffOk v
  else if off = 0x20040 then v.getLsbD 31 &&
    decide (s.unitResetRefused (bitsAt v 0 8).toNat (bitsAt v 8 8).toNat = some whyState)
  else if inRun off 0x40000 4 4 then s.anyStream
  else if off = 0x40010 ∨ off = 0x40014 then s.anyRing
  else if 0x40000 ≤ off ∧ off < 0x50000 then
    match ringAt (off - stbBase) with
    | some r => if off % 16 < 8 then s.ringEnabled r
      else if off % 16 = 8 then decide (s.cfgRefused r v = some whyState) else false
    | none => if off = 0x40038 then v.getLsbD 31 &&
        !(((s.job (JobId.ofNat' (bitsAt v 0 8).toNat)).map (fun j => j.phase.abortable)).getD false)
      else false
  else if off = 0x50024 then v.getLsbD 0 && !s.aspLoadable
  else if off = 0x6001C then v.getLsbD 31 && !s.integ.retired.getLsbD (bitsAt v 0 6).toNat
  else if off = 0x60108 then
    v.getLsbD 31 && (!(((s.talonOf (bitsAt v 0 8).toNat (bitsAt v 8 8).toNat).map (fun f => f.dumped)).getD false)
      || s.fencedMaster (bitsAt v 0 8).toNat (bitsAt v 8 8).toNat)
  else if 0x100000 ≤ off ∧ off < 0x180000 then
    let o := off % 0x10000
    if o = 0x34 then s.evlEnabled (evlPort off)
    else if o = 0x3C then v.getLsbD 0 && !(s.port (evlPort off)).carries
    else false
  else false

end Sys2Proof.Machine
end

