-- ==== Sys2Proof/Machine/Bar2.lean ====
section
/-! DEFINITION. BAR2: the host's window onto device DRAM, of the PF and of the VFs (R411, R414, R445). -/
namespace Sys2Proof.Machine

/-- The physical address an offset of a function's BAR2 reaches. -/
def State.bar2Base (s : State) (f : FunctionId) : Nat :=
  if f = 0 then s.regPair 0x30080 else s.regPair (0x30100 + 16 * f.val)

/-- Bytes of an access. -/
def bar2Size : VfAccess → Nat
  | .read n => n
  | .write bs => bs.length

/-- Is a span device DRAM of stacks that are there (R22, R411)? -/
def State.dramSpan (s : State) (pa n : Nat) : Bool :=
  decide (pa + n ≤ dramSize) && s.stackLive pa && s.stackLive (pa + (n - 1))

/-- Perform an access of a function at a physical address. A discarded write is logged with KIND 6 and its BAR2 offset; a reserved
area is read but not written by the PF, and holds a VF in Talon. -/
def State.bar2Do (s : State) (f : FunctionId) (off : Nat) (a : VfAccess) : State :=
  let pa := s.bar2Base f + off
  if s.card.device = .recovery ∨ s.dramSpan pa (bar2Size a) = false then
    match a with
    | .read _ => s.unsupported f
    | .write _ => if s.card.device = .recovery then s.unsupported f else s.hostError f.val off 6
  else if f ≠ 0 ∧ s.meetsReserved pa (bar2Size a) true then s.freezeVf f
  else
    match s.fencedUnit pa with
    | some _ => { s with host := { s.host with b2Held := s.host.b2Held ++ [⟨f, off, a⟩] } }
    | none =>
      match a with
      | .read n =>
        let (bs, s1) := s.deviceRead pa n false
        s1.emit (.bar2Data bs (s.spanPoisoned pa n))
      | .write bs => if s.meetsReserved pa bs.length true then s.hostError f.val off 6 else s.deviceWrite pa bs false

/-- BAR2_READ (R411). -/
def execBar2Read (off : BitVec 36) (len : Nat) (s : State) : Result :=
  .next (if s.hostAnswers then s.bar2Do 0 off.toNat (.read len) else s)

/-- BAR2_WRITE (R411). -/
def execBar2Write (off : BitVec 36) (bytes : List Byte) (s : State) : Result :=
  .next (if s.hostAnswers then s.bar2Do 0 off.toNat (.write bytes) else s)

/-- VF_BAR2_ACCESS (R414): while no device memory is there it goes no further than a lost stack's (R22); an access that leaves the window
holds the VF; a held VF's accesses complete with Unsupported Request
(R303). The VFs are there only in READY and FAILED (R449). -/
def execVfBar2Access (f : FunctionId) (off : BitVec 30) (access : VfAccess) (s : State) : Result :=
  .next (if s.hostAnswers = false ∨ s.card.device = .recovery then s
    else if s.frozen .vf f.val then s.unsupported f
    else if s.memory.stacksTrained ≠ 0 ∧ 4096 * (s.reg (0x30108 + 16 * f.val)).toNat < off.toNat + bar2Size access then s.freezeVf f
    else s.bar2Do f off.toNat access)

/-- Perform again the accesses that waited for a reset to end (R445). -/
def State.reissueBar2 (s : State) : State :=
  s.host.b2Held.foldl (fun s h => s.bar2Do h.function h.off h.access) { s with host := { s.host with b2Held := [] } }

/-- ATOMICOP (R408): an incoming AtomicOp or locked request. -/
def execAtomicop (s : State) : Result := .next (if s.hostAnswers then s.unsupported 0 else s)

end Sys2Proof.Machine
end

