-- ==== Sys2Proof/Machine/Identity.lean ====
section
/-! DEFINITION. The identity of the card as its registers and the dump header show it (R24-R28, R407, R469), and the serialised
form of a log entry (R351). -/
namespace Sys2Proof.Machine

/-- FUSE_SITEn (R25): site, stop column and row, quadrant. -/
def State.fuseSite (s : State) (c : ClusterId) : W32 :=
  BitVec.ofNat 32 (s.site c % 64 + 2 ^ 8 * stopColumn c + 2 ^ 12 * stopRow c + 2 ^ 16 * stopQuadrant c)

/-- The enable bits of the physical sites (R16, R25): exactly the sites that occupy a stop. -/
def State.siteEnables (s : State) : BitVec 64 :=
  allClusters.foldl (fun x c => x ||| (1#64 <<< s.site c)) 0

/-- FUSE_LOT0 to FUSE_CEN1, the six registers of R25 in order. -/
def State.fuseHead (s : State) : List W32 :=
  [s.card.lot0, s.card.lot1, s.card.wafer, s.card.test, bitsAt s.siteEnables 0 32, bitsAt s.siteEnables 32 32]

/-- Words in byte order. -/
def wordBytes (l : List W32) : List Byte := l.flatMap (fun w => toBytes 4 w.toNat)

/-- STACK_LIVE (R469). -/
def State.stackLiveBits (s : State) : BitVec 6 := s.memory.stacksTrained &&& ~~~ s.memory.stacksLost

/-- The 256 bytes of a log entry (R351). -/
def LogEntry.bytes (e : LogEntry) : List Byte :=
  toBytes 4 e.seqNo.toNat ++ toBytes 1 e.type.toNat ++ toBytes 1 e.source.toNat ++ toBytes 1 e.unit.toNat
    ++ toBytes 1 e.severity.toNat ++ toBytes 8 e.tick.toNat ++ toBytes 1 e.job.toNat ++ toBytes 1 e.attempt.toNat
    ++ toBytes 1 e.cause.toNat ++ toBytes 1 e.flags.toNat ++ toBytes 4 e.count.toNat ++ toBytes 8 e.paddr.toNat
    ++ toBytes 4 e.expected.toNat ++ toBytes 4 e.observed.toNat ++ toBytes 1 e.site.toNat ++ toBytes 1 e.stop.toNat
    ++ toBytes 2 e.aspace.toNat ++ toBytes 4 0 ++ toBytes 208 e.body.toNat

/-- The bytes of the entry of a SEQ; zero when it is not held (R348). -/
def State.logBytes (s : State) (n : W32) : List Byte :=
  if s.logHeld n then (Table.get LogEntry.empty s.integ.log (n.toNat % 4096)).bytes else List.replicate 256 0

end Sys2Proof.Machine
end

