-- ==== Sys2Proof/Machine/Dump.lean ====
section
/-! DEFINITION. Device-fatal conditions and the dump (R451-R461): what a condition stops, the dump's sections one after the other,
the header, the host summary, and FAILED. -/
namespace Sys2Proof.Machine

/-- Codes of DMP_STATE.DUMP (R451). -/
def dumpNone : BitVec 3 := 0
def dumpRunning : BitVec 3 := 1
def dumpComplete : BitVec 3 := 2
def dumpPartial : BitVec 3 := 3
def dumpNoArea : BitVec 3 := 4

/-- Is there a dump area to write to (R452)? -/
def State.hasDumpArea (s : State) : Bool :=
  match s.dumpArea with
  | some b => s.stackLive b
  | none => false

/-- Sections with STATUS COMPLETE (R451). -/
def State.completeSections (s : State) : Nat :=
  (s.integ.sections.filter (fun e => decide (e.2.status.toNat = secComplete))).length

/-! ### The header (R457) -/

/-- STATE codes of the header. -/
def hdrRunning : Nat := 1
def hdrComplete : Nat := 2
def hdrPartial : Nat := 3

/-- The 4,096 bytes of the header with HEADER_CRC zero. -/
def State.headerBody (s : State) (state : Nat) (done : Word) : List Byte :=
  let magic : List Byte := [0x4F, 0x53, 0x5A, 0x44, 0x55, 0x4D, 0x50, 0x31]
  let b := magic ++ toBytes 2 1 ++ toBytes 1 s.integ.reason.toNat ++ toBytes 1 state ++ toBytes 4 s.completeSections
    ++ toBytes 8 s.integ.tickFatal.toNat ++ toBytes 8 done.toNat ++ toBytes 4 0 ++ toBytes 4 s.integ.dumpDetail.toNat
    ++ toBytes 2 (bitsAt (s.reg 0x200) 0 12).toNat ++ toBytes 1 s.card.revision.toNat ++ toBytes 1 0
    ++ toBytes 4 s.host.fwVersion.toNat ++ toBytes 8 s.card.live.toNat ++ toBytes 8 s.reportedMemory
    ++ wordBytes s.fuseHead ++ List.replicate 8 0 ++ wordBytes (allClusters.map s.fuseSite)
    ++ toBytes 144 s.integ.meas.toNat ++ toBytes 4 s.integ.logNext.toNat
  b ++ List.replicate (4096 - b.length) 0

/-- The header with its CRC. -/
def State.header (s : State) (state : Nat) (done : Word) : List Byte :=
  let b := s.headerBody state done
  b.take 32 ++ toBytes 4 (crc32c b).toNat ++ b.drop 36

/-- Write the header to the dump area. -/
def State.writeHeader (s : State) (state : Nat) (done : Word) : State :=
  match s.dumpArea with
  | some b => if s.stackLive b then s.writeMem b (s.header state done) else s
  | none => s

/-! ### The sections (R456) -/

/-- The section of a table entry. The spec gives no length for sections but what their offsets leave. -/
def sectionAt (n : Nat) : SectionId :=
  if n = 0 then ⟨0, 1, 0, 0x100000, 0x100000⟩
  else if n = 1 then ⟨1, 2, 0, 0x200000, 4096 * 64 + 256 * 256⟩
  else if n < 10 then ⟨n, 3, n - 2, 0x300000 + 0x10000 * (n - 2), 0x10000⟩
  else if n < 16 then ⟨n, 4, n - 10, 0x800000 + 0x10000 * (n - 10), 0x10000⟩
  else if n < 80 then ⟨n, 5, n - 16, 0x800000 + 0x10000 * (6 + (n - 16)), 0x10000⟩
  else if n < 128 then clusterSection (n - 80)
  else if n < 192 then talonSection (n - 128)
  else ⟨192, 8, 0, 0x4000000, 0x1000000⟩

/-- Entries of the section table (R456): the Talon slots are 1-31 and 32-39. -/
def sectionExists (n : Nat) : Bool := decide (n < 128 ∨ (129 ≤ n ∧ n < 168) ∨ n = 192)

/-- What a section holds: the log, a cluster, or bytes whose layout the spec does not give (free values). -/
def State.sectionRuns (s : State) (n : Nat) : List (Nat × List Byte) :=
  if n = 0 then
    [(0, (List.range 4096).flatMap (fun k =>
      let e := Table.get LogEntry.empty s.integ.log k
      if e.count = 0 then List.replicate 256 0 else e.bytes))]
  else if 80 ≤ n ∧ n < 128 then s.clusterRuns ⟨(n - 80) % 48, by omega⟩
  else [(0, freeBytes s.free (sectionAt n).size)]

/-- The next entry from `n` up that is there and not COMPLETE. -/
def State.nextSection (s : State) (n : Nat) : Option Nat :=
  (List.range 193).find? (fun k => decide (n ≤ k) && (sectionExists k
    && decide ((Table.get Section.empty s.integ.sections k).status.toNat ≠ secComplete)))

/-! ### The end of a dump (R454 steps 6 to 8, R458) -/

/-- The 256 job records of the summary: number, state, attempt and the period of the job's first periodic stream; zero for a number
no job holds. DEDUCED (log entry 59). -/
def State.summaryJobs (s : State) : List Byte :=
  (List.range 256).flatMap (fun n =>
    let j := JobId.ofNat' n
    match s.job j with
    | none => List.replicate 16 0
    | some x =>
      let period := ((s.jobStreams j).find? (fun st => (s.stream st).periodic)).map (fun st => (s.stream st).current)
      toBytes 1 n ++ toBytes 1 x.phase.code ++ toBytes 1 x.attempt.toNat ++ toBytes 1 0 ++ toBytes 4 (period.getD 0).toNat
        ++ toBytes 8 0)

/-- The section table as the summary carries it. -/
def State.sectionTable (s : State) : List Byte :=
  match s.dumpArea with
  | some b => if s.stackLive b then s.readMem (b + 0x1000) (193 * 32) else List.replicate (193 * 32) 0
  | none => List.replicate (193 * 32) 0

/-- The 192 newest log entries, oldest first. -/
def State.summaryLog (s : State) : List Byte :=
  let n := s.integ.logNext.toNat
  let l := (List.range (min n 192)).flatMap (fun i => s.logBytes (BitVec.ofNat 32 (n - min n 192 + i)))
  l ++ List.replicate (192 * 256 - l.length) 0

/-- Write the summary, offset 0 last, while the link is up and Bus Master Enable is set; otherwise set ERR (R458). -/
def State.writeSummary (s : State) (state : Nat) : State :=
  if (s.reg 0x70018).getLsbD 0 = false then s
  else
    let bme := Config.busMasterEnable s.free
    let s0 : State := { s with free := s.free + 1 }
    if s0.host.linkUp && bme then
      let a := s0.regPair 0x70010
      (((s0.hostWrite 0 (a + 0x1000) s0.sectionTable).hostWrite 0 (a + 0x3000) s0.summaryJobs).hostWrite 0 (a + 0x4000)
        s0.summaryLog).hostWrite 0 a (s0.header state s0.integ.tickDone)
    else { s0 with integ := { s0.integ with summaryErr := true } }

/-- DEVICE_FAILED to each enabled completion ring with a free slot (R93). -/
def State.failedRecords (s : State) : State :=
  (List.finRange 256).foldl (fun s n =>
    if s.ringRoom (cring n) then
      s.putRecord n { stream := 0, status := 0x60, opcode := 0, tag := 0, job := 0, attempt := 0, nodesc := true, index := 0
                      period := 0, tick := none, detail := 0, irq := false }
    else s) s

/-- FAILED (R454 step 8): the AER error and the DEVICE_FAILED records, and every PD_EVP domain goes off. -/
def State.enterFailed (s : State) (records : Bool) : State :=
  let s1 := (({ s with card := { s.card with device := .failed } } : State).emit .aerUncorrectableInternal).aerReport 0 .uncorrectableInternal
  let s2 := if records then s1.failedRecords.sensorEvent 11 2 else s1
  allPorts.foldl (fun s p => if (s.port p).powered then s.portOff p else s) s2

/-- End the dump: the header with its STATE, the summary, FAILED. A dump without an area stays NO_AREA. -/
def State.endDump (s : State) : State :=
  let whole := (s.nextSection 0).isNone
  let st := if whole then hdrComplete else hdrPartial
  let s1 : State := { s with integ := { s.integ with tickDone := s.tick } }
  let s2 := s1.writeHeader st s1.tick
  let code := if s.integ.dumpState = dumpNoArea then dumpNoArea else if whole then dumpComplete else dumpPartial
  ((({ s2 with integ := { s2.integ with dumpState := code } } : State).writeSummary st)).enterFailed true

/-! ### A device-fatal condition (R453-R455, R461) -/

/-- Is a dump under way? -/
def State.dumping (s : State) : Bool :=
  decide (s.integ.reason ≠ 0) && decide (s.card.device = .ready ∨ s.card.device = .recovery)

/-- Write the next section, or end the dump: one section for each tick (log entry 60). -/
def State.dumpStep (s : State) : State :=
  if s.dumping then
    match if s.hasDumpArea then s.nextSection s.integ.dumpNext else none with
    | some n =>
      let s1 := ({ s with free := s.free + 3 } : State).writeSection (sectionAt n) 0 (s.sectionRuns n)
      { s1 with integ := { s1.integ with dumpNext := n + 1 } }
    | none => s.endDump
  else s

/-- AON hardware holds every master and forces FAILED (R455): no DEVICE_FAILED record, but the AER error. -/
def State.forceFailed (s : State) : State := s.enterFailed false

/-- Hold every master without an event or a record (R454 step 2): each Kestrel halts at once. The spec gives these freezes no cause:
a free value. -/
def State.holdAll (s : State) : State :=
  let cause := Config.freeByte s.free 0
  let hold (s : State) (k : MasterKind) (n : Nat) (j : Option JobId) : State :=
    if s.frozen k n then s
    else { s with integ := { s.integ with talon := s.integ.talon
      ++ [{ kind := k, number := BitVec.ofNat 8 n, dumped := false, job := j, cause := cause, release := false }] } }
  let s0 : State := { s with free := s.free + 1 }
  let s1 := allClusters.foldl (fun s c =>
    let j := s.clusterJob c
    let s1 := hold (hold (hold (hold s .kestrel c.val j) .harrier c.val j) .mover c.val j) .hearth c.val j
    if (s1.cluster c).job.isSome then s1.modCluster c (fun x => { x with k := { x.k with run := .halted } }) else s1) s0
  let s2 := (List.range 31).foldl (fun s v => hold s .vf (v + 1) none) s1
  (List.range 8).foldl (fun s p => hold s .evoirIn p none) s2

/-- The DEVICE_FATAL entry of the log (R352). Its SOURCE is that of the condition: DEDUCED (log entry 61). -/
def State.logFatal (s : State) (code unit : Nat) : State :=
  s.addLog (bodyPut (s.logEntry 0x0B (if code = 1 then 6 else if code = 2 then 4 else 1) unit 3) 48 1 code)

/-- RING_CUT goes out on a port for the link it serves (R454 step 3). -/
def State.tellCut (s : State) (p : PortId) : State :=
  match s.roleDim p with
  | some dim =>
    let link := s.linkOf p dim
    (s.setCut dim link true).sendPacket p (s.ownPacket 0xA 0 [BitVec.ofNat 8 dim, BitVec.ofNat 8 link])
  | none => s

/-- A device-fatal condition with its code, the unit it names in the log and the DETAIL of the header. The first one stops the device
and starts the dump; a later one is logged, and one of code 1 moves the dump to the boot ROM's path, whose own fault ends in FAILED. -/
def State.deviceFatal (s : State) (code unit : Nat) (detail : W32) : State :=
  let s1 := s.logFatal code unit
  if s.dumping then
    if code = 1 then
      if s.integ.romDump then s1.forceFailed
      else { s1 with integ := { s1.integ with romDump := true, dumpNext := 0 } }
    else s1
  else if s.card.device = .ready ∨ s.card.device = .recovery then
    let s2 : State := { s1 with integ := { s1.integ with
      dumpState := if s1.hasDumpArea then dumpRunning else dumpNoArea, tickFatal := s.tick, dumpNext := 0
      dumpDetail := detail, romDump := decide (code = 1) } }
    let s3 := allPorts.foldl (fun s p => if (s.port p).lstate = 2 then s.tellCut p else s) s2.holdAll
    let s4 : State := { s3 with integ := { s3.integ with reason := BitVec.ofNat 3 code } }
    s4.writeHeader hdrRunning 0
  else s

/-- ROOT_PLL_UNLOCK (R434, R453): a fault in AON. -/
def execRootPllUnlock (s : State) : Result :=
  .next (if s.card.rootLock then ({ s with card := { s.card with rootLock := false } } : State).deviceFatal 2 0 0xFF else s)

/-- STEWARD_FAULT (R453). -/
def execStewardFault (cause : W32) (s : State) : Result := .next (s.deviceFatal 1 0 cause)

/-- STEWARD_WATCHDOG (R453, R455). The spec gives the watchdog no Steward cause for DETAIL: a free value. -/
def execStewardWatchdog (s : State) : Result :=
  .next (({ s with free := s.free + 1 } : State).deviceFatal 1 0 (bitsAt (Config.freeWord s.free) 0 32))

/-- NETWORK_UNCORRECTABLE (R344, R453): the stop, or 0xFF for AON. -/
def execNetworkUncorrectable (stop : Byte) (s : State) : Result := .next (s.deviceFatal 2 0 (stop.setWidth 32))

/-- DUMP_SECTION_TIMEOUT (R454): the section being written takes FAILED_WRITE, and the dump moves on. -/
def execDumpSectionTimeout (s : State) : Result :=
  .next (if s.dumping && s.hasDumpArea then
    match s.nextSection s.integ.dumpNext with
    | some n =>
      let s1 := s.writeEntry (sectionAt n) 0 secFailed (s.readMem ((s.dumpArea.getD 0) + (sectionAt n).off) (sectionAt n).size)
      { s1 with integ := { s1.integ with dumpNext := n + 1 } }
    | none => s
  else s)

/-- DUMP_TIMEOUT (R454, R455): sections not begun stay EMPTY and the dump ends; in the boot ROM's path FAILED is forced. -/
def execDumpTimeout (s : State) : Result :=
  .next (if s.dumping then (if s.integ.romDump then s.forceFailed else s.endDump) else s)

end Sys2Proof.Machine
end

