-- ==== Sys2Proof/Machine/HarrierMem.lean ====
section
/-! DEFINITION. The Harrier's memory forms (R163-R169, R312, R308) and the events of translation. -/
namespace Sys2Proof.Machine

/-! ### One element -/

/-- What one element's access does: nothing wrong, or the cause that stops at it, in the priority of R166. -/
inductive ElemStop where
  | misalign
  | xlate
  | rights
  | ecc (t : Target)
  | eccOwn
  | fenced (kind number : Nat)
  deriving DecidableEq, Repr

/-- The bytes at a target as a Harrier load sees them: a present L1D line's dirty bytes and the point of coherence's others
(R312). -/
def State.harrierBytes (s : State) (c : ClusterId) (t : Target) (n : Nat) : List Byte :=
  match t with
  | .store off => Mem.readBytes (s.cluster c).store off n
  | .device pa =>
    let bs := s.readMem pa n
    match (s.cluster c).l1Find t with
    | some l => bs.zipIdx.map (fun p =>
        let i := pa % 64 + p.2
        if l.dirty.getLsbD i then fieldAt l.bytes i 0 8 else p.1)
    | none => bs
  | _ => List.replicate n 0

/-- Does a line's poison reach a load: the line is poisoned and some byte is not dirty in the L1D? -/
def State.harrierPoison (s : State) (c : ClusterId) (t : Target) (n : Nat) : Bool :=
  match t with
  | .store off => (s.cluster c).storeFails off n
  | .device pa =>
    s.poisoned (pa / 64) && (match (s.cluster c).l1Find t with
      | some l => (List.range n).any (fun i => !l.dirty.getLsbD (pa % 64 + i))
      | none => true)
  | _ => false

/-- Translate one field of an element. -/
def State.vaccess (s : State) (c : ClusterId) (store : Bool) (va : Word) (n : Nat) : Except ElemStop (Target × Option RangeEntry)
    × State :=
  match s.access c .harrier (if store then .harrierStore else .harrierLoad) (if store then .w else .r) va n with
  | (.fault, s1) => (.error .xlate, s1)
  | (.violation, s1) => (.error .rights, s1)
  | (.ecc, s1) => (.error .eccOwn, s1)
  | (.ok t e, s1) =>
    match t with
    | .device pa =>
      match s1.fencedUnit pa with
      | some (k, u) => (.error (.fenced k u), s1)
      | none => if !store && s1.harrierPoison c t n then (.error (.ecc (s1.firstError c t n)), s1) else (.ok (t, e), s1)
    | .store _ => if !store && s1.harrierPoison c t n then (.error (.ecc (s1.firstError c t n)), s1) else (.ok (t, e), s1)
    | _ => (.ok (t, e), s1)

/-- Translate every field of an element: the highest cause of any of them (R166). -/
def State.vaccessAll (s : State) (c : ClusterId) (store : Bool) (b : Nat) : List Word →
    Except ElemStop (List (Target × Option RangeEntry × Word)) × State
  | [] => (.ok [], s)
  | va :: vas =>
    match s.vaccess c store va b with
    | (.error e, s1) =>
      match (s1.vaccessAll c store b vas).1, e with
      | .error .xlate, .rights => (.error .xlate, s1)
      | .error .xlate, .ecc _ => (.error .xlate, s1)
      | .error .xlate, .eccOwn => (.error .xlate, s1)
      | .error .rights, .eccOwn => (.error .rights, s1)
      | .error .rights, .ecc _ => (.error .rights, s1)
      | _, _ => (.error e, s1)
    | (.ok x, s1) =>
      match s1.vaccessAll c store b vas with
      | (.error e, s2) => (.error e, s2)
      | (.ok xs, s2) => (.ok ((x.1, x.2, va) :: xs), s2)

/-- Count a transaction of an element, once for a run of elements in one line (log entry 28); `last` is the line before. -/
def State.vcount (s : State) (c : ClusterId) (e : Option RangeEntry) (va : Word) (last : Option Nat) : State :=
  if last = some (va.toNat / 64) then s
  else
    match e with
    | some r => s.count (s.aspOf c) r va.toNat
    | none => s

/-- Store bytes of an element: at the L2, and in a present L1D line, whose dirty bits for them are cleared (R312). -/
def State.vstoreBytes (s : State) (c : ClusterId) (t : Target) (e : Option RangeEntry) (va : Word) (bytes : List Byte) : State :=
  match t with
  | .store off => s.storeWrite c off bytes
  | .device pa =>
    let cacheable := match e with
      | some r => r.cacheable
      | none => false
    ((s.deviceWrite pa bytes cacheable).l1Follow c t bytes).mirror (s.aspOf c) va.toNat bytes
  | _ => s

/-- The write that the elements of a store make up so far in one line: the line counted last, and where the run of adjacent bytes begins
and how long it is. -/
structure StoreRun where
  line : Option Nat
  pa : Nat
  len : Nat

/-- A run that an element not stored ends. -/
def StoreRun.cut (r : StoreRun) : StoreRun := { r with len := 0 }

/-- A run goes on with the bytes of an element, or begins anew with them. -/
def StoreRun.next (r : StoreRun) (va : Word) (t : Target) (n : Nat) : StoreRun :=
  let line := some (va.toNat / 64)
  match t with
  | .device pa =>
    if 0 < r.len ∧ r.pa + r.len = pa ∧ r.pa / 64 = pa / 64 then { r with line := line, len := r.len + n } else ⟨line, pa, n⟩
  | _ => ⟨line, 0, 0⟩

/-- A Harrier write of a whole line clears its poison, at the L2 and in the L1D (R345). DEDUCED: a run of adjacent elements in one line is
one write, as it is one transaction (log entry 28). -/
def State.wholeLine (s : State) (c : ClusterId) (r : StoreRun) : State :=
  if r.len = 64 ∧ s.poisoned (r.pa / 64) then
    let s1 := { s with memory := { s.memory with poison := s.memory.poison.filter (fun l => decide (l ≠ r.pa / 64)) } }
    s1.modCluster c (fun x => { x with l1d := x.l1d.map (fun l =>
      if l.target = (Target.device r.pa).line then { l with poison := false } else l) })
  else s

/-! ### The forms -/

/-- A memory form: whether it stores, its fields per element, and the addresses of element `i`'s fields. -/
structure VMem where
  store : Bool
  fields : Nat
  addr : Nat → List Word
  reg : Nat → Nat

/-- Run elements from `i`, `n` of them, gathering loaded fields (the latest first). It answers where and how it stopped. -/
def State.vmemLoop (c : ClusterId) (h : Harrier) (f : VFields) (m : VMem) :
    Nat → Nat → StoreRun → State → List (List Nat) → Option (Nat × ElemStop) × List (List Nat) × State
  | 0, _, _, s, acc => (none, acc, s)
  | n + 1, i, last, s, acc =>
    let b := esize f.etype.toNat
    if active h f i then
      let vas := m.addr i
      if vas.any (fun va => decide (va.toNat % b ≠ 0)) then (some (i, .misalign), acc, s)
      else
        match s.vaccessAll c m.store b vas with
        | (.error e, s1) => (some (i, e), acc, s1)
        | (.ok ts, s1) =>
          if m.store then
            let (s2, run) := ts.zipIdx.foldl (fun (a : State × StoreRun) p =>
              let v := h.elem (m.reg p.2) b i
              let run := a.2.next p.1.2.2 p.1.1 b
              (((a.1.vcount c p.1.2.1 p.1.2.2 last.line).vstoreBytes c p.1.1 p.1.2.1 p.1.2.2 (toBytes b v)).wholeLine c run, run)) (s1, last)
            State.vmemLoop c h f m n (i + 1) run s2 acc
          else
            let vals := ts.map (fun p => ofBytes (s1.harrierBytes c p.1 b))
            let s2 := ts.foldl (fun s p =>
              match p.1 with
              | .device pa => (s.vcount c p.2.1 p.2.2 last.line).l2Read (pa / 64) (match p.2.1 with
                  | some r => r.cacheable
                  | none => false)
              | _ => s) s1
            State.vmemLoop c h f m n (i + 1) { last with line := some ((vas.getLastD 0).toNat / 64) } s2 (vals :: acc)
    else State.vmemLoop c h f m n (i + 1) last.cut s ([] :: acc)

/-- Write the loaded fields of positions `start` on: active ones take what was loaded, others follow PZ. -/
def writeFields (h : Harrier) (f : VFields) (m : VMem) (start : Nat) (loaded : List (List Nat)) : Harrier :=
  let b := esize f.etype.toNat
  let n := positions f
  (List.range m.fields).foldl (fun h' k =>
    let old := h'.elems (m.reg k) b n
    let new := old.zipIdx.map (fun p =>
      if p.2 < start ∨ start + loaded.length ≤ p.2 then p.1
      else
        match nthD loaded (p.2 - start) [] with
        | [] => if f.pz then 0 else p.1
        | x :: xs => nthD (x :: xs) k 0)
    Harrier.setElems (spanOf f) h' (m.reg k) b new) h

/-- What follows a stop at element `e` (R164-R167): VPROG, the report, and for a violation the Talon hold. -/
def State.vstop (s : State) (c : ClusterId) (pc : Word) (f : VFields) (m : VMem) (e : Nat) (why : ElemStop) : State :=
  let va := (m.addr e).headD 0
  let s1 := s.modCluster c (fun x => { x with h := { x.h with vprogIndex := BitVec.ofNat 12 e, vprogValid := true } })
  match why with
  | .misalign => s1.pushReport c (.failure (BitVec.ofNat 8 exMisalign) pc va)
  | .xlate => s1.pushReport c (.xlate pc va (esize f.etype.toNat * m.fields) (if m.store then 2 else 1))
  | .rights => (s1.pushReport c (.failure (BitVec.ofNat 8 exRights) pc va)).freezeCluster .harrier c fcRights
  | .ecc t => (s1.logConsumed c t).pushReport c (.failure (BitVec.ofNat 8 exEccUncorr) pc va)
  | .eccOwn => s1.pushReport c (.failure (BitVec.ofNat 8 exEccUncorr) pc va)
  | .fenced k u => s1.fencedFor c k u

/-- Issue a memory form: element positions from VPROG.INDEX when VALID is set (R168), else from 0. -/
def State.vmem (s : State) (c : ClusterId) (func : Nat) (f : VFields) (bad : Bool) (form : State → VMem) : State :=
  let start := if (s.cluster c).h.vprogValid then (s.cluster c).h.vprogIndex.toNat else 0
  s.vissue c 0x76 func f bad (fun pc s =>
    let h := (s.cluster c).h
    let m := form s
    let (why, rev, s1) := State.vmemLoop c h f m (positions f - start) start ⟨none, 0, 0⟩ s []
    let s2 := if m.store then s1
      else s1.modCluster c (fun x => { x with h := writeFields x.h f m start rev.reverse })
    match why with
    | none => s2
    | some (e, w) => s2.vstop c pc f m e w)

/-- The fields of a memory form. -/
def memUse (store vb vc : Bool) (imm : Byte) : VUse :=
  { vd := true, va := false, vb := vb, vc := vc, pen := true, pz := !store, span := true, etype := true, etype2 := false
    gs := true, rm := false, imm := imm }

/-- The base address. -/
def State.vbase (s : State) (c : ClusterId) (f : VFields) : Word := s.g c f.gs

/-- Unit-stride. -/
def State.vunit (s : State) (c : ClusterId) (func : Nat) (f : VFields) (store : Bool) : State :=
  s.vmem c func f (fieldsBad (memUse store false false 0) f || spanBad f || pastEnd f.vd.toNat (spanOf f)) (fun s =>
    { store := store
      fields := 1
      reg := fun _ => f.vd.toNat
      addr := fun i => [s.vbase c f + BitVec.ofNat 64 (esize f.etype.toNat * i)] })

/-- Strided, with the stride in g(VC). -/
def State.vstrided (s : State) (c : ClusterId) (func : Nat) (f : VFields) (store : Bool) : State :=
  s.vmem c func f (fieldsBad (memUse store false true 0) f || spanBad f || pastEnd f.vd.toNat (spanOf f)) (fun s =>
    let stride := s.g c f.vc
    { store := store
      fields := 1
      reg := fun _ => f.vd.toNat
      addr := fun i => [s.vbase c f + stride * BitVec.ofNat 64 i] })

/-- Gather and scatter: offsets of 32 or 64 signed bits from VB, scaled by the element size with IMM8[1]. -/
def State.vindexed (s : State) (c : ClusterId) (func : Nat) (f : VFields) (store : Bool) : State :=
  let ib := if f.imm8.getLsbD 0 then 8 else 4
  let n := positions f
  let nb := regsFor n ib
  let bad := fieldsBad (memUse store true false 3) f || spanBad f
    || (if store then pastEnd f.vd.toNat (spanOf f) || pastEnd f.vb.toNat nb
        else regsBad f.vd.toNat (spanOf f) [(f.vb.toNat, nb)])
  s.vmem c func f bad (fun s =>
    let offs := (s.cluster c).h.elems f.vb.toNat ib n
    let scale : Int := if f.imm8.getLsbD 1 then esize f.etype.toNat else 1
    { store := store
      fields := 1
      reg := fun _ => f.vd.toNat
      addr := fun i => [s.vbase c f + BitVec.ofInt 64 (scale * intOf (if ib = 8 then 4 else 3) (nthD offs i 0))] })

/-- Segments of NF fields. -/
def State.vsegment (s : State) (c : ClusterId) (func : Nat) (f : VFields) (store : Bool) : State :=
  let nf := (bitsAt f.imm8 0 3).toNat + 1
  let bad := fieldsBad (memUse store false false 7) f || spanBad f || decide (nf = 1)
    || pastEnd f.vd.toNat (nf * spanOf f)
  s.vmem c func f bad (fun s =>
    { store := store
      fields := nf
      reg := fun k => f.vd.toNat + k * spanOf f
      addr := fun i => (List.range nf).map (fun k =>
        s.vbase c f + BitVec.ofNat 64 (esize f.etype.toNat * (nf * i + k))) })

def execVld (c : ClusterId) (f : VFields) (s : State) : Result := .next (s.vunit c 0 f false)
def execVst (c : ClusterId) (f : VFields) (s : State) : Result := .next (s.vunit c 1 f true)
def execVlds (c : ClusterId) (f : VFields) (s : State) : Result := .next (s.vstrided c 2 f false)
def execVsts (c : ClusterId) (f : VFields) (s : State) : Result := .next (s.vstrided c 3 f true)
def execVldx (c : ClusterId) (f : VFields) (s : State) : Result := .next (s.vindexed c 4 f false)
def execVstx (c : ClusterId) (f : VFields) (s : State) : Result := .next (s.vindexed c 5 f true)
def execVldseg (c : ClusterId) (f : VFields) (s : State) : Result := .next (s.vsegment c 6 f false)
def execVstseg (c : ClusterId) (f : VFields) (s : State) : Result := .next (s.vsegment c 7 f true)

/-! ### L1D_FILL and WALK (R310, R330, R272) -/

/-- L1D_FILL: the pending fill of the line in a set and way lands. -/
def execL1dFill (c : ClusterId) (set : BitVec 8) (way : BitVec 2) (s : State) : Result :=
  .next (match (s.cluster c).l1d.find? (fun l => decide (l.set = set ∧ l.way = way)) with
    | some l => s.landFill c l.target
    | none => s)

/-- WALK: a walk of a granted cluster's port completes; a LIVE or MIGRATING entry is installed. What faults is the access the
walk serves, by its own command. -/
def execWalk (c : ClusterId) (port : CachePort) (va : Word) (s : State) : Result :=
  .next (if s.ready && (s.cluster c).job.isSome && decide (storeSize ≤ va.toNat ∧ va.toNat < windowBase) then
    (s.lookup c port (s.aspOf c) va.toNat).2
  else s)

end Sys2Proof.Machine
end

