-- ==== Sys2Proof/Machine/Ranges.lean ====
section
/-! DEFINITION. The table operations on an address space: RANGE_UPDATE, WITHDRAW and MIGRATE (R273-R286, R296-R299). -/
namespace Sys2Proof.Machine

/-- The address space of a stream's job. -/
def State.streamAsp (s : State) (st : StreamId) : Fin 1024 := ((s.job (s.stream st).job).map (·.aspace)).getD 0

/-- Entries a table holds at most (R264). -/
def tableMax : Nat := 4096

/-! ### What is in flight (R276, R282, R298) -/

/-- The entry after which translated bytes of a span lie at a target: does a target lie in a part of it? -/
def targetIn (f : Nat) (e : RangeEntry) (va len : Nat) (t : Target) : Bool :=
  let base := e.target.toNat + (va - e.lo)
  match t with
  | .store _ => false
  | .device pa => decide (e.type = tyDevice) && (decide (base / 64 * 64 ≤ pa) && decide (pa < base + len))
  | .host g i => decide (e.type = tyHost) && (decide (g = f) && (decide (base / 64 * 64 ≤ i) && decide (i < base + len)))
  | .peer d p => decide (e.type = tyPeer) && (decide (d = base / 2 ^ 52) && (decide (base % 2 ^ 48 ≤ p)
      && decide (p < base % 2 ^ 48 + len)))

/-- Drain the store buffer of every cluster that runs a job of an address space. -/
def State.drainSpace (s : State) (a : Fin 1024) : State :=
  allClusters.foldl (fun s c => if s.aspOf c = a ∧ (s.cluster c).job.isSome then s.drainStores c else s) s

/-- Remove the L2 lines of a HOST span (R298 step 4). -/
def State.dropHostLines (s : State) (f : Nat) (iova len : Nat) : State :=
  s.withL2 (s.memory.l2.filter (fun l =>
    !(decide (l.host = some f) && (decide (iova < 64 * l.line + 64) && decide (64 * l.line < iova + len)))))

/-- Remove the L2 lines of a DEVICE span without writing back (R282 step 5): what a dirty line held is lost, and memory has older
bytes there that the spec does not give (free values). -/
def State.dropDeviceLines (s : State) (pa len : Nat) : State :=
  let hit (l : L2Line) : Bool := l.host.isNone && (decide (pa < 64 * l.line + 64) && decide (64 * l.line < pa + len))
  let lost := s.memory.l2.filter (fun l => hit l && l.dirty)
  let s1 := lost.foldl (fun s l =>
    ({ s with free := s.free + 1 } : State).withMem
      (Mem.writeBytes s.memory.mem (64 * l.line) ((List.range 64).map (fun i => Config.freeByte s.free i)))) s
  s1.withL2 (s1.memory.l2.filter (fun l => !hit l))

/-! ### Splitting an entry (R282 step 1) -/

/-- A part of an entry with a state. -/
def RangeEntry.part (e : RangeEntry) (lo hi : Nat) (state : BitVec 2) : RangeEntry :=
  { e with
    vbase := BitVec.ofNat 64 lo
    length := BitVec.ofNat 64 (hi - lo)
    target := e.target + BitVec.ofNat 64 (lo - e.lo)
    cntIndex := if e.counted then e.cntIndex + BitVec.ofNat 24 ((lo - e.lo) / e.granule) else e.cntIndex
    state := state }

/-- An entry split about a span: the outer parts keep their state. -/
def RangeEntry.split (e : RangeEntry) (va len : Nat) (state : BitVec 2) : List RangeEntry :=
  (if e.lo < va then [e.part e.lo va e.state] else []) ++ [e.part va (va + len) state]
    ++ (if va + len < e.hi then [e.part (va + len) e.hi e.state] else [])

/-- Does a split about a span find room in a table? -/
def splitFits (n : Nat) (e : RangeEntry) (va len : Nat) : Bool :=
  decide (n + bit (decide (e.lo < va)) + bit (decide (va + len < e.hi)) ≤ tableMax)

/-- Split the entry of a space that holds a span. -/
def State.splitEntry (s : State) (a : Fin 1024) (e : RangeEntry) (va len : Nat) (state : BitVec 2) : State :=
  s.setEntries a ((s.space a).entries.flatMap (fun x => if x.lo = e.lo then x.split va len state else [x]))

/-! ### RANGE_UPDATE (R274-R276) -/

/-- Does a span meet an entry that is MIGRATING? A RANGE_UPDATE or WITHDRAW of it waits until the MIGRATE completes (R285). -/
def State.meetsMigrating (s : State) (a : Fin 1024) (va len : Nat) : Bool :=
  (s.space a).entries.any (fun e => decide (e.state = esMigrating) && spansMeet e.lo e.len va len)

/-- The entry image of a RANGE_UPDATE. -/
def Desc.entryBits (d : Desc) : BitVec 256 := fieldAt d.bits 32 0 256

/-- The span a RANGE_UPDATE names. -/
def Desc.updateSpan (d : Desc) : Nat × Nat :=
  let e := RangeEntry.ofBits d.entryBits
  (e.lo, if d.num 16 0 8 = 2 then 1 else max e.len 1)

/-- A table operation (R277): it begins, behind those of its space that have begun, and `f` performs it in its turn, once it meets no
entry that is MIGRATING; until then it waits, begun. The command that begins it, or one more, performs it: DESIGN CHOICE (log entry
133). -/
def State.tableOp (s : State) (st : StreamId) (idx : W32) (op : Nat) (span : Desc → Option (Nat × Nat))
    (f : Fin 1024 → Desc → State → State) : State :=
  let o := (st, idx)
  (s.beginChecked st idx op (fun _ s => s.opAdd (s.streamAsp st) o)).continuing st idx op (fun d s =>
    let a := s.streamAsp st
    let waits := match span d with
      | some (va, len) => s.meetsMigrating a va len
      | none => false
    if d.stage = 0 ∧ (s.space a).ops.head? = some o ∧ waits = false then f a d (s.opEnd a o) else s)

/-- A RANGE_UPDATE of an OP in its turn. -/
def State.beginUpdate (s : State) (st : StreamId) (idx : W32) (op : Nat) (f : Fin 1024 → Desc → RangeEntry → State → State) :
    State :=
  if ((s.desc st idx).map (fun d => d.num 16 0 8)) = some op then
    s.tableOp st idx opRangeUpdate (fun d => some d.updateSpan) (fun a d s => f a d (RangeEntry.ofBits d.entryBits) s)
  else s

/-- A table operation stays under way past its first step; `v` is what it goes on with. -/
def State.opRuns (s : State) (a : Fin 1024) (st : StreamId) (idx : W32) (v : Word) : State :=
  (s.opHold a (st, idx)).modDesc st idx (fun d => { d with stage := 1, aux0 := v })

/-- Entries of a space but the one at `vbase` that overlap a span. -/
def Space.overlaps (sp : Space) (vbase : Nat) (e : RangeEntry) : Bool :=
  sp.entries.any (fun x => decide (x.lo ≠ vbase) && spansMeet x.lo x.len e.lo e.len)

/-- INSERT (R275, R276). -/
def execInsert (st : StreamId) (idx : W32) (s : State) : Result :=
  .next (s.beginUpdate st idx 0 (fun a d e s =>
    let sp := s.space a
    let bad := firstBad (offsetBy 32 (s.entryChecks sp.cntSize d.entryBits)
      ++ [(32, sp.entries.any (fun x => spansMeet x.lo x.len e.lo e.len)), (0, decide (tableMax ≤ sp.entries.length))])
    match bad with
    | some b => s.badDescriptor st idx b
    | none =>
      let (g, s1) := s.nextGen a
      ((s1.setEntries a (insertEntry { e with gen := g, state := esLive } (s1.space a).entries)).flushRanges a).finish st idx
        stDone 0))

/-- Does a MODIFY take something from an entry (R276)? -/
def RangeEntry.retargets (old new : RangeEntry) : Bool := decide (new.type ≠ old.type) || decide (new.target ≠ old.target)
def RangeEntry.removes (old new : RangeEntry) : Bool := (old.r && !new.r) || (old.w && !new.w) || (old.a && !new.a)
def RangeEntry.narrows (old new : RangeEntry) : Bool :=
  old.removes new || old.retargets new || (old.cacheable && !new.cacheable) || (old.sealedR && !new.sealedR)

/-- What R275 rejects of a MODIFY of an entry. -/
def State.modifyChecks (s : State) (a : Fin 1024) (d : Desc) (old new : RangeEntry) : List (Nat × Bool) :=
  let sp := s.space a
  offsetBy 32 (s.entryChecks sp.cntSize d.entryBits)
    ++ [(40, decide (new.len < old.len)), (32, sp.overlaps old.lo new),
        (48, old.pinned && decide (new.target ≠ old.target)),
        (58, old.pinned && (decide (new.type ≠ old.type) || old.removes new)), (59, old.pinned && !new.pinned)]

/-- MODIFY (R275, R276). -/
def execModify (st : StreamId) (idx : W32) (s : State) : Result :=
  .next (s.beginUpdate st idx 1 (fun a d e s =>
    match (s.space a).entries.find? (fun x => decide (x.lo = e.lo)) with
    | none => s.badDescriptor st idx 32
    | some old =>
      match firstBad (s.modifyChecks a d old e) with
      | some b => s.badDescriptor st idx b
      | none =>
        let (g, s1) := s.nextGen a
        let new : RangeEntry := { e with gen := g, state := old.state }
        let s2 := s1.setEntries a ((s1.space a).entries.map (fun x => if x.lo = old.lo then new else x))
        let s3 := if new.counted ∧ (new.gran ≠ old.gran ∨ new.cntIndex ≠ old.cntIndex) then s2.clearCounters a new else s2
        let s4 := s3.flushRanges a
        if old.narrows new then
          let s5 := s4.drainSpace a
          let s6 := if old.retargets new || (old.cacheable && !new.cacheable) then
            s5.quiesceSpan a (fun l => decide (l.aspace = a.val) && decide (l.gen = old.gen)) else s5
          s6.opRuns a st idx (old.gen.setWidth 64)
        else s4.finish st idx stDone 0))

/-- MODIFY_DRAIN_DONE: every transaction of the old GEN in the entry's span has completed. -/
def execModifyDrainDone (st : StreamId) (idx : W32) (s : State) : Result :=
  .next (s.continuing st idx opRangeUpdate (fun d s =>
    let a := s.streamAsp st
    let (va, len) := d.updateSpan
    if d.stage = 0 ∨ s.openIn a (bitsAt d.aux0 0 16) va len then s
    else (s.opEnd a (st, idx)).finish st idx stDone 0))

/-- CLEAR_COUNTS (R275, R276). -/
def execClearCounts (st : StreamId) (idx : W32) (s : State) : Result :=
  .next (s.beginUpdate st idx 2 (fun a _ e s =>
    match (s.space a).entries.find? (fun x => decide (x.lo = e.lo) && x.counted) with
    | none => s.badDescriptor st idx 32
    | some x => (s.clearCounters a x).finish st idx stDone 0))

/-! ### WITHDRAW (R296-R298) -/

/-- The entry that holds a span wholly. -/
def Space.holding (sp : Space) (va len : Nat) : Option RangeEntry :=
  sp.entries.find? (fun e => decide (e.lo ≤ va) && (decide (va + len ≤ e.hi) && decide (0 < len)))

/-- Is a span made of whole granules of a counted entry? -/
def RangeEntry.wholeGranules (e : RangeEntry) (va len : Nat) : Bool :=
  decide ((va - e.lo) % e.granule = 0) && decide (len % e.granule = 0)

/-- Does a span overlap the save area of a job of an address space? -/
def State.meetsSave (s : State) (a : Fin 1024) (va len : Nat) : Bool :=
  s.jobIds.any (fun j => match s.job j with
    | some x => decide (x.aspace = a) && spansMeet va len x.saveVa.toNat ((imageSize + snapshotSize) * x.maxCl.toNat)
    | none => false)

/-- The checks of R297. -/
def State.withdrawChecks (s : State) (a : Fin 1024) (va len : Nat) : List (Nat × Bool) :=
  let sp := s.space a
  [(24, decide (len = 0) || decide (len % 4096 ≠ 0)),
   (16, match sp.holding va (max len 1) with
     | none => true
     | some e => (e.counted && !e.wholeGranules va len) || !splitFits sp.entries.length e va len
         || (e.pinned && s.meetsSave a va len))]

/-- WITHDRAW: the span's entry turns WITHDRAWING, nothing new reaches it, and the movers that are about to stop (steps 1 to 3). -/
def execWithdraw (st : StreamId) (idx : W32) (s : State) : Result :=
  .next (s.tableOp st idx opWithdraw (fun d => some (d.num 16 0 64, max (d.num 24 0 64) 1)) (fun a d s =>
    let va := d.num 16 0 64
    let len := d.num 24 0 64
    match firstBad (s.withdrawChecks a va len), (s.space a).holding va len with
    | some b, _ => s.badDescriptor st idx b
    | none, none => s.badDescriptor st idx 16
    | none, some e =>
      let s1 := ((s.splitEntry a e va len esWithdrawing).flushRanges a).opRuns a st idx (e.gen.setWidth 64)
      allClusters.foldl (fun s c => if s.aspOf c = a ∧ (s.cluster c).job.isSome then s.withdrawMover c va len else s) s1))

/-- WITHDRAW_REMOVE: what was in flight has completed, the span's lines are cleaned, and the entry is removed. -/
def execWithdrawRemove (st : StreamId) (idx : W32) (s : State) : Result :=
  .next (s.continuing st idx opWithdraw (fun d s =>
    let a := s.streamAsp st
    let va := d.num 16 0 64
    let len := d.num 24 0 64
    let s1 := s.drainSpace a
    if d.stage = 0 ∨ s1.openIn a (bitsAt d.aux0 0 16) va len then s1
    else
      match (s1.space a).entries.find? (fun e => decide (e.lo = va) && decide (e.state = esWithdrawing)) with
      | none => (s1.opEnd a (st, idx)).finish st idx stDone 0
      | some e =>
        let f := (s1.space a).function.val
        let s2 := s1.quiesceSpan a (fun l => targetIn f e va len l.target)
        let s3 := if e.type = tyHost then s2.dropHostLines f e.target.toNat len else s2
        ((s3.setEntries a ((s3.space a).entries.filter (fun x => decide (x.lo ≠ va)))).opEnd a (st, idx)).finish st idx
          stDone 0))

/-! ### MIGRATE (R280-R286) -/

/-- The entry of a MIGRATE's span with its new target. -/
def Desc.migrated (d : Desc) (e : RangeEntry) : RangeEntry :=
  { e with type := fieldAt d.bits 40 0 2, target := d.word 32 }

/-- Where a failing check of an entry image lies in a MIGRATE (R280, R479). -/
def migrateOffset (b : Nat) : Nat := if 16 ≤ b ∧ b < 24 then b + 16 else if b < 16 then 24 else 40

/-- The checks of R281. -/
def State.migrateChecks (s : State) (a : Fin 1024) (d : Desc) : List (Nat × Bool) :=
  let sp := s.space a
  let va := d.num 16 0 64
  let len := d.num 24 0 64
  match sp.holding va len with
  | none => [(16, true)]
  | some e =>
    let whole := decide (va = e.lo) && decide (len = e.len)
    [(16, decide (e.state ≠ esLive) || e.pinned || !(whole || (e.counted && e.wholeGranules va len))
        || !splitFits sp.entries.length e va len)]
      ++ ((s.entryChecks sp.cntSize (d.migrated (e.part va (va + len) esLive)).bits).map
        (fun c => (migrateOffset c.1, c.2)))

/-- MIGRATE: the span's entry turns MIGRATING, and the caches let go of it. -/
def execMigrate (st : StreamId) (idx : W32) (s : State) : Result :=
  .next (s.tableOp st idx opMigrate (fun _ => none) (fun a d s =>
    let va := d.num 16 0 64
    let len := d.num 24 0 64
    match firstBad (s.migrateChecks a d), (s.space a).holding va len with
    | some b, _ => s.badDescriptor st idx b
    | none, none => s.badDescriptor st idx 16
    | none, some e =>
      let s1 := ((s.splitEntry a e va len esMigrating).flushRanges a).modDesc st idx (fun x => { x with stage := 1 })
      s1.quiesceSpan a (fun l => targetIn (s1.space a).function.val e va len l.target)))

/-- A failure of a copy: the cause record, and the job fails, which reverts the entry (R286). It goes no further meanwhile. No cluster is
charged for a seal mismatch (R340). -/
def State.copyFails (s : State) (st : StreamId) (idx : W32) (g : MGot) : State :=
  (s.modDesc st idx (fun d => { d with stage := 2 })).jobStops st (some idx) g

/-- Carry poison along when both targets are device memory and no seal is in force (R345). -/
def State.copyPoison (s : State) (src dst n : Nat) : State :=
  (linesOf src n).foldl (fun s l => if s.poisoned l then s.poisonLine (l - src / 64 + dst / 64) else s) s

/-- Do a segment's bytes go from device memory to device memory unsealed, poison with them? -/
def copyPasses (src dst : Target) (sealedR : Bool) : Bool :=
  match src, dst with
  | .device _, .device _ => !sealedR
  | _, _ => false

/-- Read the segment of a MIGRATE at its old target. -/
def State.migrateRead (s : State) (a : Fin 1024) (w : Work) (va : Nat) (e : RangeEntry) (src : Target) (passes : Bool) : MGot × State :=
  match src, passes with
  | .device pa, true =>
    match s.fencedUnit pa with
    | some (k, u) => (.fenced k u, s)
    | none => (.bytes (s.readMem pa blockSize), s)
  | .peer dev pa, _ =>
    match s.peerBytes 0 w va blockSize e.sealedR with
    | some g => (g, s)
    | none => (.remote dev pa e.sealedR, s)
  | t, _ => s.moverReadAt 0 a va t (some e) blockSize none

/-- Write the segment at its new target. -/
def State.migrateWrite (s : State) (a : Fin 1024) (w : Work) (va : Nat) (e : RangeEntry) (dst : Target) (b : List Byte) :
    Option MGot × State :=
  match dst with
  | .peer dev pa =>
    match s.peerPut 0 w va dev pa e.sealedR b va (va + blockSize) 0 with
    | (g, _, s1) => (g, s1)
  | t =>
    match s.moverWriteAt 0 a va t (some e) b va (va + blockSize) 0 with
    | (g, _, s1) => (g, s1)

/-- Copy one 4 KiB segment of a MIGRATE, neither counted nor translated. -/
def State.migrateStep (s : State) (st : StreamId) (d : Desc) : State :=
  let a := s.streamAsp st
  let va := d.num 16 0 64 + d.progress
  let w : Work := some (st, d.idx)
  match (s.space a).entries.find? (fun e => decide (e.lo = d.num 16 0 64) && decide (e.state = esMigrating)) with
  | none => s
  | some e0 =>
    let e : RangeEntry := { e0 with counted := false }
    let n := { d.migrated e with counted := false }
    let src := s.targetOf a e va
    let dst := s.targetOf a n va
    match s.migrateRead a w va e src (copyPasses src dst e.sealedR) with
    | (.remote dev pa sl, s1) =>
      if (s1.requestPort .mover 0 (BitVec.ofNat 12 dev)).isNone then s1.copyFails st d.idx (.remote dev pa sl)
      else s1.askReads 32 0 w (BitVec.ofNat 12 dev) pa va blockSize sl
    | (.bytes b, s1) =>
      match s1.migrateWrite a w va n dst b with
      | (some g, s2) => s2.copyFails st d.idx g
      | (none, s2) =>
        let s3 := match src, dst, copyPasses src dst e.sealedR with
          | .device p, .device q, true => s2.copyPoison p q blockSize
          | _, _, _ => s2
        let s4 := (s3.dropAnswers 0 w).modDesc st d.idx (fun x => { x with progress := d.progress + blockSize, late := [] })
        d.late.foldl (fun s x => s.mirror a x.1 x.2) s4
    | (g, s1) => s1.copyFails st d.idx g

/-- MIGRATE_COPY_SEGMENT. Buffered stores to the segment reach the old target first, so the copy carries them. -/
def execMigrateCopySegment (st : StreamId) (idx : W32) (s : State) : Result :=
  .next (s.continuing st idx opMigrate (fun d s =>
    if d.stage = 1 ∧ d.progress < d.num 24 0 64 ∧ s.awaitsRead 0 (some (st, idx)) = false
        ∧ ((s.job (s.stream st).job).map (·.phase.runs)) = some true then s.migrateStep st d else s))

/-- MIGRATE_SWAP: the old transactions are drained, mirror writes among them, and the entry takes the new target. -/
def execMigrateSwap (st : StreamId) (idx : W32) (s : State) : Result :=
  .next (s.continuing st idx opMigrate (fun d s =>
    let a := s.streamAsp st
    let va := d.num 16 0 64
    let len := d.num 24 0 64
    if d.stage ≠ 1 ∨ d.progress < len ∨ s.tableRuns a
        ∨ ((s.job (s.stream st).job).map (·.phase.runs)) ≠ some true then s
    else
      let s1 := s.drainSpace a
      match (s1.space a).entries.find? (fun e => decide (e.lo = va) && decide (e.state = esMigrating)) with
      | none => s1
      | some e =>
        if s1.openIn a e.gen va len then s1
        else
          let (g, s2) := s1.nextGen a
          let new : RangeEntry := { d.migrated e with gen := g, state := esLive }
          let s3 := (s2.setEntries a ((s2.space a).entries.map (fun x => if x.lo = va then new else x))).flushRanges a
          let s4 := if e.type = tyDevice then s3.dropDeviceLines (targetPa e.target) len
            else if e.type = tyHost then s3.dropHostLines (s3.space a).function.val e.target.toNat len else s3
          (s4.clearCounters a new).finish st idx stDone 0))

end Sys2Proof.Machine
end

