-- ==== Sys2Proof/Machine/SetupWrite.lean ====
section
/-! DEFINITION. Writes of the set-up registers (R463-R477), of a VF's BAR0 (R413, R414) and of the MSI-X tables (R415), with the
actions they start: partial resets (R446, R447), L2 way power (R318, R442), job aborts, Talon releases, ports. -/
namespace Sys2Proof.Machine

/-! ### Partial resets (R443-R447) -/

/-- A unit that answers FENCED loses the fills that are outstanding to it, and their jobs fail (R444). -/
def State.fenceFills (s : State) (kind number : Nat) : State :=
  allClusters.foldl (fun s c =>
    let stale (l : L1Line) : Bool := l.pending && (match l.target with
      | .device pa => if kind = ukController then decide (stackOf pa = number) else decide (s.servingQuad (pa / 64) = number)
      | _ => false)
    if (s.cluster c).l1d.any stale then
      (s.modCluster c (fun x => { x with l1d := x.l1d.filter (fun l => !stale l) })).fencedFor c kind number
    else s) s

/-- What the start of a unit's reset does at once: a port's packets go another way (R396) and its link controller is cleared; a
quadrant writes back and drops every line; requests to a controller or quadrant fail. -/
def State.resetBegins (s : State) (kind number : Nat) : State :=
  if kind = ukPort then
    let p : PortId := ⟨number % 8, by omega⟩
    let s1 := if (s.port p).carries ∨ (s.port p).lstate = 5 then (s.modPort p (fun x => { x with train := .none })).setLink p 1 else s
    let s2 := s1.reinject p
    s2.modPort p (fun x => { Port.reset with
      lstate := x.lstate
      cable := x.cable
      nextSeq := x.nextSeq
      expected := x.expected
      powered := x.powered })
  else if kind = ukController then s.fenceFills kind number
  else if kind = ukQuadrant then
    (s.withL2 (s.memory.l2.filter (fun l => decide (s.servingQuad l.line ≠ number)))).fenceFills kind number
  else s

/-- A reset is requested: it begins now, or waits out the 1 µs since the unit's last one (R447). -/
def State.resetUnit (s : State) (kind number : Nat) : State :=
  let s1 := s.startReset kind number
  if (s1.unit kind number).inReset ∧ (s1.unit kind number).epoch ≠ (s.unit kind number).epoch then s1.resetBegins kind number
  else s1

/-- What the end of a unit's reset leaves (R446). What the drain of R140 has not discarded is drained and the L1D is written back before
a cluster's state goes; masters held in Talon keep theirs (R306). -/
def State.resetEnds (s : State) (kind number : Nat) : State :=
  if kind = ukCluster then
    let c := ClusterId.ofNat' number
    let s1 := (s.drainStores c).cleanL1 c true
    s1.modCluster c (fun x => { Cluster.reset with
      k := if s.frozen .kestrel c.val then x.k else Kestrel.reset
      h := if s.frozen .harrier c.val then x.h else Harrier.reset
      m := if s.frozen .hearth c.val then x.m else Hearth.reset
      queue := if s.frozen .mover c.val then x.queue else []
      moverCache := if s.frozen .mover c.val then x.moverCache else []
      powered := x.powered })
  else if kind = ukMover then s.modCluster (ClusterId.ofNat' number) (fun x => { x with queue := [], moverCache := [] })
  else if kind = ukPort then s.train ⟨number % 8, by omega⟩ false
  else s

/-- UNIT_RESET_DONE: requests held for the unit are reissued with its new epoch (R445). -/
def execUnitResetDone (kind number : Byte) (s : State) : Result :=
  let k := kind.toNat
  let n := number.toNat
  let dead := decide (k = ukCluster) && !s.isLive (ClusterId.ofNat' n)
  .next (if (s.unit k n).inReset ∧ dead = false ∧ unitExists k n then
    ((s.setUnit k n { s.unit k n with inReset := false }).resetEnds k n).reissueBar2
  else s)

/-- RESET_HOLD_END (R447): the request that waited begins. -/
def execResetHoldEnd (kind number : Byte) (s : State) : Result :=
  let u := s.unit kind.toNat number.toNat
  .next (if u.again ∧ u.inReset = false then
    (s.bumpEpoch kind.toNat number.toNat true).resetBegins kind.toNat number.toNat
  else s)

/-- STORE_DRAIN_LIMIT (R140): 2 µs into a warm cluster reset the entries left are discarded and logged. -/
def execStoreDrainLimit (c : ClusterId) (s : State) : Result :=
  let x := s.cluster c
  .next (if (s.unit ukCluster c.val).inReset ∧ x.storeBuf ≠ [] then
    (s.logDiscard c x.storeBuf).modCluster c (fun x => { x with storeBuf := [] })
  else s)

/-! ### L2 way power (R318, R442) -/

/-- The ways requested on. -/
def State.wayOn (s : State) (q : QuadId) : BitVec 16 := bitsAt (s.reg (0x20100 + 16 * q.val)) 0 16

/-- A WAYON write: an ON way whose bit is cleared starts cleaning; setting a bit powers the way up in its own time. -/
def State.writeWayOn (s : State) (q : QuadId) (v : W32) : State :=
  let x := s.quad q
  let want : BitVec 16 := bitsAt v 0 16
  (s.setReg (0x20100 + 16 * q.val) v).setQuad q { x with cleaning := x.cleaning ||| (x.on &&& ~~~ want) }

/-- WAY_OFF: the clean has passed every set; a dirty line goes back to memory, which already holds its content at the point of
coherence. -/
def execWayOff (q : QuadId) (way : Fin 16) (s : State) : Result :=
  let x := s.quad q
  let b : BitVec 16 := 1#16 <<< way.val
  .next (if x.cleaning.getLsbD way.val then
    (s.withL2 (s.memory.l2.filter (fun l => !(decide (lineQuad l.line = q) && decide (l.way = way.val))))).setQuad q
      { x with cleaning := x.cleaning &&& ~~~ b, on := x.on &&& ~~~ b }
  else s)

/-- WAY_POWER_UP: an OFF way whose bit is set, in a quadrant with power, turns ON empty. -/
def execWayPowerUp (q : QuadId) (way : Fin 16) (s : State) : Result :=
  let x := s.quad q
  .next (if (s.wayOn q).getLsbD way.val ∧ x.on.getLsbD way.val = false ∧ x.off = false then
    s.setQuad q { x with on := x.on ||| (1#16 <<< way.val) }
  else s)

/-- A PWR_L2Q_OFF write: a quadrant newly requested goes off at once, its ways being OFF, and its epoch increments; a cleared bit
brings the quadrant back. -/
def State.writeQuadOff (s : State) (v : W32) : State :=
  (List.range 4).foldl (fun s i =>
    let q := QuadId.ofNat' i
    let x := s.quad q
    if v.getLsbD i ∧ x.off = false then (s.setQuad q { x with off := true }).bumpEpoch ukQuadrant i false
    else if v.getLsbD i = false ∧ x.off then s.setQuad q { x with off := false }
    else s) (s.setReg 0x20030 v)

/-! ### Performing a write -/

/-- A register keeps the writable bits of a write. -/
def State.storeFields (s : State) (off : Nat) (v : W32) : State :=
  match fields off with
  | some (rw, _) => s.setReg off ((s.reg off &&& ~~~ BitVec.ofNat 32 rw) ||| (v &&& BitVec.ofNat 32 rw))
  | none => s

/-- A CFG write: 0 to 1 starts the record count at 0 (R85, R471), 1 to 0 discards the unsignalled state (R90). The cached head starts at 0
too: DESIGN CHOICE (log entry 123). -/
def State.writeCfg (s : State) (r : RingId) (v : W32) : State :=
  if v.getLsbD 31 ∧ s.ringEnabled r = false then (s.setReg (ringCfgOff r) v).setRing r Ring.reset
  else if v.getLsbD 31 = false ∧ s.ringEnabled r then (s.disableRing r).setReg (ringCfgOff r) v
  else s.setReg (ringCfgOff r) v

/-- GEN_FAB_GRP_CFG and ANCHOR act on the selected job number (R389). -/
def State.writeGroup (s : State) (off : Nat) (v : W32) : State :=
  let j := (bitsAt (s.reg 0x400) 0 8).toNat
  let a := Table.get 0 s.sched.groupAnchor j
  let a' := putBits a (if off = 0x408 then 0 else 32) v
  if off = 0x404 then { s with sched := { s.sched with groupEnable := Table.set s.sched.groupEnable j (v.getLsbD 0) } }
  else { s with sched := { s.sched with groupAnchor := Table.set s.sched.groupAnchor j a' } }

/-- EVL_CTL: its fields are kept, RETRAIN trains (R376), clearing ENABLE takes the port out of service. -/
def State.writeEvlCtl (s : State) (p : PortId) (v : W32) : State :=
  let s1 := s.storeFields (evlBase p) (v &&& 0xFFFFFFFD)
  if s.evlEnabled p ∧ v.getLsbD 0 = false then s1.disablePort p
  else if v.getLsbD 1 ∧ (s1.unit ukPort p.val).inReset = false then s1.retrainPort p
  else s1

/-- Perform a checked write of one register. STREAM_LOAD with GO has its own command, which carries the entry read. -/
def State.perform (s : State) (off : Nat) (v : W32) : State :=
  if off = 0x404 ∨ off = 0x408 ∨ off = 0x40C then s.writeGroup off v
  else if off = 0x20030 then s.writeQuadOff v
  else if off = 0x20040 then
    if v.getLsbD 31 then s.resetUnit (bitsAt v 0 8).toNat (bitsAt v 8 8).toNat else s
  else if inRun off 0x20100 16 4 then s.writeWayOn (QuadId.ofNat' ((off - 0x20100) / 16)) v
  else if inRun off 0x30010 4 9 then
    let k := (off - 0x30010) / 4
    { s with host := { s.host with ringErr := s.host.ringErr &&& ~~~ (v.setWidth 288 <<< (32 * k)) } }
  else if off = 0x40018 then s
  else if off = 0x40038 then
    if v.getLsbD 31 then s.requestAbort (JobId.ofNat' (bitsAt v 0 8).toNat) else s
  else if off = 0x40048 ∨ off = 0x40058 ∨ inRun off 0x41008 16 256 then
    match ringAt (off - stbBase) with
    | some r => s.writeCfg r v
    | none => s
  else if off = 0x50024 then if v.getLsbD 0 then s.aspLoad else s
  else if off = 0x6001C then
    if v.getLsbD 31 then
      { s with integ := { s.integ with retired := s.integ.retired &&& ~~~ (1#48 <<< (bitsAt v 0 6).toNat) } }
    else s
  else if off = 0x60108 then
    match s.talonOf (bitsAt v 0 8).toNat (bitsAt v 8 8).toNat with
    | some f => if v.getLsbD 31 then s.unfreeze f.kind f.number.toNat else s
    | none => s
  else if 0x100000 ≤ off ∧ off < 0x180000 ∧ off % 0x10000 = 0 then s.writeEvlCtl (evlPort off) v
  else if 0x100000 ≤ off ∧ off < 0x180000 ∧ off % 0x10000 = 0x3C then
    if v.getLsbD 0 then s.drainPort (evlPort off) else s
  else s.storeFields off v

/-- Why one 4-byte half of a write is discarded, if it is (R463, R464, R467); `t` is the state with the whole write's fields set. The
order among the reasons of one half is DEDUCED (log entry 58). -/
def State.refuses (s t : State) (off : Nat) (v : W32) : Option Nat :=
  if s.stateRefuses off then some whyDevice
  else
    match fields off with
    | none => some whyUnassigned
    | some (rw, ro) =>
      if rw = 0 then some whyReadOnly
      else if v &&& ~~~ BitVec.ofNat 32 (rw ||| ro) ≠ 0 then some whyBit
      else if s.badValue t off v then some whyValue
      else if s.badState off v then some whyState
      else none

/-! ### The MSI-X tables (R415) -/

/-- One half of a table entry: address, data, or the Mask bit; unmasking a pending vector sends its message (R90). -/
def State.msixHalf (s : State) (f : FunctionId) (o : Nat) (v : W32) : State :=
  let n := o / 16
  let m := s.msix f.val n
  if o % 16 = 0 then s.setMsix f.val n { m with addr := putBits m.addr 0 v }
  else if o % 16 = 4 then s.setMsix f.val n { m with addr := putBits m.addr 32 v }
  else if o % 16 = 8 then s.setMsix f.val n { m with data := v }
  else
    let mask := v.getLsbD 0
    if m.pending ∧ mask = false then (s.setMsix f.val n { m with masked := false, pending := false }).sendMsix f.val n
    else s.setMsix f.val n { m with masked := mask }

/-- A 4-byte or 8-byte write of a table. -/
def State.msixWrite (s : State) (f : FunctionId) (o size : Nat) (data : Word) : State :=
  let s1 := s.msixHalf f o (bitsAt data 0 32)
  if size = 8 then s1.msixHalf f (o + 4) (bitsAt data 32 32) else s1

/-! ### BAR0 writes -/

/-- A naturally aligned 4-byte or 8-byte access (R410). -/
def bar0Aligned (off size : Nat) : Bool := decide ((size = 4 ∨ size = 8) ∧ off % size = 0)

/-- A PF write to BAR0: checked as a whole, then performed, or discarded with one entry (R463, R464). -/
def State.setupWrite (s : State) (off size : Nat) (data : Word) : State :=
  let lo : W32 := bitsAt data 0 32
  let hi : W32 := bitsAt data 32 32
  let kept : Word := if size = 8 then data else lo.setWidth 64
  if s.hostAnswers = false then s
  else if bar0Aligned off size = false then s.unsupported 0
  else if inMsixTable off then
    if s.stateRefuses off then s.setupErr whyDevice 0 off kept else s.msixWrite 0 (off - 0x34000) size data
  else
    let t := if size = 8 then (s.storeFields off lo).storeFields (off + 4) hi else s.storeFields off lo
    match s.refuses t off lo, if size = 8 then s.refuses t (off + 4) hi else none with
    | some why, _ => s.setupErr why 0 off kept
    | none, some why => s.setupErr why 0 off kept
    | none, none => if size = 8 then (s.perform off lo).perform (off + 4) hi else s.perform off lo

/-- Offsets that VF BAR0 lists (R413). -/
def vfListed (off : Nat) : Bool :=
  decide (off = 0 ∨ off = 4 ∨ off = 8 ∨ (0x8000 ≤ off ∧ off < 0x8400) ∨ (0xC000 ≤ off ∧ off < 0xC008))

/-- A write to a VF's BAR0 (R413, R414): what is not granted holds the VF in Talon; the read-only registers discard it. -/
def State.vfWrite (s : State) (f : FunctionId) (off size : Nat) (data : Word) : State :=
  let kept : Word := if size = 8 then data else (bitsAt data 0 32).setWidth 64
  if s.hostAnswers = false ∨ s.card.device = .recovery then s
  else if s.frozen .vf f.val then s.unsupported f
  else if s.card.device = .failed then s.setupErr whyDevice f.val off kept
  else if bar0Aligned off size = false ∨ vfListed off = false ∨ (size = 8 ∧ vfListed (off + 4) = false) then s.freezeVf f
  else if 0x8000 ≤ off ∧ off < 0x8400 then s.msixWrite f (off - 0x8000) size data
  else if off = 4 then
    if bitsAt data 0 32 &&& ~~~ 0x10FFF#32 ≠ 0 then s.setupErr whyBit f.val off kept else s
  else s.setupErr whyReadOnly f.val off kept

/-- SETUP_REGISTER_WRITE (R463). -/
def execSetupRegisterWrite (f : FunctionId) (off : BitVec 26) (size : Nat) (data : Word) (s : State) : Result :=
  .next (if f = 0 then s.setupWrite off.toNat size data else s.vfWrite f off.toNat size data)

/-! ### Writes that have their own command -/

/-- STB_JOB_ABORT (R42). -/
def execStbJobAbort (data : W32) (s : State) : Result := .next (s.setupWrite 0x40038 4 (data.setWidth 64))
/-- RING_ENABLE (R471): a CFG write with ENABLE = 1. -/
def execRingEnable (r : RingId) (data : W32) (s : State) : Result :=
  .next (if data.getLsbD 31 then s.setupWrite (ringCfgOff r) 4 (data.setWidth 64) else s)
/-- RING_DISABLE (R90): a CFG write with ENABLE = 0. -/
def execRingDisable (r : RingId) (data : W32) (s : State) : Result :=
  .next (if data.getLsbD 31 then s else s.setupWrite (ringCfgOff r) 4 (data.setWidth 64))
/-- ASP_LOAD (R265). -/
def execAspLoad (data : W32) (s : State) : Result := .next (s.setupWrite 0x50024 4 (data.setWidth 64))
/-- ERR_UNFREEZE (R305). -/
def execErrUnfreeze (data : W32) (s : State) : Result := .next (s.setupWrite 0x60108 4 (data.setWidth 64))
/-- ERR_RETIRE_CLEAR (R349). -/
def execErrRetireClear (data : W32) (s : State) : Result := .next (s.setupWrite 0x6001C 4 (data.setWidth 64))
/-- PWR_UNIT_RESET (R446). -/
def execPwrUnitReset (data : W32) (s : State) : Result := .next (s.setupWrite 0x20040 4 (data.setWidth 64))
/-- PWR_L2Q_WAYON (R318). -/
def execPwrL2qWayon (q : QuadId) (data : W32) (s : State) : Result :=
  .next (s.setupWrite (0x20100 + 16 * q.val) 4 (data.setWidth 64))
/-- PWR_L2Q_OFF (R442). -/
def execPwrL2qOff (data : W32) (s : State) : Result := .next (s.setupWrite 0x20030 4 (data.setWidth 64))
/-- RETRAIN (R373): a write of EVL_CTL. -/
def execRetrain (p : PortId) (data : W32) (s : State) : Result := .next (s.setupWrite (evlBase p) 4 (data.setWidth 64))
/-- EVL_DRAIN (R397). -/
def execEvlDrain (p : PortId) (data : W32) (s : State) : Result :=
  .next (s.setupWrite (evlBase p + 0x3C) 4 (data.setWidth 64))
/-- HIF_RING_ERR_CLEAR (R418). -/
def execHifRingErrClear (k : Fin 9) (data : W32) (s : State) : Result :=
  .next (s.setupWrite (0x30010 + 4 * k.val) 4 (data.setWidth 64))

/-! ### Stream loads (R53, R64-R66, R413) -/

/-- Do the timing fields of a periodic stream's entry obey R53 (R66)? -/
def entryTimes (e : Line) : Bool :=
  let period := (fieldAt e 16 0 32).toNat
  if flagAt e 10 4 then
    decide (2000 ≤ period ∧ period ≤ 2000000000) && decide ((fieldAt e 20 0 32).toNat < period)
  else true

/-- The reserved fields of an entry are zero (R65). -/
def entryReserved (e : Line) : Bool :=
  decide (fieldAt e 0 0 12 = 0 ∧ fieldAt e 10 6 2 = 0 ∧ fieldAt e 11 5 3 = 0 ∧ fieldAt e 13 0 24 = 0
    ∧ fieldAt e 36 0 224 = 0)

/-- May an entry with ENABLE = 1 be loaded (R66)? -/
def State.entryLoadable (s : State) (e : Line) : Bool :=
  let size := (fieldAt e 8 0 8).toNat
  let r := cring (JobId.ofNat' (fieldAt e 12 0 8).toNat)
  entryReserved e && (decide (4 ≤ size ∧ size ≤ 16) && (entryTimes e
    && (s.ringEnabled r && decide (s.ringFunction r = (fieldAt e 11 0 5).toNat))))

/-- The period that is open at the tick of a load on a job whose periods run, if one has begun (R53). -/
def State.openPeriod (s : State) (j : JobId) (period phase : Nat) : Option W32 :=
  match (s.job j).bind (·.base) with
  | none => none
  | some b =>
    let first := b.toNat + (phase + period - b.toNat % period) % period
    if period = 0 ∨ s.tick.toNat < first then none else some (BitVec.ofNat 32 ((s.tick.toNat - first) / period))

/-- A stream as an enabling load leaves it: IDLE, read index and PRODUCER at START_INDEX, no SEQ acted on, the SEQ of the previous poll
taken as zero (R66, R71). Descriptors of a re-armed stream that still run keep their records (R44), and make it ACTIVE again by R43.
The place in the periods goes on where it stood: DEDUCED (log entry 55). -/
def State.loadedStream (s : State) (x : Stream) (e : Line) : Stream :=
  let j := JobId.ofNat' (fieldAt e 9 0 8).toNat
  let start : W32 := fieldAt e 32 0 32
  let same := x.enabled && decide (x.job = j)
  let period : W32 := fieldAt e 16 0 32
  let periodic := flagAt e 10 4
  let now := if periodic then s.openPeriod j period.toNat (fieldAt e 20 0 32).toNat else none
  { Stream.reset with
    enabled := true
    ringBase := fieldAt e 0 0 64
    log2Size := fieldAt e 8 0 8
    job := j
    prio := fieldAt e 10 0 3
    urgent := flagAt e 10 3
    periodic := periodic
    function := (fieldAt e 11 0 5).toFin
    cring := JobId.ofNat' (fieldAt e 12 0 8).toNat
    period := period
    phaseTicks := fieldAt e 20 0 32
    budget := fieldAt e 24 0 64
    readIdx := start
    producer := start
    seqPolled := 0
    descs := x.descs
    notices := x.notices
    nextTerminal := if x.descs.isEmpty then start else x.nextTerminal
    afterStart := if same then x.afterStart else none
    position := if same then x.position else 0
    current := now.getD 0
    periodOpen := now.isSome
    starts := if same then x.starts else []
    restarts := x.restarts }

/-- Is a stream in a state in which a load is accepted (R66)? -/
def Stream.loadable (x : Stream) : Bool :=
  !x.enabled || x.halted || (decide (x.phase = .idle) && x.descs.isEmpty)

/-- A load with the entry read (R64-R66, R413): the refused one keeps the previous entry and is logged with REASON STATE. A load with
ENABLE = 0 of a HALTED stream keeps the descriptors it holds: those below the halting one still run to their records (R44), and what
was not begun never begins: DESIGN CHOICE (log entry 116). -/
def State.streamLoad (s : State) (f : FunctionId) (off : Nat) (data : W32) (reply : Reply Line) : State :=
  let st := StreamId.ofNat' (bitsAt data 0 12).toNat
  let x := s.stream st
  let refused (s : State) : State := s.setupErr whyState f.val off (data.setWidth 64)
  let addr := s.streamTableBase + 64 * st.val
  let s0 := s.emit (.hostRead 0 (BitVec.ofNat 64 addr) 64)
  match reply with
  | .error k => refused (s0.hostError 0 addr (errKindOf k))
  | .data e =>
    let enable := flagAt e 10 5
    let own := decide (f = 0) || ((!x.enabled || decide (x.function = f)) && decide ((fieldAt e 11 0 5).toNat = f.val))
    if x.loadable = false ∨ own = false ∨ (enable ∧ s.entryLoadable e = false) then refused s0
    else if enable then (s0.setStream st (s.loadedStream x e)).settle st
    else s0.setStream st { x with enabled := false, phase := .idle, halted := false }

/-- A write of a STREAM_LOAD register: reserved bits are checked, GO = 0 does nothing. -/
def State.loadWrite (s : State) (f : FunctionId) (off : Nat) (data : W32) (reply : Reply Line) : State :=
  if data &&& ~~~ 0x10FFF#32 ≠ 0 then s.setupErr whyBit f.val off (data.setWidth 64)
  else if data.getLsbD 16 then s.streamLoad f off data reply
  else s

/-- STB_STREAM_LOAD (R66). -/
def execStbStreamLoad (data : W32) (reply : Reply Line) (s : State) : Result :=
  .next (if s.hostAnswers = false then s
    else if s.stateRefuses 0x40018 then s.setupErr whyDevice 0 0x40018 (data.setWidth 64)
    else s.loadWrite 0 0x40018 data reply)

/-- VF_STREAM_LOAD (R413). -/
def execVfStreamLoad (f : FunctionId) (data : W32) (reply : Reply Line) (s : State) : Result :=
  .next (if s.hostAnswers = false ∨ s.card.device = .recovery then s
    else if s.frozen .vf f.val then s.unsupported f
    else if s.card.device = .failed then s.setupErr whyDevice f.val 4 (data.setWidth 64)
    else s.loadWrite f 4 data reply)

end Sys2Proof.Machine
end

