-- ==== Sys2Proof/Machine/Integrity.lean ====
section
/-! DEFINITION. Losses and timeouts that the Steward settles: stuck transactions (R298, R300), Talon dumps (R303), retirement (R346,
R347), lost slices and stacks (R334, R355), and hung controllers (R446). -/
namespace Sys2Proof.Machine

/-- The span that a running WITHDRAW or MODIFY of an address space waits for (R276, R298). -/
def State.waitSpan (s : State) (a : Fin 1024) (op : Nat) : Option (Nat × Nat) :=
  match (s.space a).ops.head? with
  | none => none
  | some (st, idx) =>
    match s.desc st idx with
    | some d => if d.opcode = op then
        some (if op = opWithdraw then (d.num 16 0 64, d.num 24 0 64) else d.updateSpan)
      else none
    | none => none

/-- Is a request one that a wait of R300 stands on? -/
def State.waitsOn (s : State) (w : XactWait) (r : PeerReq) : Bool :=
  let inSpan (a : Fin 1024) (x : Option (Nat × Nat)) : Bool :=
    match x with
    | some (va, len) => decide (((s.job r.job).map (·.aspace)) = some a)
        && (decide (va ≤ r.va.toNat) && decide (r.va.toNat < va + len))
    | none => false
  match w with
  | .withdraw a => inSpan a (s.waitSpan a opWithdraw)
  | .rangeUpdate a => inSpan a (s.waitSpan a opRangeUpdate)
  | .drop st => decide ((s.stream st).phase = .dropping) && ((s.contextsOf st).contains r.cluster
      || decide ((r.work.map (·.1)) = some st))

/-- A flit that carries an abandoned write leaves the buffers of its port, and never lands (R298). -/
def State.dropWrite (s : State) (r : PeerReq) : State :=
  let mine (b : FlitBody) : Bool :=
    match b with
    | .data k => decide (k.tag = r.tag) && (decide (k.dst = r.dst) && decide (k.kind.toNat = 3))
    | _ => false
  s.modPort r.port (fun x => { x with
    replay := x.replay.filter (fun f => !mine f.body)
    waiting := x.waiting.filter (fun b => !mine b) })

/-- XACT_TIMEOUT (R300): the open transactions of the master are abandoned, it is held, and its job fails. A master already held has
settled its own (R307). -/
def execXactTimeout (c : ClusterId) (m : MasterKind) (w : XactWait) (s : State) : Result :=
  let stuck (r : PeerReq) : Bool := r.answer.isNone && (decide (r.cluster = c) && (decide (r.mkind = m) && s.waitsOn w r))
  .next (if s.ready ∧ s.fabric.requests.any stuck ∧ s.frozen m c.val = false then
    ((((s.fabric.requests.filter stuck).foldl (fun s r => s.dropWrite r) s).forget stuck).freezeCluster m c fcXactTimeout)
  else s)

/-- The Talon section of a master (R456); its layout is not given but for a cluster's: free values, but for the freeze cause of R302,
which stands in byte 0: DESIGN CHOICE (log entry 135). -/
def State.talonDump (s : State) (m : MasterKind) (n : Nat) : State :=
  let cause := match s.integ.talon.find? (fun f => decide (f.kind = m ∧ f.number.toNat = n)) with
    | some f => f.cause
    | none => 0
  let s1 : State := { s with free := s.free + 1 }
  match m with
  | .vf => s1.writeSection (talonSection n) 3 [(0, cause :: freeBytes s.free 0xFFFF)]
  | .evoirIn => s1.writeSection (talonSection (32 + n)) 3 [(0, cause :: freeBytes s.free 0xFFFF)]
  | _ => s.dumpCluster ⟨n % 48, by omega⟩ 3

/-- TALON_DUMP_DONE (R303 step 5, R305): DUMPED is set, and a release that waited for it takes place. -/
def execTalonDumpDone (m : MasterKind) (number : Byte) (s : State) : Result :=
  let n := number.toNat
  .next (match s.integ.talon.find? (fun f => decide (f.kind = m) && (decide (f.number = number) && !f.dumped)) with
    | none => s
    | some f =>
      if s.ready then
        let s1 := s.talonDump m n
        let s2 : State := { s1 with integ := { s1.integ with talon := s1.integ.talon.map (fun g =>
          if g.kind = m ∧ g.number = number then { g with dumped := true } else g) } }
        if f.release then s2.unfreeze m n else s2
      else s)

/-- The RETIRED entry (R352). -/
def State.logRetired (s : State) (c : ClusterId) : State :=
  s.addLog (s.logCluster c (bodyPut (s.logEntry 9 0 c.val 2) 48 1 (s.suspectCount c)))

/-- The dump of a cluster being retired (R347 steps 2 and 3); where a Talon dump of it is written already, that one serves, and the hold
is skipped (R356). -/
def State.retireDump (s : State) (c : ClusterId) : State :=
  if s.integ.talon.any (fun f => decide (f.number.toNat = c.val ∧ f.kind ≠ .vf ∧ f.kind ≠ .evoirIn) && f.dumped) then s
  else ((s.holdCluster c fcRetirement).dumpCluster c 2).markDumped c

/-- CLUSTER_RETIRE (R347): the cluster is idle, or cluster-fatal, for which steps 2 to 6 are those of R152. -/
def execClusterRetire (c : ClusterId) (s : State) : Result :=
  .next (if s.ready ∧ s.integ.retiring.contains c ∧ (s.isLive c = false ∨ (s.cluster c).job.isNone) then
    let s1 : State := { s with integ := { s.integ with
      retired := s.integ.retired ||| (1#48 <<< c.val)
      retiring := s.integ.retiring.filter (fun d => decide (d ≠ c)) } }
    let s2 := if s1.isLive c then (s1.retireDump c).takeOut c else s1
    s2.logRetired c
  else s)

/-- CORRECTED_ECC_LIMIT (R346): the 1,024th corrected error of a cluster within an hour. -/
def execCorrectedEccLimit (c : ClusterId) (s : State) : Result := .next (if s.ready then s.suspect c else s)

/-- A UNIT_LOST entry with its reason (R352, R355). -/
def State.logLost (s : State) (source unit : Nat) (reason : Byte) : State :=
  s.addLog (bodyPut (s.logEntry 0x0A source unit 2) 48 1 reason.toNat)

/-- Does an address space map a device line? -/
def State.mapsLine (s : State) (a : Fin 1024) (line : Nat) : Bool :=
  (s.space a).enabled && (s.space a).entries.any (fun e => decide (e.type = tyDevice)
    && spansMeet (targetPa e.target) e.len (64 * line) 64)

/-- SLICE_LOST (R334): the slice's lines are gone; what was dirty there is lost, and memory holds older bytes, which the spec does not
give (free values). The CAPACITY event names the first of the quadrant's four gateway stops: DESIGN CHOICE (log entry 112). -/
def execSliceLost (slice : Fin 64) (tagsRead : Bool) (reason : Byte) (s : State) : Result :=
  .next (if s.ready ∧ s.memory.slicesLost.getLsbD slice.val = false then
    let here (l : L2Line) : Bool := decide (s.servedBy (sliceOf l.line) = slice.val)
    let lost := s.memory.l2.filter (fun l => here l && (l.dirty && l.host.isNone))
    let hit (j : JobId) : Bool :=
      match s.job j with
      | none => false
      | some x => if tagsRead then lost.any (fun l => s.mapsLine x.aspace l.line)
        else (s.space x.aspace).entries.any (fun e => decide (e.type = tyDevice) && e.w)
    let s1 := s.logLost 2 slice.val reason
    let s2 := lost.foldl (fun s l =>
      ({ s with free := s.free + 1 } : State).withMem
        (Mem.writeBytes s.memory.mem (64 * l.line) ((List.range 64).map (fun i => Config.freeByte s.free i)))) s1
    let s3 : State := { s2 with memory := { s2.memory with
      slicesLost := s2.memory.slicesLost ||| (1#64 <<< slice.val), l2 := s2.memory.l2.filter (fun l => !here l) } }
    ((s.jobIds.filter hit).foldl (fun s j => s.failJob j) s3).postCapacity 2 slice.val ((quadrantStops (Fin.ofNat 4 (slice.val / 16))).headD (0, 0))
  else s)

/-- STACK_LOST (R31, R355, R452): the stack's addresses return poison, its controller powers down; a second loss is device-fatal. A
stack that did not train at boot is no loss that counts here: DESIGN CHOICE (log entry 113). -/
def execStackLost (i : StackId) (reason : Byte) (s : State) : Result :=
  .next (if s.ready ∧ s.memory.stacksTrained.getLsbD i.val ∧ s.memory.stacksLost.getLsbD i.val = false then
    let second := decide (s.memory.stacksLost ≠ 0)
    let s1 := s.logLost 1 i.val reason
    let area := (s1.dumpArea.map (fun b => decide (stackOf b = i.val))).getD false
    let s2 : State := { s1 with
      memory := { s1.memory with stacksLost := s1.memory.stacksLost ||| (1#6 <<< i.val) }
      card := { s1.card with memOn := s1.card.memOn &&& ~~~ (1#6 <<< i.val) }
      integ := { s1.integ with dumpState := if area then dumpNoArea else s1.integ.dumpState } }
    let s3 := s2.bumpEpoch ukController i.val false
    if second then s3.deviceFatal 3 i.val (BitVec.ofNat 32 i.val) else s3.postCapacity 1 i.val (controllerStop i)
  else s)

/-- CONTROLLER_HANG (R446). -/
def execControllerHang (i : StackId) (s : State) : Result :=
  .next (if s.ready ∧ s.card.memOn.getLsbD i.val ∧ (s.unit ukController i.val).inReset = false then
    s.resetUnit ukController i.val
  else s)

end Sys2Proof.Machine
end

