-- ==== Sys2Proof/Machine/Resets.lean ====
section
/-! DEFINITION. Power and resets: the boot sequence (R21, R22, R448-R450), what a device reset clears and keeps (R420), the resets of
a function (R421, R422), and the link (R419). -/
namespace Sys2Proof.Machine

/-! ### Device resets -/

/-- What survives the loss of power: the fuses, and in flash the retirement list (R30) and the firmware slots (R431). The command
queue, what was sent, and the count of free values are no part of the device. -/
def State.powerOff (s : State) : State :=
  { State.reset with
    pending := s.pending
    out := s.out
    free := s.free
    card := { Card.reset with
      device := .off
      lot0 := s.card.lot0
      lot1 := s.card.lot1
      wafer := s.card.wafer
      test := s.card.test
      revision := s.card.revision
      sites := s.card.sites }
    integ := { Integrity.reset with retired := s.integ.retired }
    host := { HostSide.reset with
      perst := true
      staged := s.host.staged
      activeSlot := s.host.activeSlot
      flashSvn := s.host.flashSvn } }

/-- What a device reset keeps besides: the error log (R350). -/
def State.resetBase (s : State) : State :=
  let t := s.powerOff
  { t with
    card := { t.card with device := .booting }
    integ := { t.integ with
      log := s.integ.log
      logNext := s.integ.logNext } }

/-- The board power limit that the sense pins give (R21). -/
def boardLimit (b : BootEnv) : BitVec 10 :=
  if b.sense0Open then (if b.sense1Open then 150 else 450) else if b.sense1Open then 300 else 600

/-- Staged images activate (R420, R430): a verified STEWARD image makes its slot the active one. -/
def State.activateStaged (s : State) : State :=
  let flips := s.host.staged.any (fun x => x.verified && decide (x.component = 1))
  { s with host := { s.host with
    staged := []
    activeSlot := if flips then !s.host.activeSlot else s.host.activeSlot } }

/-- Steps 1 to 3 of R448: the clock, the power limit and PD_HOST, the fuses, and the measurements of step 4 (R450). -/
def State.bootFirst (s : State) (b : BootEnv) : State :=
  let w := boardLimit b
  ({ s with
    card := { s.card with rootLock := true, boardW := w, fuseLoaded := true }
    host := { s.host with link := b.link }
    integ := { s.integ with meas := b.measurements } } : State).setReg 0x20000 (BitVec.ofNat 32 (2 ^ 16 * w.toNat))

/-- The base of the dump area below the seal area of the lowest-numbered trained stack (R452). -/
def dumpBaseOf (trained : BitVec 6) : Nat :=
  match (List.range 6).find? (fun i => trained.getLsbD i) with
  | some i => 2 ^ 33 * (i + 1) - 2 ^ 23 - 2 ^ 28
  | none => 0

/-- Steps 5 to 8 with an image that verified in a slot: the live map, the stacks and the dump area, the L2 with its failing slices
logged, the clusters, READY, and training on the ports with a cable. Without auxiliary power steps 6 and 7 are skipped (R22). -/
def State.bootRest (s : State) (b : BootEnv) (img : FlashImage) (slot : Bool) : State :=
  let live : BitVec 48 := if b.auxPower then ~~~ s.integ.retired else 0
  let trained : BitVec 6 := if b.auxPower then b.stacksTrain else 0
  let bad : BitVec 64 := if b.auxPower then ~~~ b.slicesPass else 0
  let s1 : State := { s with
    card := { s.card with device := .ready, live := live, auxPower := b.auxPower, memOn := trained }
    memory := { s.memory with stacksTrained := trained, slicesLost := bad }
    integ := { s.integ with
      svn := img.svn
      slot := slot
      dumpBase := dumpBaseOf trained
      dumpState := if trained = 0 then dumpNoArea else dumpNone }
    host := { s.host with fwVersion := img.version, flashSvn := img.svn } }
  let s2 := forBelow (fun k s => if bad.getLsbD k then s.logLost 2 k 2 else s) 64 s1
  let s3 := allClusters.foldl (fun s c =>
    if live.getLsbD c.val then s.modCluster c (fun x => { x with powered := true }) else s) s2
  allPorts.foldl (fun s p => (s.modPort p (fun x => { x with cable := b.cables.getLsbD p.val })).train p false) s3

/-- The boot sequence: the image of the active slot, or of the other one, or RECOVERY (R448, R449). -/
def State.boot (s : State) (b : BootEnv) : State :=
  let s1 := s.activateStaged.bootFirst b
  let a := s1.host.activeSlot
  let img (slot : Bool) : FlashImage := if slot then b.slot1 else b.slot0
  if (img a).ok then s1.bootRest b (img a) a
  else if (img (!a)).ok then s1.bootRest b (img (!a)) (!a)
  else { s1 with card := { s1.card with device := .recovery } }

/-- COLD_RESET (R420, R448): power is applied. On a card that has power it stands for a power cycle. -/
def execColdReset (b : BootEnv) (s : State) : Result :=
  .next (({ s.powerOff with card := { s.powerOff.card with device := .booting } } : State).boot b)

/-- WARM_RESET (R420, R448): PERST# asserts with power kept. -/
def execWarmReset (b : BootEnv) (s : State) : Result :=
  .next (if s.card.device = .off then s else s.resetBase.boot b)

/-- PERST_DEASSERT (R419): PD_HOST powers up and the link trains. -/
def execPerstDeassert (s : State) : Result :=
  .next (if s.card.device = .off ∨ s.card.device = .booting then s
    else { s with host := { s.host with perst := false, linkUp := true } })

/-- POWER_REMOVAL (R350). -/
def execPowerRemoval (s : State) : Result := .next s.powerOff

/-! ### Resets of functions (R421, R422) -/

/-- The configuration space of every function is reset (R420): its MSI-X tables and control bits. -/
def State.resetConfig (s : State) : State := { s with host := { s.host with msix := [], msixEnable := 0, msixMask := 0 } }

/-- Release the masters in Talon that `p` picks, now if they are dumped and otherwise once they are (R305, R421 step 6). -/
def State.releaseTalon (s : State) (p : Frozen → Bool) : State :=
  let now := s.integ.talon.filter (fun f => p f && f.dumped)
  let marked := s.integ.talon.map (fun f => if p f && !f.dumped then { f with release := true } else f)
  now.foldl (fun s f => s.unfreeze f.kind f.number.toNat) { s with integ := { s.integ with talon := marked } }

/-- Disable a ring as a reset does. -/
def State.resetRing (s : State) (r : RingId) : State :=
  if s.ringEnabled r then (s.disableRing r).setRing r Ring.reset else s

/-- Disable an address space; its cached entries go. -/
def State.disableSpace (s : State) (a : Fin 1024) : State :=
  (s.setSpace a { s.space a with enabled := false, entries := [], ops := [] }).flushRanges a

/-- What a stream's table operations leave when the stream is disabled: a running MIGRATE is reverted (R284), a KV
header's BUSY is cleared (R260), a WITHDRAW's span goes, and
the tables are free again. DEDUCED (log entry 62). -/
def State.endTableWork (s : State) (st : StreamId) : State :=
  let a := s.streamAsp st
  let s1 := (s.stream st).descs.foldl (fun s d => s.revertDesc a st d) s
  s1.memory.spaces.foldl (fun s e =>
    let b := AspId.ofNat' e.1
    let sp := s.space b
    if sp.ops.any (fun o => decide (o.1 = st)) then
      let s1 := if s.tableRuns b && decide ((sp.ops.head?.map (·.1)) = some st) then
        s.setEntries b (sp.entries.filter (fun x => decide (x.state ≠ esWithdrawing))) else s
      s1.setSpace b { s1.space b with ops := sp.ops.filter (fun o => decide (o.1 ≠ st)) }
    else s) s1

/-- A hot reset and what acts like one (R421): every job is discarded without a record or an event, its aborts reverting what a
MIGRATE or a KV_APPEND had begun (R260, R284), every stream, ring and address space is disabled, the MSI-X tables are reset, and Talon is left. Job numbers are free at once, and queued events go: DEDUCED (log entry 62). -/
def State.hostReset (s : State) : State :=
  if s.ready then
    let s0 := s.streamIds.foldl (fun s st => s.endTableWork st) s
    let s1 := allClusters.foldl (fun s c => if (s.cluster c).job.isSome then s.releaseCluster c else s) s0
    let s2 : State := { s1 with
      sched := { s1.sched with
        jobs := [], streams := [], events := [], eventsHeld := [], faults := [], lines := [] }
      fabric := { s1.fabric with requests := [] } }
    let s3 := (List.finRange 258).foldl (fun s r => s.resetRing r) s2
    let s4 := s3.memory.spaces.foldl (fun s e => s.disableSpace (AspId.ofNat' e.1)) s3
    s4.resetConfig.releaseTalon (fun _ => true)
  else s.resetConfig

/-- HOT_RESET. In FAILED and RECOVERY only configuration state is reset (R459). -/
def execHotReset (s : State) : Result := .next (if s.hostAnswers then s.hostReset else s)
/-- DL_DOWN (R421, R425): the link retrains at once. -/
def execDlDown (s : State) : Result := .next (if s.hostAnswers then s.hostReset else s)
/-- PF_FLR. -/
def execPfFlr (s : State) : Result := .next (if s.hostAnswers then s.hostReset else s)
/-- D3HOT_ENTRY. -/
def execD3hotEntry (s : State) : Result := .next (if s.hostAnswers then s.hostReset else s)

/-- The configuration space of one VF is reset. -/
def State.resetVfConfig (s : State) (f : FunctionId) : State :=
  let b : BitVec 32 := 1#32 <<< f.val
  { s with host := { s.host with
    msix := s.host.msix.filter (fun e => decide (e.1 / 2048 ≠ f.val))
    msixEnable := s.host.msixEnable &&& ~~~ b
    msixMask := s.host.msixMask &&& ~~~ b } }

/-- The reset of one VF (R422): its streams are disabled without a record, its jobs end in FAILED with their events, its rings and address
spaces are disabled; a VF in Talon leaves it once dumped (R305). -/
def State.resetVf (s : State) (f : FunctionId) : State :=
  if s.ready then
    let mine := s.streamIds.filter (fun st => (s.stream st).enabled && decide ((s.stream st).function = f))
    let jobs := s.jobIds.filter (fun j => mine.any (fun st => decide ((s.stream st).job = j)))
    let s1 := mine.foldl (fun s st => (s.endTableWork st).setStream st Stream.reset) s
    let s2 := jobs.foldl (fun s j => s.requestAbort j) s1
    let s3 := (List.finRange 256).foldl (fun s n =>
      if s.ringFunction (cring n) = f.val then s.resetRing (cring n) else s) s2
    let s4 := s3.memory.spaces.foldl (fun s e =>
      if e.2.enabled && decide (e.2.function = f) then s.disableSpace (AspId.ofNat' e.1) else s) s3
    let s5 := s4.resetVfConfig f
    if s5.frozen .vf f.val then s5.releaseTalon (fun x => decide (x.kind = .vf) && decide (x.number.toNat = f.val))
    else s5.startReset ukVf f.val
  else s.resetVfConfig f

/-- VF_FLR (R422). -/
def execVfFlr (f : FunctionId) (s : State) : Result :=
  .next (if s.hostAnswers ∧ f ≠ 0 ∧ s.card.device ≠ .recovery then s.resetVf f else s)

/-- VF_ENABLE_CLEAR (R422): every VF. -/
def execVfEnableClear (s : State) : Result :=
  .next (if s.hostAnswers ∧ s.card.device ≠ .recovery then
    ((List.finRange 32).filter (fun f => decide (f ≠ 0))).foldl (fun s f => s.resetVf f) s
  else s)

end Sys2Proof.Machine
end

