-- ==== Sys2Proof/Machine/Power.lean ====
section
/-! DEFINITION. Board power, temperature and the power of domains (R437-R442). -/
namespace Sys2Proof.Machine

/-- CAP_W. -/
def State.capW (s : State) : Nat := (bitsAt (s.reg 0x20000) 16 10).toNat

/-- The level after a sample of the power loop, in milliwatts (R439). -/
def powerLevel (l mw cap : Nat) : Nat :=
  if 1000 * cap < mw then min (l + ceilDiv (mw - 1000 * cap) 8000) 15
  else if mw + 16000 < 1000 * cap then l - 1
  else l

/-- POWER_LOOP (R439). -/
def execPowerLoop (mw : W32) (s : State) : Result :=
  .next (if s.ready then
    { s with card := { s.card with mw := mw, level := BitVec.ofNat 4 (powerLevel s.card.level.toNat mw.toNat s.capW) } }
  else s)

/-- Degrees in the units of the temperature registers, 1/256 °C. -/
def degrees (t : Int) : Int := 256 * t

/-- The floor after a reading of the hotspot: the highest of those in force, each with its own removal (R441). -/
def thermalFloor (old : Nat) (t : Int) : Nat :=
  if degrees 105 ≤ t ∨ (15 ≤ old ∧ degrees 102 ≤ t) then 15
  else if degrees 100 ≤ t ∨ (8 ≤ old ∧ degrees 97 ≤ t) then 8
  else if degrees 95 ≤ t ∨ (4 ≤ old ∧ degrees 92 ≤ t) then 4
  else 0

/-- THERMAL_SAMPLE (R441). -/
def execThermalSample (temp : BitVec 16) (s : State) : Result :=
  let t := temp.toInt
  .next (if s.ready then
    { s with card := { s.card with
      hotspot := temp
      floor := BitVec.ofNat 4 (thermalFloor s.card.floor.toNat t)
      stall := decide (degrees 110 ≤ t) || (s.card.stall && decide (degrees 105 ≤ t)) } }
  else s)

/-- Does the gate suppress frame `k` of a group of 16 at a throttle level (R433)? Time that a cluster loses to it is not counted (log entry
109). -/
def frameSuppressed (level k : Nat) : Bool := decide (k * level / 16 < (k + 1) * level / 16)

/-- A cluster's applied throttle level (R439, R440): an exempt cluster has power level 0. -/
def State.appliedLevel (s : State) (c : ClusterId) : Nat :=
  let x := s.cluster c
  if x.powered then max (if x.k.det then 0 else s.card.level.toNat) s.card.floor.toNat else 0

/-- One bit of a six-bit mask set or cleared. -/
def maskBit (m : BitVec 6) (i : Nat) (b : Bool) : BitVec 6 := if b then m ||| (1#6 <<< i) else m &&& ~~~ (1#6 <<< i)

/-- STACK_TEMPERATURE (R442): at 95 °C the refresh rate doubles, at 105 °C requests slow; each lifts 3 °C lower. -/
def execStackTemperature (i : StackId) (temp : BitVec 16) (s : State) : Result :=
  let t := temp.toInt
  .next (if s.ready ∧ s.card.memOn.getLsbD i.val then
    let hot := decide (degrees 95 ≤ t) || (s.card.refresh2.getLsbD i.val && decide (degrees 92 < t))
    let slow := decide (degrees 105 ≤ t) || (s.card.slowReq.getLsbD i.val && decide (degrees 102 < t))
    { s with card := { s.card with
      stackTemp := Table.set s.card.stackTemp i.val temp
      refresh2 := maskBit s.card.refresh2 i.val hot
      slowReq := maskBit s.card.slowReq i.val slow } }
  else s)

/-- SUPPLY_CUTOFF (R441): the processor loses its supply. -/
def execSupplyCutoff (s : State) : Result := .next s.powerOff

/-- CLUSTER_IDLE_POWER_DOWN (R438): a free live cluster drains and cleans, its epoch increments, and what it held is lost. -/
def execClusterIdlePowerDown (c : ClusterId) (s : State) : Result :=
  let x := s.cluster c
  .next (if s.ready ∧ s.reg 0x20010 ≠ 0 ∧ s.isFree c ∧ x.powered then
    (((s.drainStores c).cleanL1 c true).bumpEpoch ukCluster c.val false).setCluster c Cluster.reset
  else s)

/-- SELF_REFRESH (R437): the stack's controller enters self-refresh until its next request. -/
def execSelfRefresh (i : StackId) (s : State) : Result :=
  .next (if s.ready ∧ s.card.memOn.getLsbD i.val ∧ s.reg 0x20014 ≠ 0 then
    { s with card := { s.card with selfRefresh := s.card.selfRefresh ||| (1#6 <<< i.val) } }
  else s)

end Sys2Proof.Machine
end

