-- ==== Sys2Proof/Machine/Management.lean ====
section
/-! DEFINITION. The Steward as an MCTP endpoint and PLDM terminus (R426-R431): the answer to each command is its completion code and
the values that the rules give it. How the DMTF standards frame a message is no part of the spec (log entry 63). -/
namespace Sys2Proof.Machine

/-- Completion codes: those the rules name, and the standards' own codes for them. PRESUMED (log entry 63). -/
def ccOk : Byte := 0
def ccInvalidData : Byte := 2
def ccUnsupported : Byte := 5
def ccNotHeld : Byte := 0x80
def ccBadId : Byte := 0x80
def ccBadHandle : Byte := 0x82

/-- Does the Steward serve management requests: READY or FAILED, and not after a Steward fault (R449, R454, R459)? -/
def State.stewardServes (s : State) : Bool :=
  decide (s.card.device = .ready ∨ s.card.device = .failed) && decide (s.integ.reason ≠ 1 ∧ s.integ.romDump = false)

/-- The boot ROM serves MCTP control and PLDM types 0 and 5 in RECOVERY (R449). -/
def State.romServes (s : State) : Bool := s.stewardServes || decide (s.card.device = .recovery)

/-- Answer with a completion code and data. -/
def State.reply (s : State) (code : Byte) (bytes : List Byte) : State := s.emit (.management code bytes)

/-- A command of MCTP control or PLDM types 0 and 5. -/
def State.serveRom (s : State) (f : State → State) : Result := .next (if s.romServes then f s else s)
/-- A command of the other types. -/
def State.serveSteward (s : State) (f : State → State) : Result := .next (if s.stewardServes then f s else s)

/-! ### MCTP control (R426) -/

/-- SET_ENDPOINT_ID: operations 0 and 1 set the EID, 3 marks it discovered; 2 has no static EID to return to. PRESUMED (log entry
63). -/
def execSetEndpointId (op : BitVec 2) (eid : Byte) (s : State) : Result :=
  s.serveRom (fun s =>
    if op = 0 ∨ op = 1 then
      if eid = 0 ∨ eid = 0xFF then s.reply ccInvalidData []
      else ({ s with host := { s.host with eid := eid } } : State).reply ccOk [0, eid]
    else if op = 2 then s.reply ccInvalidData []
    else s.reply ccOk [0, s.host.eid])

/-- GET_ENDPOINT_ID. -/
def execGetEndpointId (s : State) : Result := s.serveRom (fun s => s.reply ccOk [s.host.eid])

/-- GET_ENDPOINT_UUID: the spec gives no UUID (a free value). -/
def execGetEndpointUuid (s : State) : Result :=
  s.serveRom (fun s => ({ s with free := s.free + 1 } : State).reply ccOk ((List.range 16).map (fun i => Config.freeByte s.free i)))

/-- GET_MCTP_VERSION_SUPPORT: 1.3.1 for the base and its control messages; the version for PLDM is not given (free values). -/
def execGetMctpVersionSupport (type : Byte) (s : State) : Result :=
  s.serveRom (fun s =>
    if type = 0xFF ∨ type = 0 then s.reply ccOk [1, 0xF1, 0xF3, 0xF1, 0]
    else if type = 1 then
      ({ s with free := s.free + 1 } : State).reply ccOk (1 :: (List.range 4).map (fun i => Config.freeByte s.free i))
    else s.reply ccNotHeld [])

/-- GET_MESSAGE_TYPE_SUPPORT: control and PLDM. -/
def execGetMessageTypeSupport (s : State) : Result := s.serveRom (fun s => s.reply ccOk [2, 0, 1])

/-- UNSUPPORTED_MESSAGE_TYPE. -/
def execUnsupportedMessageType (type : BitVec 7) (s : State) : Result :=
  s.serveRom (fun s => if type = 0 ∨ type = 1 then s else s.reply ccUnsupported [])

/-! ### PLDM base (R427) -/

/-- GET_TID. -/
def execGetTid (s : State) : Result := s.serveRom (fun s => s.reply ccOk [s.host.tid])

/-- SET_TID: 0 and 0xFF are no terminus. PRESUMED (log entry 63). -/
def execSetTid (tid : Byte) (s : State) : Result :=
  s.serveRom (fun s =>
    if tid = 0 ∨ tid = 0xFF then s.reply ccInvalidData []
    else ({ s with host := { s.host with tid := tid } } : State).reply ccOk [])

/-- The types supported now (R427, R449). -/
def State.pldmTypes (s : State) : List Nat := if s.card.device = .recovery then [0, 5] else [0, 2, 4, 5, 0x3F]

/-- GET_PLDM_VERSION: the versions of the types are not given (free values). -/
def execGetPldmVersion (type : BitVec 6) (s : State) : Result :=
  s.serveRom (fun s =>
    if s.pldmTypes.contains type.toNat then
      ({ s with free := s.free + 1 } : State).reply ccOk ((List.range 4).map (fun i => Config.freeByte s.free i))
    else s.reply ccNotHeld [])

/-- GET_PLDM_TYPES: one bit for each type, in 8 bytes. -/
def execGetPldmTypes (s : State) : Result :=
  s.serveRom (fun s => s.reply ccOk (toBytes 8 ((s.pldmTypes.map (fun t => 2 ^ t)).sum)))

/-- The command codes of a type by the standards. PRESUMED (log entry 63). -/
def pldmCommands (t : Nat) : List Nat :=
  if t = 0 then [1, 2, 3, 4, 5]
  else if t = 2 then [0x04, 0x0A, 0x11, 0x21, 0x31, 0x32, 0x39, 0x50, 0x51]
  else if t = 4 then [1, 2]
  else if t = 5 then [0x10, 0x11, 0x12, 0x15, 0x16, 0x17, 0x18, 0x19, 0x1A, 0x1B, 0x1C, 0x1D]
  else if t = 0x3F then [1, 2]
  else []

/-- GET_PLDM_COMMANDS: one bit for each command, in 32 bytes. -/
def execGetPldmCommands (type : BitVec 6) (s : State) : Result :=
  s.serveRom (fun s =>
    if s.pldmTypes.contains type.toNat then
      s.reply ccOk (toBytes 32 (((pldmCommands type.toNat).map (fun c => 2 ^ c)).sum))
    else s.reply ccNotHeld [])

/-! ### Platform monitoring and control (R428) -/

/-- Entries of the platform repository. -/
def pdrCount : Nat := 21

/-- Kinds of entries: 1 numeric sensor, 2 state sensor, 3 numeric effecter. -/
def pdrKind (n : Nat) : Nat := if n ≤ 10 then 1 else if n ≤ 19 then 2 else 3

/-- GET_PDR_REPOSITORY_INFO. -/
def execGetPdrRepositoryInfo (s : State) : Result := s.serveSteward (fun s => s.reply ccOk (toBytes 4 pdrCount))

/-- GET_PDR: the entry's number and kind. -/
def execGetPdr (handle : W32) (s : State) : Result :=
  s.serveSteward (fun s =>
    let n := handle.toNat
    if 1 ≤ n ∧ n ≤ pdrCount then s.reply ccOk (toBytes 4 n ++ toBytes 1 (pdrKind n)) else s.reply ccBadHandle [])

/-- A numeric sensor's reading in its unit, rounded down: °C, W, a count, GiB. -/
def State.sensorReading (s : State) (id : Nat) : Option Int :=
  if id = 1 then some (s.card.hotspot.toInt / 256)
  else if 2 ≤ id ∧ id ≤ 7 then some ((Table.get 0 s.card.stackTemp (id - 2)).toInt / 256)
  else if id = 8 then some (Int.ofNat (s.card.mw.toNat / 1000))
  else if id = 9 then some (Int.ofNat s.liveCount)
  else if id = 10 then some (Int.ofNat (s.reportedMemory / 2 ^ 30))
  else none

/-- GET_SENSOR_READING. -/
def execGetSensorReading (id : BitVec 16) (s : State) : Result :=
  s.serveSteward (fun s =>
    match s.sensorReading id.toNat with
    | some v => s.reply ccOk (toBytes 4 (BitVec.ofInt 32 v).toNat)
    | none => s.reply ccBadId [])

/-- A state sensor's state: the device, or a port's LINK code. -/
def State.sensorState (s : State) (id : Nat) : Option Nat :=
  if id = 11 then
    some (match s.card.device with
      | .ready => 1
      | .failed => 2
      | _ => 3)
  else if 12 ≤ id ∧ id ≤ 19 then some (s.port ⟨(id - 12) % 8, by omega⟩).lstate.toNat
  else none

/-- GET_STATE_SENSOR_READINGS. -/
def execGetStateSensorReadings (id : BitVec 16) (s : State) : Result :=
  s.serveSteward (fun s =>
    match s.sensorState id.toNat with
    | some v => s.reply ccOk [BitVec.ofNat 8 v]
    | none => s.reply ccBadId [])

/-- POWER_CAP: effecter 20 takes 150 W to the board limit; FAILED holds its register (R467). -/
def execPowerCap (watts : W32) (s : State) : Result :=
  s.serveSteward (fun s =>
    if s.card.device = .ready ∧ 150 ≤ watts.toNat ∧ watts.toNat ≤ s.card.boardW.toNat then
      (s.setReg 0x20000 (BitVec.ofNat 32 (2 ^ 16 * watts.toNat))).reply ccOk []
    else s.reply ccInvalidData [])

/-- RETIRE_CLEAR_EFFECTER: effecter 21 performs ERR_RETIRE_CLEAR (R349). -/
def execRetireClearEffecter (cluster : W32) (s : State) : Result :=
  s.serveSteward (fun s =>
    if s.card.device = .ready ∧ cluster.toNat < 48 ∧ s.integ.retired.getLsbD cluster.toNat then
      ({ s with integ := { s.integ with
        retired := s.integ.retired &&& ~~~ (1#48 <<< cluster.toNat) } } : State).reply ccOk []
    else s.reply ccInvalidData [])

/-- GET_NUMERIC_EFFECTER_VALUE: the cap; what effecter 21 reads is not given (a free value). -/
def execGetNumericEffecterValue (id : BitVec 16) (s : State) : Result :=
  s.serveSteward (fun s =>
    if id = 20 then s.reply ccOk (toBytes 4 s.capW)
    else if id = 21 then
      ({ s with free := s.free + 1 } : State).reply ccOk (toBytes 4 (Config.freeWord s.free).toNat)
    else s.reply ccBadId [])

/-- SET_STATE_EFFECTER_STATES: the repository holds no state effecter. -/
def execSetStateEffecterStates (_ : BitVec 16) (_ : Byte) (s : State) : Result := s.serveSteward (fun s => s.reply ccBadId [])

/-- SET_EVENT_RECEIVER: a controller sets itself as the receiver, or ends it. -/
def execSetEventReceiver (enable eid : Byte) (s : State) : Result :=
  s.serveSteward (fun s =>
    ({ s with host := { s.host with eventReceiver := if enable = 0 then none else some eid } } : State).reply ccOk [])

/-! ### FRU and OEM commands (R429) -/

/-- The ReadIdentity data: FUSE_LOT0 to FUSE_CEN1 and the 48 FUSE_SITE registers. -/
def State.identityData (s : State) : List Byte := wordBytes s.fuseHead ++ wordBytes (allClusters.map s.fuseSite)

/-- GET_FRU_RECORD_TABLE_METADATA: one General and one OEM record. -/
def execGetFruRecordTableMetadata (s : State) : Result := s.serveSteward (fun s => s.reply ccOk [2])

/-- The part number of the General record. -/
def fruPartNumber : List Byte := "a withdrawn rule-C".toList.map (fun c => BitVec.ofNat 8 c.toNat)

/-- GET_FRU_RECORD_TABLE: the General record's serial number and manufacture date lie in flash and are not given (free values, in 32
bytes before the part number and 8 after it); the OEM record carries the identity. -/
def execGetFruRecordTable (s : State) : Result :=
  s.serveSteward (fun s =>
    ({ s with free := s.free + 1 } : State).reply ccOk
      ((List.range 32).map (fun i => Config.freeByte s.free i) ++ fruPartNumber
        ++ (List.range 8).map (fun i => Config.freeByte s.free (32 + i)) ++ s.identityData))

/-- READ_ERROR_LOG. -/
def execReadErrorLog (seq : W32) (s : State) : Result :=
  s.serveSteward (fun s => if s.logHeld seq then s.reply ccOk (s.logBytes seq) else s.reply ccNotHeld [])

/-- READ_IDENTITY. -/
def execReadIdentity (s : State) : Result := s.serveSteward (fun s => s.reply ccOk s.identityData)

/-! ### Firmware update (R430, R431) -/

/-- The staged image of a component. -/
def State.stagedOf (s : State) (component : BitVec 16) : Option Staged :=
  s.host.staged.find? (fun x => decide (x.component = component))

/-- Replace the staged image of a component. -/
def State.setStaged (s : State) (component : BitVec 16) (x : Option Staged) : State :=
  let rest := s.host.staged.filter (fun y => decide (y.component ≠ component))
  { s with host := { s.host with staged := match x with
      | some y => rest ++ [y]
      | none => rest } }

/-- FIRMWARE_TRANSFER: data in transfers of up to 1,024 bytes, in order; the first one replaces an earlier staged image. What the bytes
are is judged at VerifyComplete and at boot. -/
def execFirmwareTransfer (component : BitVec 16) (off : W32) (bytes : List Byte) (s : State) : Result :=
  s.serveRom (fun s =>
    let known := decide (component = 1 ∨ component = 2 ∨ component = 3)
    let have_ := (s.stagedOf component).map (fun x => x.received)
    if known ∧ bytes.length ≤ 1024 ∧ (off = 0 ∨ have_ = some off.toNat) then
      (s.setStaged component (some ⟨component, off.toNat + bytes.length, false, 0⟩)).reply ccOk []
    else s.reply ccInvalidData [])

/-- VerifyResult codes (R431). -/
def verifyOk : Byte := 0
def verifySignature : Byte := 1
def verifyVersion : Byte := 5

/-- VERIFY_COMPLETE: an image whose signature fails, or whose security version is below the recorded one, is rejected. -/
def execVerifyComplete (component : BitVec 16) (sigOk : Bool) (svn : BitVec 16) (s : State) : Result :=
  s.serveRom (fun s =>
    match s.stagedOf component with
    | none => s
    | some x =>
      if sigOk = false then (s.setStaged component none).reply verifySignature []
      else if svn < s.host.flashSvn then (s.setStaged component none).reply verifyVersion []
      else (s.setStaged component (some { x with verified := true, svn := svn })).reply verifyOk [])

/-- Is a verified image of a component staged? -/
def State.verifiedOf (s : State) (component : BitVec 16) : Bool := ((s.stagedOf component).map (fun x => x.verified)).getD false

/-- ACTIVATE_FIRMWARE (R430): FRU data at once; EVOIR_LC, when self-contained, port by port; the rest at the next device reset. -/
def execActivateFirmware (selfContained : Bool) (s : State) : Result :=
  s.serveRom (fun s =>
    let s1 := if s.verifiedOf 3 then s.setStaged 3 none else s
    let s2 := if s1.ready && (selfContained && s1.verifiedOf 2) then
      (allPorts.foldl (fun s p => if (s.port p).carries then s.modPort p (fun x => { x with update := true }) else s)
        (s1.setStaged 2 none)).nextUpdate
    else s1
    s2.reply ccOk [])

/-- GET_STATUS: for each staged image its component, what was received and whether it is verified. -/
def execGetStatus (s : State) : Result :=
  s.serveRom (fun s => s.reply ccOk (s.host.staged.flatMap (fun x =>
    toBytes 2 x.component.toNat ++ toBytes 4 x.received ++ toBytes 1 (bit x.verified))))

/-- CANCEL_UPDATE: no staged image is kept. -/
def execCancelUpdate (s : State) : Result :=
  s.serveRom (fun s => ({ s with host := { s.host with staged := [] } } : State).reply ccOk [])

/-- CANCEL_UPDATE_COMPONENT: the component being transferred is given up. -/
def execCancelUpdateComponent (s : State) : Result :=
  s.serveRom (fun s =>
    ({ s with host := { s.host with staged := s.host.staged.filter (fun x => x.verified) } } : State).reply ccOk [])

end Sys2Proof.Machine
end

