-- ==== Sys2Proof/Machine/HostConfig.lean ====
section
/-! DEFINITION. The configuration space of the PF and of the VFs as the host reads it (R405-R409, R412, R415, R416). -/
namespace Sys2Proof.Machine

/-- The capabilities that a function of the device presents (R406). -/
inductive Capability where
  | powerManagement
  | pciExpress
  | msix
  | aer
  | sriov
  | ari
  | resizableBar
  | deviceSerialNumber
  | dataLinkFeature
  | physical16
  | physical32
  | physical64
  | laneMargining
  deriving DecidableEq, Repr

/-- The capabilities of a function: no other one is presented. -/
def capabilities (f : FunctionId) : List Capability :=
  if f = 0 then [.powerManagement, .pciExpress, .msix, .aer, .sriov, .ari, .resizableBar, .deviceSerialNumber, .dataLinkFeature
                 , .physical16, .physical32, .physical64, .laneMargining]
  else [.pciExpress, .msix, .aer, .ari]

/-- What a BAR is: its sizes in bytes as a range of powers of two, the one after a reset, and whether it is prefetchable. All are 64-bit. -/
structure Bar where
  log2Min : Nat
  log2Max : Nat
  log2Reset : Nat
  prefetchable : Bool
  deriving DecidableEq, Repr

/-- The BARs of a function (R409, R412): BAR4 reads as zero. -/
def barOf (f : FunctionId) (n : Nat) : Option Bar :=
  if n = 0 then some (if f = 0 then ⟨26, 26, 26, false⟩ else ⟨16, 16, 16, false⟩)
  else if n = 2 then some (if f = 0 then ⟨28, 36, 28, true⟩ else ⟨30, 30, 30, true⟩)
  else none

/-- The configuration registers whose value the spec gives (R405-R408, R412, R415, R416, R420). A completion timeout is in ms. -/
inductive ConfigReg where
  | vendorId | deviceId | classCode | revisionId | interruptPin | serialNumber
  | maxPayload | maxReadRequest | readCompletionBoundary | completionTimeout
  | noSoftReset
  | totalVfs | initialVfs | firstVfOffset | vfStride | vfDeviceId | supportedPageSizes
  | msixVectors | msixTableBir | msixTable | msixPbaBir | msixPba | msixEnable | msixMask
  deriving DecidableEq, Repr

/-- The bit of a function in a word with one bit a function. -/
def msixBit (x : BitVec 32) (f : FunctionId) : Nat := bit (x.getLsbD f.val)

/-- The value of a configuration register of a function; none where the function has no such register. Sizes are in bytes. -/
def State.configReg (s : State) (f : FunctionId) (r : ConfigReg) : Option Nat :=
  let pf (v : Nat) : Option Nat := if f = 0 then some v else none
  match r with
  | .vendorId => some 0x1F3C
  | .deviceId => some (if f = 0 then 0x4800 else 0x4801)
  | .classCode => some 0x120000
  | .revisionId => some s.card.revision.toNat
  | .interruptPin => some 0
  | .serialNumber => pf ((s.card.lot1.toNat % 2 ^ 16) * 2 ^ 48 + s.card.lot0.toNat * 2 ^ 16 + s.card.wafer.toNat % 2 ^ 16)
  | .maxPayload => some 512
  | .maxReadRequest => some 4096
  | .readCompletionBoundary => some 64
  | .completionTimeout => some 50
  | .noSoftReset => pf 0
  | .totalVfs => pf 31
  | .initialVfs => pf 31
  | .firstVfOffset => pf 1
  | .vfStride => pf 1
  | .vfDeviceId => pf 0x4801
  | .supportedPageSizes => pf 4096
  | .msixVectors => some (if f = 0 then 2048 else 64)
  | .msixTableBir => some 0
  | .msixTable => some (if f = 0 then 0x34000 else 0x8000)
  | .msixPbaBir => some 0
  | .msixPba => some (if f = 0 then 0x3C000 else 0xC000)
  | .msixEnable => some (msixBit s.host.msixEnable f)
  | .msixMask => some (msixBit s.host.msixMask f)

/-- How an error is reported by default (R416). -/
inductive AerClass where
  | correctable | nonFatal | fatal
  deriving DecidableEq, Repr

/-- The class of an AER error. -/
def AerError.class : AerError → AerClass
  | .receiverError | .badTlp | .badDllp | .replayTimeout | .replayRollover | .correctedInternal => .correctable
  | .poisonedTlp | .ecrcError | .unsupportedRequest | .completionTimeout | .unexpectedCompletion => .nonFatal
  | .malformedTlp | .receiverOverflow | .flowControl | .dataLinkProtocol | .uncorrectableInternal => .fatal

/-- An AER status bit of a function. -/
def State.aerStatus (s : State) (f : FunctionId) (e : AerError) : Bool := s.host.aer.contains (f, e)

end Sys2Proof.Machine
end

