-- ==== Sys2Proof/Machine/Reads.lean ====
section
/-! DEFINITION. What a host read of BAR0 returns (R462, R465-R475), and the reads that change state: the counters that clear
when they are read, and the latch of the timebase. -/
namespace Sys2Proof.Machine

/-- A flag at a bit of a register. -/
def regBit (b : Bool) (k : Nat) : Nat := bit b * 2 ^ k

/-- The timebase as BAR0 shows it: in FAILED its value is frozen (R467). -/
def State.shownTick (s : State) : Word := if s.card.device = .failed then s.integ.tickDone else s.tick

/-- GEN (R27, R378, R469). -/
def State.readGen (s : State) (o : Nat) : Nat :=
  if o = 0 then (s.configReg 0 .vendorId).getD 0 + 2 ^ 16 * (s.configReg 0 .deviceId).getD 0
  else if o = 4 then s.card.revision.toNat
  else if o = 8 then s.host.fwVersion.toNat
  else if o = 0x10 then s.setup.errCount.toNat + 2 ^ 16 * s.setup.errReason.toNat + 2 ^ 24 * s.setup.errFunction.toNat
  else if o = 0x14 then s.setup.errAddr.toNat
  else if o = 0x18 then s.setup.errData.toNat % 2 ^ 32
  else if o = 0x1C then s.setup.errData.toNat / 2 ^ 32
  else if o = 0x20 then regBit s.card.auxPower 0 + 2 ^ 8 * s.stackLiveBits.toNat
  else if o = 0x40 then s.card.live.toNat % 2 ^ 32
  else if o = 0x44 then s.card.live.toNat / 2 ^ 32
  else if o = 0x48 then s.liveCount
  else if o = 0x50 then s.reportedMemory % 2 ^ 32
  else if o = 0x54 then s.reportedMemory / 2 ^ 32
  else if inRun o 0x360 4 16 then
    let n := (o - 0x360) / 4
    s.halfState n false + 4 * s.halfState n true
  else
    let j := (bitsAt (s.reg 0x400) 0 8).toNat
    if o = 0x404 then regBit (Table.get false s.sched.groupEnable j) 0
    else if o = 0x408 then (Table.get 0 s.sched.groupAnchor j).toNat % 2 ^ 32
    else if o = 0x40C then (Table.get 0 s.sched.groupAnchor j).toNat / 2 ^ 32
    else (s.reg o).toNat

/-- FUSE (R25). -/
def State.readFuse (s : State) (o : Nat) : Nat :=
  if inRun o 0 4 6 then (nthD s.fuseHead (o / 4) 0).toNat
  else if o = 0x18 then regBit s.card.fuseLoaded 0
  else if inRun o 0x100 4 48 then (s.fuseSite (ClusterId.ofNat' ((o - 0x100) / 4))).toNat
  else 0

/-- Are the lane PLLs of a port locked: past LOCK, and not in ROOST (R373)? -/
def Port.locked (x : Port) : Bool :=
  x.powered && (decide (x.lstate = 2 ∨ x.lstate = 3 ∨ x.lstate = 5) || decide (x.train ≠ .none ∧ x.train ≠ .lock))

/-- CLK (R435). -/
def State.readClk (s : State) (o : Nat) : Nat :=
  if o = 0 then regBit s.card.rootLock 0 + (allPorts.map (fun p => regBit (s.port p).locked (8 + p.val))).sum
  else
    let c := ClusterId.ofNat' ((o - 0x100) / 4)
    s.appliedLevel c + regBit ((s.cluster c).powered && (s.cluster c).k.det) 8
      + regBit ((s.cluster c).powered && s.card.stall) 9

/-- The power of the 67 domains (R436, R437). -/
def State.domains (s : State) : Nat :=
  (allClusters.map (fun c => regBit (s.cluster c).powered c.val)).sum + 2 ^ 48 * s.card.memOn.toNat
    + ((List.finRange 4).map (fun q => regBit (s.card.auxPower && !(s.quad q).off) (54 + q.val))).sum
    + (allPorts.map (fun p => regBit (s.port p).powered (58 + p.val))).sum + regBit (!s.host.perst) 66

/-- Is a unit's domain on? A VF and a fabric destination have no domain of their own. -/
def State.unitPowered (s : State) (kind number : Nat) : Bool :=
  if kind = ukCluster ∨ kind = ukMover then decide (number < 48) && (s.cluster (ClusterId.ofNat' number)).powered
  else if kind = ukPort then decide (number < 8) && s.domains.testBit (58 + number)
  else if kind = ukController then decide (number < 6) && s.domains.testBit (48 + number)
  else if kind = ukQuadrant then decide (number < 4) && s.domains.testBit (54 + number)
  else unitExists kind number && !s.host.perst

/-- PWR (R317, R437). -/
def State.readPwr (s : State) (o : Nat) : Nat :=
  if o = 0 then s.card.boardW.toNat + 2 ^ 16 * s.capW
  else if o = 4 then s.card.mw.toNat
  else if o = 8 then s.card.level.toNat + 16 * s.card.floor.toNat + regBit s.card.stall 8
  else if o = 0xC then s.card.hotspot.toNat
  else if inRun o 0x20 4 3 then s.domains / 2 ^ (8 * (o - 0x20)) % 2 ^ 32
  else if o = 0x48 then
    let k := (bitsAt (s.reg 0x20044) 0 8).toNat
    let n := (bitsAt (s.reg 0x20044) 8 8).toNat
    (s.unit k n).epoch.toNat + regBit (s.unit k n).inReset 8 + regBit (s.unitPowered k n) 9
  else if inRun o 0x104 16 4 then
    let q := s.quad (QuadId.ofNat' ((o - 0x104) / 16))
    q.on.toNat + 2 ^ 16 * q.cleaning.toNat
  else if o = 0x40 then 0
  else (s.reg (0x20000 + o)).toNat

/-- A word of an entry of an MSI-X table: address, data, the Mask bit. -/
def Msix.word (m : Msix) (o : Nat) : Nat :=
  if o = 0 then m.addr.toNat % 2 ^ 32
  else if o = 4 then m.addr.toNat / 2 ^ 32
  else if o = 8 then m.data.toNat
  else regBit m.masked 0

/-- HIF (R415, R418). HIF_LINK shows how the link has trained while it is up (R405). -/
def State.readHif (s : State) (o : Nat) : Nat :=
  if o = 0 then
    if s.host.linkUp then s.host.link.speed.toNat + 2 ^ 4 * s.host.link.width.toNat + 2 ^ 16 + regBit s.host.link.flit 17 else 0
  else if inRun o 0x10 4 9 then s.host.ringErr.toNat / 2 ^ (8 * (o - 0x10)) % 2 ^ 32
  else if o = 0x40 then s.host.errKind.toNat + 2 ^ 8 * s.host.errFunction.toNat
  else if o = 0x44 then s.host.errAddr.toNat % 2 ^ 32
  else if o = 0x48 then s.host.errAddr.toNat / 2 ^ 32
  else if 0x4000 ≤ o ∧ o < 0xC000 then
    (s.msix 0 ((o - 0x4000) / 16)).word (o % 16)
  else if 0xC000 ≤ o ∧ o < 0xC100 then
    ((List.range 32).map (fun k => regBit (s.msix 0 (8 * (o - 0xC000) + k)).pending k)).sum
  else (s.reg (0x30000 + o)).toNat

/-- STATE codes of STB_STREAM_STAT (R470). -/
def StreamPhase.code : StreamPhase → Nat
  | .idle => 0 | .active => 1 | .preempted => 2 | .suspendedFault => 3 | .dropping => 4

/-- STB (R470). -/
def State.readStb (s : State) (o : Nat) : Nat :=
  let st := s.stream (StreamId.ofNat' (bitsAt (s.reg 0x40020) 0 12).toNat)
  let j := JobId.ofNat' (bitsAt (s.reg 0x40030) 0 8).toNat
  if o = 0x18 ∨ o = 0x38 then 0
  else if o = 0x1C then s.sched.evtLost.toNat
  else if o = 0x24 then
    if st.enabled then (if st.halted then 5 + 2 ^ 16 * st.haltReason.toNat else st.phase.code) + 2 ^ 8 else 0
  else if o = 0x28 then st.readIdx.toNat
  else if o = 0x2C then st.producer.toNat
  else if o = 0x34 then
    match s.job j with
    | some x => x.phase.code + 2 ^ 4 * x.attempt.toNat + 2 ^ 8 * (s.jobClusters j).length + 2 ^ 31
    | none => 0
  else (s.reg (0x40000 + o)).toNat

/-- ASP (R472). -/
def State.readAsp (s : State) (o : Nat) : Nat :=
  let sp := s.space s.aspSel
  if o = 0x24 then 0
  else if o = 0x28 then sp.genctr.toNat
  else if o = 0x2C then sp.entries.length
  else if o = 0x30 then
    regBit sp.enabled 0 + regBit (s.jobIds.any (fun j => decide (((s.job j).map (·.aspace)) = some s.aspSel))) 1
      + 2 ^ 16 * sp.function.val
  else (s.reg (0x50000 + o)).toNat

/-- ERR (R304, R348). -/
def State.readErr (s : State) (o : Nat) : Nat :=
  let sel := s.reg 0x60004
  let n := (bitsAt (s.reg 0x60014) 0 6).toNat
  if o = 0 then s.integ.logNext.toNat
  else if o = 8 then regBit (s.logHeld sel) 0
  else if o = 0x18 then
    if n < 48 then min (s.suspectCount (ClusterId.ofNat' n)) 15 + regBit (s.integ.retired.getLsbD n) 8 else 0
  else if o = 0x1C ∨ o = 0x108 then 0
  else if o = 0x104 then
    match s.talonOf (bitsAt (s.reg 0x60100) 0 8).toNat (bitsAt (s.reg 0x60100) 8 8).toNat with
    | some f => 1 + regBit f.dumped 1 + 2 ^ 8 * jobByte f.job + 2 ^ 16 * f.cause.toNat
    | none => 0
  else if o = 0x10C then s.integ.talon.length % 256
  else if 0x1000 ≤ o ∧ o < 0x1100 then ofBytes (((s.logBytes sel).drop (o - 0x1000)).take 4)
  else (s.reg (0x60000 + o)).toNat

/-- Device codes of DMP_STATE (R451). -/
def DeviceState.code : DeviceState → Nat
  | .booting => 0 | .off => 0 | .ready => 1 | .failed => 2 | .recovery => 3

/-- DMP (R451). -/
def State.readDmp (s : State) (o : Nat) : Nat :=
  if o = 0 then s.card.device.code + 2 ^ 4 * s.integ.dumpState.toNat + 2 ^ 8 * s.integ.reason.toNat
  else if o = 8 then s.integ.dumpBase % 2 ^ 32
  else if o = 0xC then s.integ.dumpBase / 2 ^ 32
  else if o = 0x18 then regBit ((s.reg 0x70018).getLsbD 0) 0 + regBit s.integ.summaryErr 8
  else if o = 0x1C then s.completeSections
  else if 0x100 ≤ o ∧ o < 0x190 then s.integ.meas.toNat / 2 ^ (8 * (o - 0x100)) % 2 ^ 32
  else if o = 0x190 then s.integ.svn.toNat + regBit s.integ.slot 16
  else (s.reg (0x70000 + o)).toNat

/-- TB (R388, R473): the root reads LOCKED with HOPS 0 and offset 0. -/
def State.readTb (s : State) (o : Nat) : Nat :=
  if o = 0 then s.shownTick.toNat % 2 ^ 32
  else if o = 4 then (s.setup.latch.getD (bitsAt s.shownTick 32 32)).toNat
  else if o = 0x10 then if s.isRoot then 1 else s.fabric.tbState.toNat + 2 ^ 8 * s.fabric.tbHops.toNat
  else if s.isRoot then 0 else s.fabric.tbOffset.toNat

/-- The counters of a port that clear when they are read (R376). -/
def Port.counter (x : Port) (k : Nat) : W32 :=
  if k = 0 then x.cwFail else if k = 1 then x.crcFail else if k = 2 then x.replays else x.retrains

/-- EVL (R363, R376, R475). -/
def State.readEvl (s : State) (p : PortId) (o : Nat) : Nat :=
  let x := s.port p
  if o = 8 then
    x.lstate.toNat + ((List.range 4).map (fun l => regBit (x.lane l).up (4 + l))).sum + regBit x.cable 8
      + 2 ^ 16 * (x.superframe.toNat % 2 ^ 16)
  else if inRun o 0x10 4 4 then
    let l := x.lane ((o - 0x10) / 4)
    tableBits l.rx + regBit l.rxBank 16 + regBit l.rxSwap.isSome 17
  else if inRun o 0x20 4 4 then (x.counter ((o - 0x20) / 4)).toNat
  else if o = 0x38 then x.neigh.toNat + regBit x.neighValid 15
  else if o = 0x3C then 0
  else if 0x1000 ≤ o then
    let l := x.lane ((o - 0x1000) / 0x200)
    let k := 2 * (o % 0x200)
    ((List.range 8).map (fun i => (nthD l.rx (k + i) 0).toNat * 2 ^ (4 * i))).sum
  else (s.reg (evlBase p + o)).toNat

/-- CL (R28, R29, R474). -/
def State.readCl (s : State) (c : ClusterId) (o : Nat) : Nat :=
  let x := s.cluster c
  if o = 0 then (s.clId c).toNat
  else if s.isLive c = false then 0
  else if o = 4 then regBit x.k.det 0
  else if o = 8 then
    1 + regBit x.powered 1 + regBit x.job.isSome 2 + regBit (decide (s.site c ≠ c.val)) 3
      + (match x.job with
        | some (j, i) => 2 ^ 8 * j.val + 2 ^ 16 * i.toNat
        | none => 0)
      + 2 ^ 24 * x.k.level.toNat + regBit (decide (x.k.run = .faultStop)) 26 + regBit (decide (x.k.run = .parked)) 27
      + regBit (s.clusterHeld c) 28
  else 0

/-- The value of the 4-byte register at an offset: zero where none is assigned (R410), and outside GEN, FUSE, HIF and DMP in RECOVERY
(R467). -/
def State.bar0Read (s : State) (off : Nat) : W32 :=
  BitVec.ofNat 32 (
    if 0x1000 ≤ off ∧ off < 0x2000 then s.readFuse (off - 0x1000)
    else if 0x1000000 ≤ off ∧ off < 0x1300000 then
      if s.card.device = .recovery then 0
      else s.readCl (ClusterId.ofNat' ((off - 0x1000000) / 0x10000)) (off % 0x10000)
    else if inMsixTable off then s.readHif (off - 0x30000)
    else if (fields off).isNone then 0
    else if off < 0x1000 then s.readGen off
    else if 0x30000 ≤ off ∧ off < 0x40000 then s.readHif (off - 0x30000)
    else if 0x70000 ≤ off ∧ off < 0x80000 then s.readDmp (off - 0x70000)
    else if s.card.device = .recovery then 0
    else if off < 0x20000 then s.readClk (off - 0x10000)
    else if off < 0x30000 then s.readPwr (off - 0x20000)
    else if off < 0x50000 then s.readStb (off - 0x40000)
    else if off < 0x60000 then s.readAsp (off - 0x50000)
    else if off < 0x70000 then s.readErr (off - 0x60000)
    else if off < 0x80100 then s.readTb (off - 0x80000)
    else s.readEvl (evlPort off) (off % 0x10000))

/-- The value of the 4-byte register at an offset of a VF's BAR0 (R413); none where none is listed, which holds the VF in Talon (R414). -/
def State.vfBar0Read (s : State) (f : FunctionId) (off : Nat) : Option W32 :=
  (if vfListed off then
    some (if off = 0 then f.val
      else if off = 4 then 0
      else if off = 8 then regBit (s.frozen .vf f.val) 0
      else if off < 0xC000 then (s.msix f.val ((off - 0x8000) / 16)).word (off % 16)
      else ((List.range 32).map (fun k => regBit (s.msix f.val (8 * (off - 0xC000) + k)).pending k)).sum)
  else none).map (BitVec.ofNat 32)

/-- Answer a 4-byte read. -/
def State.readReply (s : State) (off : Nat) : State := s.emit (.mmioData ((s.bar0Read off).setWidth 64))

/-- GEN_SETUP_ERR_READ (R469). -/
def execGenSetupErrRead (s : State) : Result :=
  .next (if s.hostAnswers then
    let s1 := s.readReply 0x10
    { s1 with setup := { s1.setup with errCount := 0 } }
  else s)

/-- STB_EVT_LOST_READ (R62); RECOVERY reads zero and clears nothing. -/
def execStbEvtLostRead (s : State) : Result :=
  .next (if s.hostAnswers then
    let s1 := s.readReply 0x4001C
    if s.card.device = .recovery then s1 else { s1 with sched := { s1.sched with evtLost := 0 } }
  else s)

/-- EVL_COUNTER_READ (R376). -/
def execEvlCounterRead (p : PortId) (k : Fin 4) (s : State) : Result :=
  .next (if s.hostAnswers then
    let s1 := s.readReply (evlBase p + 0x20 + 4 * k.val)
    if s.card.device = .recovery then s1
    else s1.modPort p (fun x =>
      if k = 0 then { x with cwFail := 0 } else if k = 1 then { x with crcFail := 0 }
      else if k = 2 then { x with replays := 0 } else { x with retrains := 0 })
  else s)

/-- TB_TIME_LO_READ (R473): bits 63 to 32 of the same tick are latched. -/
def execTbTimeLoRead (s : State) : Result :=
  .next (if s.hostAnswers then
    let s1 := s.readReply 0x80000
    if s.card.device = .recovery then s1
    else { s1 with setup := { s1.setup with latch := some (bitsAt s1.shownTick 32 32) } }
  else s)

end Sys2Proof.Machine
end

