-- ==== Sys2Proof/Machine/Dispatch.lean ====
section
/-! DEFINITION. The dispatcher: one arm per command, each a direct call of the meaning of its own. -/
namespace Sys2Proof.Machine

def exec (i : Instr) (s : State) : Host.Outcome State Fault Refusal :=
  match i with
  | .doorbellPoll line reply => Sys2Proof.Machine.execDoorbellPoll line reply s
  | .descriptorFetch st reply => Sys2Proof.Machine.execDescriptorFetch st reply s
  | .headReread r reply => Sys2Proof.Machine.execHeadReread r reply s
  | .heldRecordWrite r => Sys2Proof.Machine.execHeldRecordWrite r s
  | .faultRecordWrite => Sys2Proof.Machine.execFaultRecordWrite s
  | .coalesceTimeout n => Sys2Proof.Machine.execCoalesceTimeout n s
  | .msixRelease f enable mask => Sys2Proof.Machine.execMsixRelease f enable mask s
  | .periodBoundary st => Sys2Proof.Machine.execPeriodBoundary st s
  | .dropComplete st => Sys2Proof.Machine.execDropComplete st s
  | .budgetExhausted st => Sys2Proof.Machine.execBudgetExhausted st s
  | .admission j => Sys2Proof.Machine.execAdmission j s
  | .preemption st => Sys2Proof.Machine.execPreemption st s
  | .contextSave c => Sys2Proof.Machine.execContextSave c s
  | .contextRestore c => Sys2Proof.Machine.execContextRestore c s
  | .clusterGrant j c => Sys2Proof.Machine.execClusterGrant j c s
  | .nop st idx => Sys2Proof.Machine.execNop st idx s
  | .jobStart st idx => Sys2Proof.Machine.execJobStart st idx s
  | .jobEnd st idx => Sys2Proof.Machine.execJobEnd st idx s
  | .jobEndAbort st idx => Sys2Proof.Machine.execJobEndAbort st idx s
  | .fenceDescriptor st idx => Sys2Proof.Machine.execFenceDescriptor st idx s
  | .timestamp st idx => Sys2Proof.Machine.execTimestamp st idx s
  | .periodMark st idx => Sys2Proof.Machine.execPeriodMark st idx s
  | .codeSync st idx => Sys2Proof.Machine.execCodeSync st idx s
  | .kernel st idx => Sys2Proof.Machine.execKernel st idx s
  | .copy st idx => Sys2Proof.Machine.execCopy st idx s
  | .convert st idx => Sys2Proof.Machine.execConvert st idx s
  | .convStripe st idx => Sys2Proof.Machine.execConvStripe st idx s
  | .convLoaf st idx => Sys2Proof.Machine.execConvLoaf st idx s
  | .pool st idx => Sys2Proof.Machine.execPool st idx s
  | .attn st idx => Sys2Proof.Machine.execAttn st idx s
  | .kvAppend st idx => Sys2Proof.Machine.execKvAppend st idx s
  | .kvBusyRetry st idx => Sys2Proof.Machine.execKvBusyRetry st idx s
  | .insert st idx => Sys2Proof.Machine.execInsert st idx s
  | .modify st idx => Sys2Proof.Machine.execModify st idx s
  | .modifyDrainDone st idx => Sys2Proof.Machine.execModifyDrainDone st idx s
  | .clearCounts st idx => Sys2Proof.Machine.execClearCounts st idx s
  | .withdraw st idx => Sys2Proof.Machine.execWithdraw st idx s
  | .withdrawRemove st idx => Sys2Proof.Machine.execWithdrawRemove st idx s
  | .migrate st idx => Sys2Proof.Machine.execMigrate st idx s
  | .migrateCopySegment st idx => Sys2Proof.Machine.execMigrateCopySegment st idx s
  | .migrateSwap st idx => Sys2Proof.Machine.execMigrateSwap st idx s
  | .resume st idx => Sys2Proof.Machine.execResume st idx s
  | .checkpointSave st idx => Sys2Proof.Machine.execCheckpointSave st idx s
  | .checkpointRestore st idx => Sys2Proof.Machine.execCheckpointRestore st idx s
  | .stbStreamLoad data reply => Sys2Proof.Machine.execStbStreamLoad data reply s
  | .vfStreamLoad f data reply => Sys2Proof.Machine.execVfStreamLoad f data reply s
  | .stbJobAbort data => Sys2Proof.Machine.execStbJobAbort data s
  | .ringEnable r data => Sys2Proof.Machine.execRingEnable r data s
  | .ringDisable r data => Sys2Proof.Machine.execRingDisable r data s
  | .aspLoad data => Sys2Proof.Machine.execAspLoad data s
  | .errUnfreeze data => Sys2Proof.Machine.execErrUnfreeze data s
  | .errRetireClear data => Sys2Proof.Machine.execErrRetireClear data s
  | .pwrUnitReset data => Sys2Proof.Machine.execPwrUnitReset data s
  | .unitResetDone kind number => Sys2Proof.Machine.execUnitResetDone kind number s
  | .storeDrainLimit c => Sys2Proof.Machine.execStoreDrainLimit c s
  | .pwrL2qWayon q data => Sys2Proof.Machine.execPwrL2qWayon q data s
  | .wayOff q way => Sys2Proof.Machine.execWayOff q way s
  | .pwrL2qOff data => Sys2Proof.Machine.execPwrL2qOff data s
  | .retrain p data => Sys2Proof.Machine.execRetrain p data s
  | .evlDrain p data => Sys2Proof.Machine.execEvlDrain p data s
  | .genSetupErrRead => Sys2Proof.Machine.execGenSetupErrRead s
  | .stbEvtLostRead => Sys2Proof.Machine.execStbEvtLostRead s
  | .evlCounterRead p k => Sys2Proof.Machine.execEvlCounterRead p k s
  | .tbTimeLoRead => Sys2Proof.Machine.execTbTimeLoRead s
  | .hifRingErrClear k data => Sys2Proof.Machine.execHifRingErrClear k data s
  | .setupRegisterWrite f off size data => Sys2Proof.Machine.execSetupRegisterWrite f off size data s
  | .add c rd ra rb => Sys2Proof.Machine.execAdd c rd ra rb s
  | .sub c rd ra rb => Sys2Proof.Machine.execSub c rd ra rb s
  | .and c rd ra rb => Sys2Proof.Machine.execAnd c rd ra rb s
  | .or c rd ra rb => Sys2Proof.Machine.execOr c rd ra rb s
  | .xor c rd ra rb => Sys2Proof.Machine.execXor c rd ra rb s
  | .sll c rd ra rb => Sys2Proof.Machine.execSll c rd ra rb s
  | .srl c rd ra rb => Sys2Proof.Machine.execSrl c rd ra rb s
  | .sra c rd ra rb => Sys2Proof.Machine.execSra c rd ra rb s
  | .slt c rd ra rb => Sys2Proof.Machine.execSlt c rd ra rb s
  | .sltu c rd ra rb => Sys2Proof.Machine.execSltu c rd ra rb s
  | .min c rd ra rb => Sys2Proof.Machine.execMin c rd ra rb s
  | .max c rd ra rb => Sys2Proof.Machine.execMax c rd ra rb s
  | .minu c rd ra rb => Sys2Proof.Machine.execMinu c rd ra rb s
  | .maxu c rd ra rb => Sys2Proof.Machine.execMaxu c rd ra rb s
  | .addi c rd ra imm => Sys2Proof.Machine.execAddi c rd ra imm s
  | .andi c rd ra imm => Sys2Proof.Machine.execAndi c rd ra imm s
  | .ori c rd ra imm => Sys2Proof.Machine.execOri c rd ra imm s
  | .xori c rd ra imm => Sys2Proof.Machine.execXori c rd ra imm s
  | .slli c rd ra imm => Sys2Proof.Machine.execSlli c rd ra imm s
  | .srli c rd ra imm => Sys2Proof.Machine.execSrli c rd ra imm s
  | .srai c rd ra imm => Sys2Proof.Machine.execSrai c rd ra imm s
  | .slti c rd ra imm => Sys2Proof.Machine.execSlti c rd ra imm s
  | .liw c rd imm => Sys2Proof.Machine.execLiw c rd imm s
  | .liws c rd imm => Sys2Proof.Machine.execLiws c rd imm s
  | .pca c rd imm => Sys2Proof.Machine.execPca c rd imm s
  | .lb c rd ra imm => Sys2Proof.Machine.execLb c rd ra imm s
  | .lh c rd ra imm => Sys2Proof.Machine.execLh c rd ra imm s
  | .lw c rd ra imm => Sys2Proof.Machine.execLw c rd ra imm s
  | .ld c rd ra imm => Sys2Proof.Machine.execLd c rd ra imm s
  | .lbu c rd ra imm => Sys2Proof.Machine.execLbu c rd ra imm s
  | .lhu c rd ra imm => Sys2Proof.Machine.execLhu c rd ra imm s
  | .lwu c rd ra imm => Sys2Proof.Machine.execLwu c rd ra imm s
  | .sb c rb ra imm => Sys2Proof.Machine.execSb c rb ra imm s
  | .sh c rb ra imm => Sys2Proof.Machine.execSh c rb ra imm s
  | .sw c rb ra imm => Sys2Proof.Machine.execSw c rb ra imm s
  | .sd c rb ra imm => Sys2Proof.Machine.execSd c rb ra imm s
  | .atadd c rd ra rb minor => Sys2Proof.Machine.execAtadd c rd ra rb minor s
  | .atmin c rd ra rb minor => Sys2Proof.Machine.execAtmin c rd ra rb minor s
  | .atmax c rd ra rb minor => Sys2Proof.Machine.execAtmax c rd ra rb minor s
  | .atswp c rd ra rb minor => Sys2Proof.Machine.execAtswp c rd ra rb minor s
  | .atcas c rd ra rb minor => Sys2Proof.Machine.execAtcas c rd ra rb minor s
  | .atfadd c rd ra rb minor => Sys2Proof.Machine.execAtfadd c rd ra rb minor s
  | .beq c ra rb imm => Sys2Proof.Machine.execBeq c ra rb imm s
  | .bne c ra rb imm => Sys2Proof.Machine.execBne c ra rb imm s
  | .blt c ra rb imm => Sys2Proof.Machine.execBlt c ra rb imm s
  | .bge c ra rb imm => Sys2Proof.Machine.execBge c ra rb imm s
  | .bltu c ra rb imm => Sys2Proof.Machine.execBltu c ra rb imm s
  | .bgeu c ra rb imm => Sys2Proof.Machine.execBgeu c ra rb imm s
  | .jmp c imm => Sys2Proof.Machine.execJmp c imm s
  | .call c imm => Sys2Proof.Machine.execCall c imm s
  | .jmpr c rd ra imm => Sys2Proof.Machine.execJmpr c rd ra imm s
  | .callr c rd ra imm => Sys2Proof.Machine.execCallr c rd ra imm s
  | .ret c rd ra imm => Sys2Proof.Machine.execRet c rd ra imm s
  | .mul c rd ra rb => Sys2Proof.Machine.execMul c rd ra rb s
  | .mulh c rd ra rb => Sys2Proof.Machine.execMulh c rd ra rb s
  | .mulhu c rd ra rb => Sys2Proof.Machine.execMulhu c rd ra rb s
  | .div c rd ra rb => Sys2Proof.Machine.execDiv c rd ra rb s
  | .divu c rd ra rb => Sys2Proof.Machine.execDivu c rd ra rb s
  | .rem c rd ra rb => Sys2Proof.Machine.execRem c rd ra rb s
  | .remu c rd ra rb => Sys2Proof.Machine.execRemu c rd ra rb s
  | .mfsr c rd ra code => Sys2Proof.Machine.execMfsr c rd ra code s
  | .mtsr c rd ra code => Sys2Proof.Machine.execMtsr c rd ra code s
  | .escalate c rd ra => Sys2Proof.Machine.execEscalate c rd ra s
  | .sspush c rd ra => Sys2Proof.Machine.execSspush c rd ra s
  | .modeDet c rd ra => Sys2Proof.Machine.execModeDet c rd ra s
  | .eret c rd ra code => Sys2Proof.Machine.execEret c rd ra code s
  | .trapi c rd ra code => Sys2Proof.Machine.execTrapi c rd ra code s
  | .breakK c rd ra code => Sys2Proof.Machine.execBreakK c rd ra code s
  | .illegalOp c word => Sys2Proof.Machine.execIllegalOp c word s
  | .wfi c rd ra code => Sys2Proof.Machine.execWfi c rd ra code s
  | .iflush c rd ra code => Sys2Proof.Machine.execIflush c rd ra code s
  | .kend c rd ra code => Sys2Proof.Machine.execKend c rd ra code s
  | .clean c rd ra imm => Sys2Proof.Machine.execClean c rd ra imm s
  | .inval c rd ra imm => Sys2Proof.Machine.execInval c rd ra imm s
  | .cleanInval c rd ra imm => Sys2Proof.Machine.execCleanInval c rd ra imm s
  | .cleanSw c rd ra imm => Sys2Proof.Machine.execCleanSw c rd ra imm s
  | .invalSw c rd ra imm => Sys2Proof.Machine.execInvalSw c rd ra imm s
  | .cleanInvalSw c rd ra imm => Sys2Proof.Machine.execCleanInvalSw c rd ra imm s
  | .fence c rd ra imm => Sys2Proof.Machine.execFence c rd ra imm s
  | .fenceV c rd ra imm => Sys2Proof.Machine.execFenceV c rd ra imm s
  | .fenceH c rd ra imm => Sys2Proof.Machine.execFenceH c rd ra imm s
  | .timer c => Sys2Proof.Machine.execTimer c s
  | .interruptEntry c => Sys2Proof.Machine.execInterruptEntry c s
  | .harrierReportAccept c => Sys2Proof.Machine.execHarrierReportAccept c s
  | .watchdog c => Sys2Proof.Machine.execWatchdog c s
  | .owlLimit c => Sys2Proof.Machine.execOwlLimit c s
  | .vadd c f => Sys2Proof.Machine.execVadd c f s
  | .vsub c f => Sys2Proof.Machine.execVsub c f s
  | .vmul c f => Sys2Proof.Machine.execVmul c f s
  | .vmulh c f => Sys2Proof.Machine.execVmulh c f s
  | .vmin c f => Sys2Proof.Machine.execVmin c f s
  | .vmax c f => Sys2Proof.Machine.execVmax c f s
  | .vand c f => Sys2Proof.Machine.execVand c f s
  | .vor c f => Sys2Proof.Machine.execVor c f s
  | .vxor c f => Sys2Proof.Machine.execVxor c f s
  | .vsll c f => Sys2Proof.Machine.execVsll c f s
  | .vsrl c f => Sys2Proof.Machine.execVsrl c f s
  | .vsra c f => Sys2Proof.Machine.execVsra c f s
  | .vabs c f => Sys2Proof.Machine.execVabs c f s
  | .vneg c f => Sys2Proof.Machine.execVneg c f s
  | .vabsd c f => Sys2Proof.Machine.execVabsd c f s
  | .vdiv c f => Sys2Proof.Machine.execVdiv c f s
  | .vsqrt c f => Sys2Proof.Machine.execVsqrt c f s
  | .vfma c f => Sys2Proof.Machine.execVfma c f s
  | .vfms c f => Sys2Proof.Machine.execVfms c f s
  | .vfnma c f => Sys2Proof.Machine.execVfnma c f s
  | .vfmac c f => Sys2Proof.Machine.execVfmac c f s
  | .vopa c f => Sys2Proof.Machine.execVopa c f s
  | .vcmpEq c f => Sys2Proof.Machine.execVcmpEq c f s
  | .vcmpNe c f => Sys2Proof.Machine.execVcmpNe c f s
  | .vcmpLt c f => Sys2Proof.Machine.execVcmpLt c f s
  | .vcmpLe c f => Sys2Proof.Machine.execVcmpLe c f s
  | .vcmpGt c f => Sys2Proof.Machine.execVcmpGt c f s
  | .vcmpGe c f => Sys2Proof.Machine.execVcmpGe c f s
  | .slideup c f => Sys2Proof.Machine.execSlideup c f s
  | .slidedn c f => Sys2Proof.Machine.execSlidedn c f s
  | .vgather c f => Sys2Proof.Machine.execVgather c f s
  | .compress c f => Sys2Proof.Machine.execCompress c f s
  | .bcast c f => Sys2Proof.Machine.execBcast c f s
  | .mvg c f => Sys2Proof.Machine.execMvg c f s
  | .mvto c f => Sys2Proof.Machine.execMvto c f s
  | .vcvt c f => Sys2Proof.Machine.execVcvt c f s
  | .vredsum c f => Sys2Proof.Machine.execVredsum c f s
  | .vredmax c f => Sys2Proof.Machine.execVredmax c f s
  | .vredmin c f => Sys2Proof.Machine.execVredmin c f s
  | .vredand c f => Sys2Proof.Machine.execVredand c f s
  | .vredor c f => Sys2Proof.Machine.execVredor c f s
  | .vredxor c f => Sys2Proof.Machine.execVredxor c f s
  | .vld c f => Sys2Proof.Machine.execVld c f s
  | .vst c f => Sys2Proof.Machine.execVst c f s
  | .vlds c f => Sys2Proof.Machine.execVlds c f s
  | .vsts c f => Sys2Proof.Machine.execVsts c f s
  | .vldx c f => Sys2Proof.Machine.execVldx c f s
  | .vstx c f => Sys2Proof.Machine.execVstx c f s
  | .vldseg c f => Sys2Proof.Machine.execVldseg c f s
  | .vstseg c f => Sys2Proof.Machine.execVstseg c f s
  | .vsetvl c f => Sys2Proof.Machine.execVsetvl c f s
  | .vpand c f => Sys2Proof.Machine.execVpand c f s
  | .vpor c f => Sys2Proof.Machine.execVpor c f s
  | .vpnot c f => Sys2Proof.Machine.execVpnot c f s
  | .vpcnt c f => Sys2Proof.Machine.execVpcnt c f s
  | .mma c f => Sys2Proof.Machine.execMma c f s
  | .accZero c f => Sys2Proof.Machine.execAccZero c f s
  | .accPromote c f => Sys2Proof.Machine.execAccPromote c f s
  | .accSeed c f => Sys2Proof.Machine.execAccSeed c f s
  | .trd c f => Sys2Proof.Machine.execTrd c f s
  | .twr c f => Sys2Proof.Machine.execTwr c f s
  | .l1dFill c set way => Sys2Proof.Machine.execL1dFill c set way s
  | .walk c port va => Sys2Proof.Machine.execWalk c port va s
  | .moverRequest c src dst len completion => Sys2Proof.Machine.execMoverRequest c src dst len completion s
  | .moverSegment c => Sys2Proof.Machine.execMoverSegment c s
  | .xactTimeout c m w => Sys2Proof.Machine.execXactTimeout c m w s
  | .talonDumpDone m number => Sys2Proof.Machine.execTalonDumpDone m number s
  | .clusterRetire c => Sys2Proof.Machine.execClusterRetire c s
  | .correctedEccLimit c => Sys2Proof.Machine.execCorrectedEccLimit c s
  | .sliceLost slice tagsRead reason => Sys2Proof.Machine.execSliceLost slice tagsRead reason s
  | .stackLost stack reason => Sys2Proof.Machine.execStackLost stack reason s
  | .cablePresent p => Sys2Proof.Machine.execCablePresent p s
  | .lock p => Sys2Proof.Machine.execLock p s
  | .preambleDetect p corr => Sys2Proof.Machine.execPreambleDetect p corr s
  | .correlatorTimeout p => Sys2Proof.Machine.execCorrelatorTimeout p s
  | .probe p lanes => Sys2Proof.Machine.execProbe p lanes s
  | .exchange p peer => Sys2Proof.Machine.execExchange p peer s
  | .verify p expected => Sys2Proof.Machine.execVerify p expected s
  | .lanePllUnlock p => Sys2Proof.Machine.execLanePllUnlock p s
  | .superframeEnd p lanes => Sys2Proof.Machine.execSuperframeEnd p lanes s
  | .loadPropose p lane id sf table => Sys2Proof.Machine.execLoadPropose p lane id sf table s
  | .loadAccept p lane id sf => Sys2Proof.Machine.execLoadAccept p lane id sf s
  | .codewordDecode p at_ word => Sys2Proof.Machine.execCodewordDecode p at_ word s
  | .holdExpiry p => Sys2Proof.Machine.execHoldExpiry p s
  | .nak p seq => Sys2Proof.Machine.execNak p seq s
  | .resync p seq => Sys2Proof.Machine.execResync p seq s
  | .replayTimeout p => Sys2Proof.Machine.execReplayTimeout p s
  | .hello p peer role => Sys2Proof.Machine.execHello p peer role s
  | .forward p pkt => Sys2Proof.Machine.execForward p pkt s
  | .peerRead p pkt => Sys2Proof.Machine.execPeerRead p pkt s
  | .peerWrite p pkt => Sys2Proof.Machine.execPeerWrite p pkt s
  | .peerAtomic p pkt => Sys2Proof.Machine.execPeerAtomic p pkt s
  | .readRsp p pkt => Sys2Proof.Machine.execReadRsp p pkt s
  | .writeAck p pkt => Sys2Proof.Machine.execWriteAck p pkt s
  | .atomicRsp p pkt => Sys2Proof.Machine.execAtomicRsp p pkt s
  | .remoteRequestLimit tag => Sys2Proof.Machine.execRemoteRequestLimit tag s
  | .timeExchange => Sys2Proof.Machine.execTimeExchange s
  | .timePacket p t1 t2 t3 t4 hops => Sys2Proof.Machine.execTimePacket p t1 t2 t3 t4 hops s
  | .ringCut p dim link src => Sys2Proof.Machine.execRingCut p dim link src s
  | .ringJoin p dim link src => Sys2Proof.Machine.execRingJoin p dim link src s
  | .perchIdle p => Sys2Proof.Machine.execPerchIdle p s
  | .roostIdle p => Sys2Proof.Machine.execRoostIdle p s
  | .sleepReq p roost => Sys2Proof.Machine.execSleepReq p roost s
  | .sleepAck p roost => Sys2Proof.Machine.execSleepAck p roost s
  | .sleepConfirm p => Sys2Proof.Machine.execSleepConfirm p s
  | .sleepAbort p => Sys2Proof.Machine.execSleepAbort p s
  | .wakeRequest p => Sys2Proof.Machine.execWakeRequest p s
  | .stoop p => Sys2Proof.Machine.execStoop p s
  | .ckptOpen p pkt => Sys2Proof.Machine.execCkptOpen p pkt s
  | .ckptData p pkt => Sys2Proof.Machine.execCkptData p pkt s
  | .ckptSeal p pkt => Sys2Proof.Machine.execCkptSeal p pkt s
  | .ckptAck p pkt => Sys2Proof.Machine.execCkptAck p pkt s
  | .ckptRead p pkt => Sys2Proof.Machine.execCkptRead p pkt s
  | .ckptReadRsp p pkt => Sys2Proof.Machine.execCkptReadRsp p pkt s
  | .fillingTimeout slot => Sys2Proof.Machine.execFillingTimeout slot s
  | .coldReset b => Sys2Proof.Machine.execColdReset b s
  | .warmReset b => Sys2Proof.Machine.execWarmReset b s
  | .perstDeassert => Sys2Proof.Machine.execPerstDeassert s
  | .hotReset => Sys2Proof.Machine.execHotReset s
  | .dlDown => Sys2Proof.Machine.execDlDown s
  | .pfFlr => Sys2Proof.Machine.execPfFlr s
  | .d3hotEntry => Sys2Proof.Machine.execD3hotEntry s
  | .vfFlr f => Sys2Proof.Machine.execVfFlr f s
  | .vfEnableClear => Sys2Proof.Machine.execVfEnableClear s
  | .bar2Read off len => Sys2Proof.Machine.execBar2Read off len s
  | .bar2Write off bytes => Sys2Proof.Machine.execBar2Write off bytes s
  | .vfBar2Access f off access => Sys2Proof.Machine.execVfBar2Access f off access s
  | .atomicop => Sys2Proof.Machine.execAtomicop s
  | .setEndpointId op eid => Sys2Proof.Machine.execSetEndpointId op eid s
  | .getEndpointId => Sys2Proof.Machine.execGetEndpointId s
  | .getEndpointUuid => Sys2Proof.Machine.execGetEndpointUuid s
  | .getMctpVersionSupport type => Sys2Proof.Machine.execGetMctpVersionSupport type s
  | .getMessageTypeSupport => Sys2Proof.Machine.execGetMessageTypeSupport s
  | .unsupportedMessageType type => Sys2Proof.Machine.execUnsupportedMessageType type s
  | .getTid => Sys2Proof.Machine.execGetTid s
  | .setTid tid => Sys2Proof.Machine.execSetTid tid s
  | .getPldmVersion type => Sys2Proof.Machine.execGetPldmVersion type s
  | .getPldmTypes => Sys2Proof.Machine.execGetPldmTypes s
  | .getPldmCommands type => Sys2Proof.Machine.execGetPldmCommands type s
  | .getPdrRepositoryInfo => Sys2Proof.Machine.execGetPdrRepositoryInfo s
  | .getPdr handle => Sys2Proof.Machine.execGetPdr handle s
  | .getSensorReading id => Sys2Proof.Machine.execGetSensorReading id s
  | .getStateSensorReadings id => Sys2Proof.Machine.execGetStateSensorReadings id s
  | .powerCap watts => Sys2Proof.Machine.execPowerCap watts s
  | .retireClearEffecter cluster => Sys2Proof.Machine.execRetireClearEffecter cluster s
  | .getNumericEffecterValue id => Sys2Proof.Machine.execGetNumericEffecterValue id s
  | .setStateEffecterStates id value => Sys2Proof.Machine.execSetStateEffecterStates id value s
  | .setEventReceiver enable eid => Sys2Proof.Machine.execSetEventReceiver enable eid s
  | .getFruRecordTableMetadata => Sys2Proof.Machine.execGetFruRecordTableMetadata s
  | .getFruRecordTable => Sys2Proof.Machine.execGetFruRecordTable s
  | .readErrorLog seq => Sys2Proof.Machine.execReadErrorLog seq s
  | .readIdentity => Sys2Proof.Machine.execReadIdentity s
  | .firmwareTransfer component off bytes => Sys2Proof.Machine.execFirmwareTransfer component off bytes s
  | .verifyComplete component sigOk svn => Sys2Proof.Machine.execVerifyComplete component sigOk svn s
  | .activateFirmware selfContained => Sys2Proof.Machine.execActivateFirmware selfContained s
  | .getStatus => Sys2Proof.Machine.execGetStatus s
  | .cancelUpdate => Sys2Proof.Machine.execCancelUpdate s
  | .cancelUpdateComponent => Sys2Proof.Machine.execCancelUpdateComponent s
  | .powerLoop mw => Sys2Proof.Machine.execPowerLoop mw s
  | .thermalSample temp => Sys2Proof.Machine.execThermalSample temp s
  | .stackTemperature stack temp => Sys2Proof.Machine.execStackTemperature stack temp s
  | .supplyCutoff => Sys2Proof.Machine.execSupplyCutoff s
  | .clusterIdlePowerDown c => Sys2Proof.Machine.execClusterIdlePowerDown c s
  | .selfRefresh stack => Sys2Proof.Machine.execSelfRefresh stack s
  | .rootPllUnlock => Sys2Proof.Machine.execRootPllUnlock s
  | .stewardFault cause => Sys2Proof.Machine.execStewardFault cause s
  | .stewardWatchdog => Sys2Proof.Machine.execStewardWatchdog s
  | .networkUncorrectable stop => Sys2Proof.Machine.execNetworkUncorrectable stop s
  | .dumpSectionTimeout => Sys2Proof.Machine.execDumpSectionTimeout s
  | .dumpTimeout => Sys2Proof.Machine.execDumpTimeout s
  | .vectorUnmask f v => Sys2Proof.Machine.execVectorUnmask f v s
  | .completionTimeout r => Sys2Proof.Machine.execCompletionTimeout r s
  | .controllerHang stack => Sys2Proof.Machine.execControllerHang stack s
  | .powerRemoval => Sys2Proof.Machine.execPowerRemoval s
  | .cableRemoval p => Sys2Proof.Machine.execCableRemoval p s
  | .correlatorNoiseFire p corr => Sys2Proof.Machine.execCorrelatorNoiseFire p corr s
  | .wayPowerUp q way => Sys2Proof.Machine.execWayPowerUp q way s
  | .resetHoldEnd kind number => Sys2Proof.Machine.execResetHoldEnd kind number s

end Sys2Proof.Machine
end

