-- ==== Sys2Proof/Machine/Tick.lean ====
section
/-! DEFINITION. One tick of the timebase: what goes on whatever is commanded. It is what a step does on an empty queue (log entry
1). -/
namespace Sys2Proof.Machine

/-- The timebase and its slew: one tick, and in at most one of 1,000 ticks two or none (R388). -/
def State.tickTime (s : State) : State :=
  let d : Int := s.fabric.tbSlew
  if s.fabric.tbSlewIn = 0 ∧ d ≠ 0 then
    { s with
      tick := if 0 < d then s.tick + 2 else s.tick
      fabric := { s.fabric with tbSlew := if 0 < d then d - 1 else d + 1, tbSlewIn := 999 } }
  else { s with tick := s.tick + 1, fabric := { s.fabric with tbSlewIn := s.fabric.tbSlewIn - 1 } }

/-- The stream a cluster is charged to, if it runs: it runs a share of a periodic stream's descriptor, and its Kestrel is
neither stopped, waiting for a fault, parked nor halted (R49). -/
def State.chargedTo (s : State) (c : ClusterId) : Option StreamId :=
  match (s.cluster c).share with
  | some sh =>
    let r := (s.cluster c).k.run
    if (s.stream sh.st).periodic && (s.mayRun c && decide (r = .running ∨ r = .waiting ∨ r = .remote)) then some sh.st
    else none
  | none => none

/-- Charge one cluster-tick for each running cluster (R49). -/
def State.chargeBudgets (s : State) : State :=
  allClusters.foldl (fun s c =>
    match s.chargedTo c with
    | some st => s.modStream st (fun x => { x with charge := x.charge + 1 })
    | none => s) s

/-- Does the store buffer of a cluster drain: while its Kestrel runs, and in a warm reset of its cluster (R140)? -/
def State.drains (s : State) (c : ClusterId) : Bool :=
  s.mayRun c || ((s.unit ukCluster c.val).inReset && (s.cluster c).powered)

/-- The oldest entry of each store buffer that drains leaves it. -/
def State.drainTick (s : State) : State :=
  allClusters.foldl (fun s c => if s.drains c then s.drainN 1 c else s) s

/-- The polls that are due go out (R71). -/
def State.pollTick (s : State) : State := if s.ready then s.dueLines.foldl (fun s n => s.askLine n) s else s

/-- One tick of the timebase, which stands while the card has no power. -/
def tickOnce (s : State) : State :=
  if s.card.device = .off then s else s.chargeBudgets.drainTick.goOnAborts.dumpStep.pollTick.tickTime

end Sys2Proof.Machine
end

