-- ==== Sys2Proof/Safety.lean ====
section
/-! DEFINITION. What claims are stated in terms of: the invariant of every state, runs of steps, and the shapes of change that
commands make. -/
namespace Sys2Proof.Machine

/-- The invariant of every state: device memory and every cluster store are in the canonical form (addresses strictly rising, no
entry that equals what an unlisted address reads as). -/
def State.Inv (s : State) : Prop :=
  Mem.wf s.memory.mem = true ∧ ∀ c : ClusterId, Mem.wf (s.cluster c).store = true

/-- A later state keeps what a command may not break: the queue of waiting commands, and the invariant. -/
structure Keeps (s t : State) : Prop where
  queue : t.pending = s.pending
  inv : s.Inv → t.Inv

/-- `n` steps, as far as they go. -/
def runs : Nat → State → Option State
  | 0, s => some s
  | n + 1, s =>
    match step s with
    | .next t => runs n t
    | .fault _ => none
    | .refused _ => none

/-- A safe state: every run of steps from it goes on, and keeps the invariant. -/
def Safe (s : State) : Prop := ∀ n, ∃ t, runs n s = some t ∧ t.Inv

/-! ### Shapes of change -/

/-- A meaning answers a next state of which `p` holds. -/
def Gives (o : Result) (p : State → Prop) : Prop := ∃ t, o = .next t ∧ p t

/-- Cluster `c` issues an instruction of `n` bytes now, its fetch leaves the state `s1`, and no fault of the hardware waits in its
structures or datapaths (R111, R114, R134, R341-R344). -/
def Issues (s : State) (c : ClusterId) (n : Nat) (s1 : State) : Prop :=
  s.canIssue c = true ∧ s.fetch c n = (true, s1) ∧ (s1.cluster c).sound = true

/-- Nothing but cluster `c` changed. -/
def OnlyCluster (c : ClusterId) (s t : State) : Prop :=
  { t with clusters := s.clusters } = s ∧ ∀ d, d ≠ c → t.cluster d = s.cluster d

/-- Nothing but the Kestrel of cluster `c` changed. -/
def OnlyKestrel (c : ClusterId) (s t : State) : Prop :=
  OnlyCluster c s t ∧ { t.cluster c with k := s.kestrel c } = s.cluster c

/-- Register `rd` of the Kestrel of `c` takes `v` (g0 discards it, R96), the PC moves past `n` bytes, and nothing else changes. -/
structure WritesReg (c : ClusterId) (rd : BitVec 5) (v : Word) (n : Nat) (s t : State) : Prop where
  only : OnlyKestrel c s t
  rest : { t.kestrel c with g := (s.kestrel c).g, pc := (s.kestrel c).pc } = s.kestrel c
  pc : (t.kestrel c).pc = (s.kestrel c).pc + BitVec.ofNat 64 n
  regs : ∀ r, (t.kestrel c).get r = if r = rd ∧ r ≠ 0 then v else (s.kestrel c).get r

/-- The PC of the Kestrel of `c` becomes `target`, and nothing else changes. -/
structure Jumps (c : ClusterId) (target : Word) (s t : State) : Prop where
  only : OnlyKestrel c s t
  kestrel : t.kestrel c = { s.kestrel c with pc := target }

/-- What an access of a byte memory leaves: every byte outside the `n` bytes at `a` reads as before. -/
def SameOutside (m m' : Mem) (a n : Nat) : Prop := ∀ b, b < a ∨ a + n ≤ b → Mem.read m' b = Mem.read m b

/-- The S entry of R112 and R142 for a CAUSE byte, TVAL, saved PC and vector, from a state whose store buffer has drained: the
frame at ESP - 160, the shadow-stack entry, STATUS, CAUSE, TVAL, ESP, SSP and the PC; the rest of the device is unchanged. -/
structure SEntered (c : ClusterId) (cause : Nat) (tval savedPc : Word) (vector : Nat) (s t : State) : Prop where
  only : OnlyCluster c s t
  rest : { t.cluster c with
    k := s.kestrel c, store := (s.cluster c).store, storeBad := (s.cluster c).storeBad } = s.cluster c
  kestrel : t.kestrel c = { s.kestrel c with
    level := 1, ie := false, pc := windowAt vector, cause := BitVec.ofNat 8 cause, tval := tval
    esp := (s.kestrel c).esp - 160, ssp := (s.kestrel c).ssp + 1, run := .running }
  frame : Mem.readBytes (t.cluster c).store ((s.kestrel c).esp.toNat - 160) 160
    = frameBytes (s.kestrel c) savedPc (s.kestrel c).status
  shadow : Mem.readBytes (t.cluster c).store (shadowBase + 8 * (s.kestrel c).ssp.toNat) 8 = toBytes 8 (savedPc ||| 1).toNat
  others : ∀ a, (a < (s.kestrel c).esp.toNat - 160 ∨ (s.kestrel c).esp.toNat ≤ a) →
    (a < shadowBase + 8 * (s.kestrel c).ssp.toNat ∨ shadowBase + 8 * (s.kestrel c).ssp.toNat + 8 ≤ a) →
    Mem.read (t.cluster c).store a = Mem.read (s.cluster c).store a

/-- When the S entry of R112 runs through: the frame lies below the protected regions at the alignment of R98, the shadow stack
has room, and neither the frame's beats nor the vector hold an uncorrectable error (R146). -/
def SEntryOk (s : State) (c : ClusterId) (vector : Nat) : Prop :=
  160 ≤ (s.kestrel c).esp.toNat ∧ (s.kestrel c).esp.toNat ≤ shadowBase ∧ (s.kestrel c).esp.toNat % 32 = 0
    ∧ (s.kestrel c).ssp.toNat < 4096 ∧ (s.cluster c).storeFails ((s.kestrel c).esp.toNat - 160) 160 = false
    ∧ (s.cluster c).windowFails vector 32 = none
    ∧ Mem.wf (s.cluster c).store = true

/-- The Owl entry of R146-R148 and R482 from a state whose store buffer has drained: the O registers, the frame in the Owl region,
and the rest unchanged. -/
structure OwlEntered (c : ClusterId) (ocause : Nat) (otval oepc : Word) (s t : State) : Prop where
  only : OnlyCluster c s t
  rest : { t.cluster c with
    k := s.kestrel c, store := (s.cluster c).store, storeBad := (s.cluster c).storeBad } = s.cluster c
  kestrel : t.kestrel c = { s.kestrel c with
    level := 2, ie := false, pc := windowAt 0x800, ocause := BitVec.ofNat 64 ocause, otval := otval, oepc := oepc
    ostatus := (s.kestrel c).status, oesp := (s.kestrel c).esp, osp := 0x7FFF60, run := .running }
  frame : Mem.readBytes (t.cluster c).store 0x7FFF60 160 = frameBytes (s.kestrel c) oepc (s.kestrel c).status
  others : SameOutside (s.cluster c).store (t.cluster c).store 0x7FFF60 160

/-- What a Harrier instruction leaves beside its destination (R162, R168, R176): VPROG is empty, VFLAGS has its flags, the PC is past
it, an FP_TRAP report is handed over where TRAP_EN holds one of its flags, and everything but the vector and predicate registers,
the AMAX slots and the model's counter of free values is unchanged. -/
structure VEnds (c : ClusterId) (fl : BitVec 5) (s t : State) : Prop where
  only : OnlyCluster c s { t with free := s.free }
  rest : { t.cluster c with k := (s.cluster c).k, h := (s.cluster c).h } = s.cluster c
  kestrel : t.kestrel c = { s.kestrel c with
    pc := (s.kestrel c).pc + 8
    reports := (s.kestrel c).reports
      ++ (if (s.cluster c).h.vctl.toNat / 8 &&& fl.toNat ≠ 0 then [.fpTrap (s.kestrel c).pc] else []) }
  harrier : { (t.cluster c).h with v := (s.cluster c).h.v, p := (s.cluster c).h.p, amax := (s.cluster c).h.amax }
    = { (s.cluster c).h with vprogValid := false, vflags := (s.cluster c).h.vflags ||| fl }

/-- The vector registers after a write of a destination of `n` registers from `reg`, elements of `b` bytes: an active element holds a
value that `new` allows, another one its old value, or zero with PZ; every other register and the predicates and slots stay (R157,
R158). -/
def VDest (f : VFields) (reg n b : Nat) (h h' : Harrier) (new : Nat → Nat → Prop) : Prop :=
  (∀ i, i < n * (2048 / b) → if active h f i = true then new i (h'.elem reg b i)
    else h'.elem reg b i = if f.pz then 0 else h.elem reg b i)
  ∧ (∀ r, r < reg ∨ reg + n ≤ r → h'.reg r = h.reg r) ∧ h'.p = h.p ∧ h'.amax = h.amax

/-- The state once the descriptor at an index has begun. -/
def begunState (s : State) (st : StreamId) (idx : W32) : State :=
  (s.modDesc st idx (fun e => { e with phase := .running })).settle st

/-- Descriptor `d` at `idx` of a stream begins as opcode `op` and is executed: it may begin, its period has not ended, and its
payload is valid (R43, R55, R75). -/
structure Begins (st : StreamId) (idx : W32) (op : Nat) (d : Desc) (s : State) : Prop where
  next : s.beginning st idx op = some d
  inTime : op ≠ opJobStart → (s.stream st).periodic = true → before32 d.period (s.stream st).current = false
  valid : firstBad ((begunState s st idx).payloadChecks ((begunState s st idx).maxClOf st) d.bits) = none

/-- Descriptor `d` at `idx` of a stream has begun as opcode `op` and may go on. -/
structure GoesOn (st : StreamId) (idx : W32) (op : Nat) (d : Desc) (s : State) : Prop where
  held : s.desc st idx = some d
  running : d.phase = .running
  opcode : d.opcode = op
  ready : s.ready = true
  phase : (s.stream st).phase ≠ .dropping

/-- The descriptor ends with DONE and DETAIL 0 from a state of which `p` holds. -/
def EndsDone (o : Result) (st : StreamId) (idx : W32) (p : State → Prop) : Prop :=
  ∃ u, o = .next (u.finish st idx 0 0) ∧ p u

/-- A packet goes out on port `q` at once if the port may send and nothing waits before it, and is held there otherwise; the other
ports stay (R371, R383). -/
structure SendsOn (q : PortId) (pkt : Packet) (s t : State) : Prop where
  held : pkt ∈ (t.port q).held
  out : (s.port q).waiting = [] → (s.port q).canSend = true →
    ∃ l, t.out = s.out ++ .flit q (s.port q).expected ⟨(s.port q).nextSeq, .data pkt⟩ :: l
  ports : ∀ r, r ≠ q → t.port r = s.port r

/-- A request gets its answer, of a kind, with a status, data and a seal, where a live path leads back (R381, R382, R385). -/
def Answers (kind : Nat) (pkt : Packet) (status : Nat) (data : List Byte) (crc : Option W32) (s t : State) : Prop :=
  ∀ q v, s.hop pkt.src false none = some (q, v) →
    SendsOn q { pkt with dst := pkt.src, src := s.fabId, kind := BitVec.ofNat 8 kind, op := BitVec.ofNat 8 status, sealValid := crc.isSome
                         crc := crc.getD 0, len := BitVec.ofNat 8 data.length, data := data, vcb := v } s t

end Sys2Proof.Machine
end

