-- ==== Sys2Proof/Certificates/Slice0/Obligations.lean ====
section
/-! DEFINITION. The statements for the provers, family by family. In a statement about an instruction of a Kestrel, Harrier or
Hearth, `s` is the state in which the command runs and `s1` the state its fetch leaves. -/
open Sys2Proof Sys2Proof.Machine

/-! ### The step and the whole machine -/

/-- A step with a command at the front of the queue is that command's meaning on the state with the rest of the queue. -/
def Obligations.StepRunsTheFrontCommand : Prop :=
  ∀ (i : Instr) (rest : List Instr) (s : State), s.pending = i :: rest → step s = exec i { s with pending := rest }

/-- A step on an empty queue is one tick of the timebase, while the card has power and no slew is left; without power the state stands.
The model's choice (log entry 1): the opcode table has no row for a tick. -/
def Obligations.EmptyQueueStepCountsOneTick : Prop :=
  ∀ s : State, s.pending = [] →
    (s.card.device ≠ .off → s.fabric.tbSlew = 0 → Gives (step s) (fun t => t.tick = s.tick + 1 ∧ t.pending = []))
    ∧ (s.card.device = .off → step s = .next s)

/-- Reset leaves the values the rules state: every Kestrel at level S with interrupts off and TIMECMP all ones, SSP 0, VCTL, VFLAGS
and VPROG 0, HFLAGS and HCTL 0, zero tiles with no open interval, no job, no enabled stream, address space or ring, EVT_LOST 0,
ERR_LOG_NEXT 0, an empty Talon, GEN_SETUP_ERR 0, every way ON, TB_OFFSET and TB state 0, DEVICE BOOTING and REASON 0. -/
def Obligations.ResetLeavesTheStatedValues : Prop :=
  (∀ c : ClusterId, (State.reset.kestrel c).level = 1 ∧ (State.reset.kestrel c).ie = false
    ∧ (State.reset.kestrel c).det = false ∧ (State.reset.kestrel c).timecmp = BitVec.allOnes 64
    ∧ (State.reset.kestrel c).irqEn = 0 ∧ (State.reset.kestrel c).ssp = 0 ∧ (State.reset.kestrel c).ocause = 0
    ∧ (State.reset.cluster c).h.vctl = 0 ∧ (State.reset.cluster c).h.vflags = 0 ∧ (State.reset.cluster c).h.vprog = 0
    ∧ (State.reset.cluster c).m.hflags = 0 ∧ (State.reset.cluster c).m.hctl = 0 ∧ (State.reset.cluster c).m.isOpen = false
    ∧ (State.reset.cluster c).job = none)
  ∧ (∀ st : StreamId, (State.reset.stream st).enabled = false ∧ (State.reset.stream st).phase = .idle)
  ∧ (∀ a : Fin 1024, (State.reset.space a).enabled = false)
  ∧ (∀ r : RingId, State.reset.ringEnabled r = false)
  ∧ (∀ q : QuadId, (State.reset.quad q).on = 0xFFFF ∧ (State.reset.quad q).cleaning = 0)
  ∧ (∀ j : JobId, State.reset.job j = none)
  ∧ State.reset.sched.evtLost = 0 ∧ State.reset.integ.logNext = 0 ∧ State.reset.integ.talon = []
  ∧ State.reset.setup.errCount = 0 ∧ State.reset.integ.reason = 0 ∧ State.reset.card.device = .booting
  ∧ State.reset.pending = []

/-- The invariant of memories holds at reset. -/
def Obligations.ResetMemoriesAreCanonical : Prop := State.reset.Inv

/-- Every step keeps the invariant: device memory and every cluster store stay in canonical form, whatever command is at the front
of the queue, and on the tick of an empty queue. -/
def Obligations.EveryStepKeepsMemoriesCanonical : Prop :=
  ∀ s t : State, s.Inv → step s = .next t → t.Inv

/-- Every command answers a next state, and leaves the queue of waiting commands as it is.

A queue of `n` commands is empty after `n` steps. -/
def Obligations.CommandsAnswerAndTheQueueDrains : Prop :=
  (∀ (i : Instr) (s : State), Gives (exec i s) (fun t => t.pending = s.pending))
  ∧ (∀ s : State, ∃ t, runs s.pending.length s = some t ∧ t.pending = [])

/-! ### Kestrel: arithmetic -/

/-- ALU and MULDIV (R101, R104, R481): with `a` and `b` the source registers after the fetch, g(rd) takes the result, the PC moves
past the instruction and nothing else changes. Shifts take the amount modulo 64.

DIV, DIVU, REM, REMU (R104): a nonzero divisor gives the quotient or remainder that rounds toward zero (-2^63 by -1 gives
-2^63 and 0); a zero divisor raises INT_DIV_ZERO with TVAL 0 at the instruction and writes nothing.

ALUI and the wide immediates (R101-R103): g(rd) takes the result of g(ra) and the sign-extended imm12, or of imm20; an immediate
shift with a nonzero imm12[11:6] raises RSVD_ENC with the instruction word instead.

The residue of a value changes with every single bit of it (R341); an ADD whose adder a fault strikes in one bit raises RESIDUE_FAIL at
the instruction with TVAL 0, writes no register, and leaves an entry with the residues (R134, R343, R352). -/
def Obligations.ArithmeticWritesItsResult : Prop :=
  (∀ (s s1 : State) (c : ClusterId) (rd ra rb : BitVec 5), Issues s c 4 s1 →
    let a := (s1.kestrel c).get ra
    let b := (s1.kestrel c).get rb
    let gives (i : Instr) (v : Word) : Prop := Gives (exec i s) (WritesReg c rd v 4 s1)
    gives (.add c rd ra rb) (a + b) ∧ gives (.sub c rd ra rb) (a - b)
    ∧ gives (.and c rd ra rb) (a &&& b) ∧ gives (.or c rd ra rb) (a ||| b) ∧ gives (.xor c rd ra rb) (a ^^^ b)
    ∧ gives (.sll c rd ra rb) (a <<< (b.toNat % 64)) ∧ gives (.srl c rd ra rb) (a >>> (b.toNat % 64))
    ∧ gives (.sra c rd ra rb) (BitVec.ofInt 64 (a.toInt / 2 ^ (b.toNat % 64)))
    ∧ gives (.slt c rd ra rb) (if a.toInt < b.toInt then 1 else 0)
    ∧ gives (.sltu c rd ra rb) (if a.toNat < b.toNat then 1 else 0)
    ∧ gives (.min c rd ra rb) (if a.toInt < b.toInt then a else b)
    ∧ gives (.max c rd ra rb) (if a.toInt < b.toInt then b else a)
    ∧ gives (.minu c rd ra rb) (if a.toNat < b.toNat then a else b)
    ∧ gives (.maxu c rd ra rb) (if a.toNat < b.toNat then b else a)
    ∧ gives (.mul c rd ra rb) (BitVec.ofInt 64 (a.toInt * b.toInt))
    ∧ gives (.mulh c rd ra rb) (BitVec.ofInt 64 (a.toInt * b.toInt / 2 ^ 64))
    ∧ gives (.mulhu c rd ra rb) (BitVec.ofNat 64 (a.toNat * b.toNat / 2 ^ 64)))
  ∧ (∀ (s s1 : State) (c : ClusterId) (rd ra rb : BitVec 5), Issues s c 4 s1 →
    let a := (s1.kestrel c).get ra
    let b := (s1.kestrel c).get rb
    let gives (i : Instr) (v : Word) : Prop :=
      (b ≠ 0 → Gives (exec i s) (WritesReg c rd v 4 s1))
      ∧ (b = 0 → exec i s = .next (s1.raise c 0x0A 0 (s1.kestrel c).pc))
    gives (.div c rd ra rb) (BitVec.ofInt 64 (a.toInt.tdiv b.toInt))
    ∧ gives (.divu c rd ra rb) (BitVec.ofNat 64 (a.toNat / b.toNat))
    ∧ gives (.rem c rd ra rb) (BitVec.ofInt 64 (a.toInt.tmod b.toInt))
    ∧ gives (.remu c rd ra rb) (BitVec.ofNat 64 (a.toNat % b.toNat)))
  ∧ (∀ (s s1 : State) (c : ClusterId) (rd ra : BitVec 5) (imm : BitVec 12) (imm20 : BitVec 20), Issues s c 4 s1 →
    let a := (s1.kestrel c).get ra
    let x := imm.signExtend 64
    let n := imm.toNat % 64
    let gives (i : Instr) (v : Word) : Prop := Gives (exec i s) (WritesReg c rd v 4 s1)
    let shift (i : Instr) (minor3 : Nat) (v : Word) : Prop :=
      (imm.toNat < 64 → Gives (exec i s) (WritesReg c rd v 4 s1))
      ∧ (64 ≤ imm.toNat → exec i s = .next (s1.raise c 0x02 (wordRI 0x02 rd ra minor3 imm) (s1.kestrel c).pc))
    gives (.addi c rd ra imm) (a + x) ∧ gives (.andi c rd ra imm) (a &&& x) ∧ gives (.ori c rd ra imm) (a ||| x)
    ∧ gives (.xori c rd ra imm) (a ^^^ x) ∧ gives (.slti c rd ra imm) (if a.toInt < imm.toInt then 1 else 0)
    ∧ shift (.slli c rd ra imm) 4 (a <<< n) ∧ shift (.srli c rd ra imm) 5 (a >>> n)
    ∧ shift (.srai c rd ra imm) 6 (BitVec.ofInt 64 (a.toInt / 2 ^ n))
    ∧ gives (.liw c rd imm20) (imm20.signExtend 64)
    ∧ gives (.liws c rd imm20) (((s1.kestrel c).get rd <<< 20) ||| imm20.setWidth 64)
    ∧ gives (.pca c rd imm20) ((s1.kestrel c).pc + BitVec.ofInt 64 (4 * imm20.toInt)))
  ∧ ((∀ v k : Nat, residue (v ^^^ 2 ^ k) ≠ residue v)
  ∧ ∀ (s s1 : State) (c : ClusterId) (rd ra rb : BitVec 5) (u : Upset) (k : Nat), s.canIssue c = true → s.fetch c 4 = (true, s1) →
    (s1.cluster c).marks = [] → (s1.cluster c).upsets = [u] → u.row = rwAdder → k < 64 → u.mask.toNat = 2 ^ k →
    let v := (s1.kestrel c).get ra + (s1.kestrel c).get rb
    exec (.add c rd ra rb) s = .next (((s1.modCluster c (fun x => { x with upsets := [] })).addLog
      (s1.residueEntry c u v.toNat)).raise c 0x0C 0 (s1.kestrel c).pc))

/-! ### Kestrel: control flow -/

/-- Branches, JMP and JMPR (R100, R101, R480): a taken branch goes to PC + imm12 × 4, one not taken to the next instruction; JMP
goes to PC + imm25 × 4, JMPR with rd zero to g(ra) + imm12; nothing else changes. JMPR with a nonzero rd raises RSVD_ENC.

CALL, CALLR and RET (R96, R142, R480): at J or S with room, a call writes PC + 4 to entry SSP of the shadow stack and to g31,
raises SSP by one and goes to its target; a RET whose top entry equals g31 lowers SSP by one and goes to g31; nothing else
changes. A full shadow stack raises SS_OVERFLOW, an empty one or an unequal entry CF_MISMATCH, and each form at O ILLEGAL_OP. -/
def Obligations.ControlTransfersSetThePc : Prop :=
  (∀ (s s1 : State) (c : ClusterId) (rd ra rb : BitVec 5) (imm : BitVec 12) (imm25 : BitVec 25), Issues s c 4 s1 →
    let a := (s1.kestrel c).get ra
    let b := (s1.kestrel c).get rb
    let pc := (s1.kestrel c).pc
    let branches (i : Instr) (taken : Prop) : Prop :=
      (taken → Gives (exec i s) (Jumps c (pc + BitVec.ofInt 64 (4 * imm.toInt)) s1))
      ∧ (¬taken → Gives (exec i s) (Jumps c (pc + 4) s1))
    branches (.beq c ra rb imm) (a = b) ∧ branches (.bne c ra rb imm) (a ≠ b)
    ∧ branches (.blt c ra rb imm) (a.toInt < b.toInt) ∧ branches (.bge c ra rb imm) (b.toInt ≤ a.toInt)
    ∧ branches (.bltu c ra rb imm) (a.toNat < b.toNat) ∧ branches (.bgeu c ra rb imm) (b.toNat ≤ a.toNat)
    ∧ Gives (exec (.jmp c imm25) s) (Jumps c (pc + BitVec.ofInt 64 (4 * imm25.toInt)) s1)
    ∧ (rd = 0 → Gives (exec (.jmpr c rd ra imm) s) (Jumps c (a + imm.signExtend 64) s1))
    ∧ (rd ≠ 0 → exec (.jmpr c rd ra imm) s = .next (s1.raise c 0x02 (wordRI 0x0F rd ra 0 imm) pc)))
  ∧ (∀ (s s1 : State) (c : ClusterId) (rd ra : BitVec 5) (imm : BitVec 12) (imm25 : BitVec 25), Issues s c 4 s1 →
    Mem.wf (s1.cluster c).store = true →
    let k := s1.kestrel c
    let slot := shadowBase + 8 * k.ssp.toNat
    let calls (i : Instr) (word target : Word) : Prop :=
      (k.level ≠ 2 ∧ k.ssp.toNat < 4096 → Gives (exec i s) (fun t => OnlyCluster c s1 t
        ∧ { t.cluster c with
            k := k, store := (s1.cluster c).store, storeBad := (s1.cluster c).storeBad } = s1.cluster c
        ∧ { t.kestrel c with g := k.g } = { k with pc := target, ssp := k.ssp + 1 }
        ∧ (∀ r, (t.kestrel c).get r = if r = 31 then k.pc + 4 else k.get r)
        ∧ Mem.readBytes (t.cluster c).store slot 8 = toBytes 8 (k.pc + 4).toNat
        ∧ SameOutside (s1.cluster c).store (t.cluster c).store slot 8))
      ∧ (k.level ≠ 2 ∧ k.ssp = 4096 → exec i s = .next (s1.raise c 0x08 (k.pc + 4) k.pc))
      ∧ (k.level = 2 → exec i s = .next (s1.raise c 0x01 word k.pc))
    calls (.call c imm25) (wordLJ 0x0E imm25) (k.pc + BitVec.ofInt 64 (4 * imm25.toInt))
    ∧ calls (.callr c 0 ra imm) (wordRI 0x0F 0 ra 1 imm) (k.get ra + imm.signExtend 64)
    ∧ (rd ≠ 0 ∧ k.level ≠ 2 → exec (.callr c rd ra imm) s = .next (s1.raise c 0x02 (wordRI 0x0F rd ra 1 imm) k.pc))
    ∧ (k.level ≠ 2 ∧ k.ssp ≠ 0 ∧ s1.shadowBad c = false ∧ s1.shadowTop c = k.get 31 →
        Gives (exec (.ret c 0 0 0) s) (fun t => OnlyKestrel c s1 t
          ∧ t.kestrel c = { k with pc := k.get 31, ssp := k.ssp - 1 }))
    ∧ (k.level ≠ 2 ∧ s1.shadowBad c = false ∧ (k.ssp = 0 ∨ s1.shadowTop c ≠ k.get 31) →
        exec (.ret c 0 0 0) s = .next (s1.raise c 0x07 (k.get 31) k.pc))
    ∧ (k.level = 2 → exec (.ret c rd ra imm) s = .next (s1.raise c 0x01 (wordRI 0x0F rd ra 2 imm) k.pc)))

/-! ### Kestrel: exceptions -/

/-- TRAPI, BREAK and ILLEGAL_OP at J or S (R112, R130, R131, R142), when the S entry runs through: the S entry with the cause, its
TVAL (the 12-bit code, or the instruction word), the saved PC (the next instruction for TRAPI, the instruction else) and the
vector. A nonzero rd or ra of TRAPI or BREAK raises RSVD_ENC with the instruction word.

A cause routed to S whose entry fails a check escalates to the Owl (R146, R147, R482): a frame below zero or in a protected
region with ORIG RIGHTS_VIOLATION and the new ESP, a full shadow stack with ORIG SS_OVERFLOW and the value to be pushed, a first beat
with an uncorrectable word with ORIG ECC_UNCORR and its address; ENTRY holds the CAUSE of the abandoned entry. ESP and SSP stay. CAUSE and TVAL are written first (the model's reading of R112).

Causes are routed as R130 gives: at J or S, RIGHTS_VIOLATION, CF_MISMATCH, SS_OVERFLOW, SEAL_FAIL, RESIDUE_FAIL, ECC_UNCORR and
WATCHDOG enter the Owl directly; TRAPI takes the S entry at vector 0x80, the other causes at 0; any cause at O makes the cluster
fatal.

OWL_LIMIT (R151, R152): a Kestrel at O that has not parked makes its cluster fatal: before the job's abort goes on, the Kestrel
is halted, the live bit is clear and the domain without power. That WATCHDOG is the logged cause is the model's choice (log entry
23). -/
def Obligations.ExceptionsEnterTheirLevel : Prop :=
  (∀ (s s1 : State) (c : ClusterId) (rd ra : BitVec 5) (code : BitVec 12), Issues s c 4 s1 →
    let k := s1.kestrel c
    let s0 := s1.drainStores c
    (k.level ≠ 2 ∧ SEntryOk s0 c 0x80 →
      Gives (exec (.trapi c 0 0 code) s) (SEntered c 0x0F (code.setWidth 64) (k.pc + 4) 0x80 s0))
    ∧ (k.level ≠ 2 ∧ SEntryOk s0 c 0 →
      Gives (exec (.breakK c 0 0 code) s) (SEntered c 0x10 (code.setWidth 64) k.pc 0 s0))
    ∧ (∀ word : Word, illegalWord word = true → word.toNat < 2 ^ 32 → ¬(0x70 ≤ word.toNat % 128 ∧ word.toNat % 128 ≤ 0x7B) →
      k.level ≠ 2 ∧ SEntryOk s0 c 0 → Gives (exec (.illegalOp c word) s) (SEntered c 0x01 word k.pc 0 s0))
    ∧ (rd ≠ 0 ∨ ra ≠ 0 → exec (.trapi c rd ra code) s = .next (s1.raise c 0x02 (wordSY 3 rd ra code) k.pc)
      ∧ exec (.breakK c rd ra code) s = .next (s1.raise c 0x02 (wordSY 4 rd ra code) k.pc)))
  ∧ (∀ (s : State) (c : ClusterId) (cause : Nat) (tval savedPc : Word) (vector : Nat),
    let s0 := s.drainStores c
    let k := s0.kestrel c
    let s2 := s0.modK c (fun k => { k.setCause cause tval with run := .running })
    Mem.wf (s0.cluster c).store = true → (s0.cluster c).storeBuf = [] → k.level.toNat < 2 →
    (s0.cluster c).storeFails 0x7FFF60 160 = false →
    let entered (orig : Nat) (otval : Word) : Prop :=
      OwlEntered c (0x1F + 2 ^ 8 * orig + 2 ^ 16 * cause + 2 ^ 24 * k.level.toNat) otval savedPc s2
        (s.sEntry c cause tval savedPc vector)
    (k.esp.toNat < 160 ∨ shadowBase < k.esp.toNat → entered 0x06 (k.esp - 160))
    ∧ (160 ≤ k.esp.toNat ∧ k.esp.toNat ≤ shadowBase ∧ k.ssp = 4096 → entered 0x08 (savedPc ||| 1))
    ∧ (160 ≤ k.esp.toNat ∧ k.esp.toNat ≤ shadowBase ∧ k.ssp.toNat < 4096 ∧ (s0.cluster c).storeFails (k.esp.toNat - 160) 32 = true →
      let y := (s.sEntry c cause tval savedPc vector).kestrel c
      y.level = 2 ∧ y.ocause = BitVec.ofNat 64 (0x1F + 2 ^ 8 * 0x0D + 2 ^ 16 * cause + 2 ^ 24 * k.level.toNat)
        ∧ y.otval = k.esp - 160 ∧ y.oepc = savedPc ∧ y.esp = k.esp ∧ y.ssp = k.ssp))
  ∧ (∀ (s : State) (c : ClusterId) (code : Nat) (tval savedPc : Word),
    ((s.kestrel c).level ≠ 2 → code ∈ [6, 7, 8, 0xB, 0xC, 0xD, 0xE] →
      Mem.wf (((s.modK c (fun k => k.setCause code tval)).drainStores c).cluster c).store = true →
      (((s.modK c (fun k => k.setCause code tval)).drainStores c).cluster c).storeFails 0x7FFF60 160 = false →
      OwlEntered c (code + 2 ^ 24 * (((s.modK c (fun k => k.setCause code tval)).drainStores c).kestrel c).level.toNat)
        tval savedPc ((s.modK c (fun k => k.setCause code tval)).drainStores c) (s.raise c code tval savedPc))
    ∧ ((s.kestrel c).level ≠ 2 → code ∈ [1, 2, 3, 4, 9, 0xA, 0x10] → SEntryOk (s.drainStores c) c 0 →
      SEntered c code tval savedPc 0 (s.drainStores c) (s.raise c code tval savedPc))
    ∧ ((s.kestrel c).level = 2 → s.raise c code tval savedPc = s.clusterFatal c code))
  ∧ (∀ (s : State) (c : ClusterId), s.mayRun c = true → (s.kestrel c).level = 2 → (s.kestrel c).run = .running →
    Gives (exec (.owlLimit c) s) (fun t => t = s.clusterFatal c 0x0E ∧ ∃ u : State, t = u.failCluster c
      ∧ u.isLive c = false ∧ (u.cluster c).powered = false ∧ (u.kestrel c).run = .halted))

/-- ERET at S (R113, R142, R321), once the older stores have drained: with a readable frame below the protected regions, whose STATUS has LEVEL J or S, and a top shadow
entry equal to its PC OR 1, it restores g1-g15, PC, LEVEL and IE, adds 160 to ESP and takes one from SSP; nothing else changes. At
O it raises ILLEGAL_OP, at J PRIV, with SSP 0 or an unequal entry CF_MISMATCH.

WFI and IFLUSH (R104, R111, R115, R149): WFI at S waits at the next instruction, at J raises PRIV, at O parks the Kestrel past
it; IFLUSH drains the store buffer, empties the L1I and goes on. -/
def Obligations.EretWfiAndIflushAct : Prop :=
  (∀ (s s1 : State) (c : ClusterId), Issues s c 4 s1 →
    let s0 := s1.drainStores c
    let k := s0.kestrel c
    let x := s0.cluster c
    let frame := Mem.readBytes x.store k.esp.toNat 160
    let word (i : Nat) : Word := BitVec.ofNat 64 (ofBytes ((frame.drop (8 * i)).take 8))
    let readable := k.esp.toNat + 160 ≤ shadowBase ∧ x.storeFails k.esp.toNat 160 = false ∧ s0.shadowBad c = false
    ((s1.kestrel c).level = 1 ∧ k.level = 1 ∧ readable ∧ k.ssp ≠ 0 ∧ s0.shadowTop c = (word 15 ||| 1) ∧ (word 16).toNat % 4 ≤ 1 →
      Gives (exec (.eret c 0 0 0) s) (fun t => OnlyKestrel c s0 t
        ∧ { t.kestrel c with g := k.g } = { k with
            pc := word 15, ssp := k.ssp - 1, esp := k.esp + 160, level := (word 16).setWidth 2, ie := (word 16).getLsbD 2 }
        ∧ ∀ r, (t.kestrel c).get r = if r ≠ 0 ∧ r.toNat ≤ 15 then word (r.toNat - 1) else k.get r))
    ∧ ((s1.kestrel c).level = 1 ∧ readable ∧ (k.ssp = 0 ∨ s0.shadowTop c ≠ (word 15 ||| 1)) →
      exec (.eret c 0 0 0) s = .next (s0.raise c 0x07 (word 15) k.pc))
    ∧ ((s1.kestrel c).level = 2 → exec (.eret c 0 0 0) s = .next (s1.raise c 0x01 (wordSY 2 0 0 0) (s1.kestrel c).pc))
    ∧ ((s1.kestrel c).level = 0 → exec (.eret c 0 0 0) s = .next (s1.raise c 0x03 (wordSY 2 0 0 0) (s1.kestrel c).pc)))
  ∧ (∀ (s s1 : State) (c : ClusterId), Issues s c 4 s1 →
    let k := s1.kestrel c
    (k.level.toNat % 2 = 1 → Gives (exec (.wfi c 0 0 0) s) (fun t => OnlyKestrel c s1 t
      ∧ t.kestrel c = { k with pc := k.pc + 4, run := .waiting }))
    ∧ (k.level = 0 → exec (.wfi c 0 0 0) s = .next (s1.raise c 0x03 (wordSY 5 0 0 0) k.pc))
    ∧ (k.level = 2 → exec (.wfi c 0 0 0) s = .next ((s1.advance c 4).park c))
    ∧ Gives (exec (.iflush c 0 0 0) s) (fun t => OnlyCluster c (s1.drainStores c) t
      ∧ t.cluster c = { (s1.drainStores c).cluster c with
          l1i := [], k := { (s1.drainStores c).kestrel c with pc := ((s1.drainStores c).kestrel c).pc + 4 } }))

/-- INTERRUPT_ENTRY (R110-R112, R136): at a sampling point with IE set at J or S, no report and VPROG empty, the lowest pending and
enabled line `n` takes the S entry with CAUSE 0x80 + n, TVAL 0, the PC and vector 0x100. That entry clears the latched line is
the model's choice (log entry 22), and so is that the runtime's answer to DISPATCH is part of the command (log entry 35).

HARRIER_REPORT_ACCEPT and WATCHDOG (R136-R138): at a sampling point at J or S the oldest failure, or with none the oldest
fault, leaves the list and is raised: a failure with its cause, PC and TVAL, an FP_TRAP at the Kestrel's PC, a translation fault as a
fault stop of the Harrier. A WATCHDOG while issuing enters the Owl.

TIMER (R110): TIME at or past TIMECMP is the pending TIMER line; the event leaves every other line, and the rest. -/
def Obligations.InterruptsReportsAndTimersAreTaken : Prop :=
  (∀ (s : State) (c : ClusterId) (n : Nat),
    let k := s.kestrel c
    let lines := s.irqPend k &&& k.irqEn
    s.mayRun c = true → k.run = .running ∨ k.run = .waiting → k.ie = true → k.level ≠ 2 → k.reports = [] →
    (s.cluster c).h.vprogValid = false →
    n < 6 → lines.getLsbD n = true → (∀ m, m < n → lines.getLsbD m = false) → SEntryOk (s.drainStores c) c 0x100 →
    Gives (exec (.interruptEntry c) s) (fun t => ∃ u, SEntered c (0x80 + n) 0 k.pc 0x100 (s.drainStores c) u
      ∧ let v := u.modK c (fun k => { k with irqPend := k.irqPend &&& ~~~ (1#64 <<< n) })
        t = if n = 1 then v.answerDispatch c k else v))
  ∧ (∀ (s : State) (c : ClusterId),
    let k := s.kestrel c
    s.mayRun c = true → k.level ≠ 2 → k.run = .running →
    let without (r : Report) : State := s.modK c (fun k => { k with reports := k.reports.erase r })
    (∀ (pre post : List Report) (cause : Byte) (pc tval : Word),
      (∀ r ∈ pre, ∃ p v l a, r = Report.xlate p v l a) → k.reports = pre ++ .failure cause pc tval :: post →
      exec (.harrierReportAccept c) s = .next ((without (.failure cause pc tval)).raise c cause.toNat tval pc))
    ∧ (∀ (pre post : List Report) (pc : Word),
      (∀ r ∈ pre, ∃ p v l a, r = Report.xlate p v l a) → k.reports = pre ++ .fpTrap pc :: post →
      exec (.harrierReportAccept c) s = .next ((without (.fpTrap pc)).raise c 0x09 pc k.pc))
    ∧ (∀ (post : List Report) (pc tval : Word) (len : Nat) (access : BitVec 4),
      k.reports = .xlate pc tval len access :: post → (∀ r ∈ post, ∃ p v l a, r = Report.xlate p v l a) →
      exec (.harrierReportAccept c) s
        = .next ((without (.xlate pc tval len access)).faultStop c 2 pc access tval len))
    ∧ exec (.watchdog c) s = .next (s.raise c 0x0E 0 k.pc))
  ∧ (∀ (s : State) (c : ClusterId),
    ((s.irqPend (s.kestrel c)).getLsbD 0 = true ↔ (s.kestrel c).timecmp.toNat ≤ s.tick.toNat)
    ∧ Gives (exec (.timer c) s) (fun t => OnlyKestrel c s t ∧ t.irqPend (t.kestrel c) = s.irqPend (s.kestrel c)
      ∧ { t.kestrel c with irqPend := (s.kestrel c).irqPend } = s.kestrel c))

/-! ### Kestrel: memory -/

/-- LOAD from the own cluster store below the protected regions (R101, R139, R321, R344): an aligned address without an uncorrectable
word gives g(rd) the little-endian bytes, as the buffered older stores leave them, sign- or zero-extended; nothing else changes. A
misaligned address raises MISALIGN with the address, a protected region read at J RIGHTS_VIOLATION.

LOAD through a range (R269, R310, R321): when the translation answers a target outside the store and the read answers bytes,
g(rd) takes them, as the buffered older stores leave them, extended; a translation fault or a violation is taken with the
address. -/
def Obligations.LoadsReadStoreAndRanges : Prop :=
  (∀ (s s1 : State) (c : ClusterId) (rd ra : BitVec 5) (imm : BitVec 12), Issues s c 4 s1 →
    let k := s1.kestrel c
    let x := s1.cluster c
    let va := k.get ra + imm.signExtend 64
    let a := va.toNat
    let u (n : Nat) : Nat := ofBytes (forward x.storeBuf (.store a) (Mem.readBytes x.store a n))
    let sx (n : Nat) : Word := BitVec.ofInt 64 (if u n < 2 ^ (8 * n - 1) then u n else (u n : Int) - 2 ^ (8 * n))
    let loads (i : Instr) (n : Nat) (v : Word) : Prop :=
      (a % n = 0 ∧ a + n ≤ shadowBase ∧ x.storeFails a n = false → Gives (exec i s) (WritesReg c rd v 4 s1))
      ∧ (a % n ≠ 0 → exec i s = .next (s1.raise c 0x04 va k.pc))
      ∧ (a % n = 0 ∧ shadowBase ≤ a ∧ a < storeSize ∧ k.level = 0 → exec i s = .next (s1.raise c 0x06 va k.pc))
    loads (.lb c rd ra imm) 1 (sx 1) ∧ loads (.lh c rd ra imm) 2 (sx 2) ∧ loads (.lw c rd ra imm) 4 (sx 4)
    ∧ loads (.ld c rd ra imm) 8 (BitVec.ofNat 64 (u 8)) ∧ loads (.lbu c rd ra imm) 1 (BitVec.ofNat 64 (u 1))
    ∧ loads (.lhu c rd ra imm) 2 (BitVec.ofNat 64 (u 2)) ∧ loads (.lwu c rd ra imm) 4 (BitVec.ofNat 64 (u 4)))
  ∧ (∀ (s s1 s2 s3 : State) (c : ClusterId) (rd ra : BitVec 5) (imm : BitVec 12) (t : Target) (e : Option RangeEntry)
    (b : List Byte), Issues s c 4 s1 → t.isStore = false → (s3.cluster c).sound = true →
    let va := (s1.kestrel c).get ra + imm.signExtend 64
    let u : Nat := ofBytes (forward (s3.cluster c).storeBuf t b)
    let sx (n : Nat) : Word := BitVec.ofInt 64 (if u % 2 ^ (8 * n) < 2 ^ (8 * n - 1) then (u : Int) % 2 ^ (8 * n)
      else (u : Int) % 2 ^ (8 * n) - 2 ^ (8 * n))
    let zx (n : Nat) : Word := BitVec.ofNat 64 (u % 2 ^ (8 * n))
    let loads (i : Instr) (n : Nat) (v : Word) : Prop :=
      va.toNat % n = 0 →
      (s1.access c .kestrel .mover .r va n = (.ok t e, s2) →
        s2.kestrelRead c (s2.aspOf c) va.toNat t e n = (.bytes b, s3) → Gives (exec i s) (WritesReg c rd v 4 s3))
      ∧ (s1.access c .kestrel .mover .r va n = (.fault, s2) → exec i s = .next (s2.xlateFault c 1 va n))
      ∧ (s1.access c .kestrel .mover .r va n = (.violation, s2) → exec i s = .next (s2.raise c 0x06 va (s2.kestrel c).pc))
    loads (.lb c rd ra imm) 1 (sx 1) ∧ loads (.lh c rd ra imm) 2 (sx 2) ∧ loads (.lw c rd ra imm) 4 (sx 4)
    ∧ loads (.ld c rd ra imm) 8 (zx 8) ∧ loads (.lbu c rd ra imm) 1 (zx 1)
    ∧ loads (.lhu c rd ra imm) 2 (zx 2) ∧ loads (.lwu c rd ra imm) 4 (zx 4))

/-- STORE (R101, R139, R269, R273): an aligned store that translates puts its target, GEN, attributes, size and g(rb) at the end of the store
buffer, after draining the oldest entry when 16 wait; the PC moves on, memory and the rest stay. A misaligned one raises MISALIGN.

A drained entry lands (R139, R315, R344): in the own store or, uncached and with no line in the L1D, in device memory, its bytes read back at its target and
every other byte reads as before. -/
def Obligations.StoresEnterTheBufferAndLand : Prop :=
  (∀ (s s1 s2 : State) (c : ClusterId) (rb ra : BitVec 5) (imm : BitVec 12) (t : Target) (e : Option RangeEntry),
    Issues s c 4 s1 →
    let va := (s1.kestrel c).get ra + imm.signExtend 64
    let stores (i : Instr) (n : Nat) : Prop :=
      (va.toNat % n = 0 → s1.access c .kestrel .mover .w va n = (.ok t e, s2) →
        let s3 := if (s2.cluster c).storeBuf.length < 16 then s2 else s2.drainN 1 c
        Gives (exec i s) (fun u => OnlyCluster c s3 u ∧ u.cluster c = { s3.cluster c with
          storeBuf := (s3.cluster c).storeBuf ++ [{ target := t, gen := (e.map (·.gen)).getD 0
                                                    cacheable := e.any (·.cacheable), aspace := (s2.aspOf c).val
                                                    va := va, size := n, data := (s2.kestrel c).get rb }]
          k := { s3.kestrel c with pc := (s3.kestrel c).pc + 4 } }))
      ∧ (va.toNat % n = 0 → s1.access c .kestrel .mover .w va n = (.fault, s2) → exec i s = .next (s2.xlateFault c 2 va n))
      ∧ (va.toNat % n = 0 → s1.access c .kestrel .mover .w va n = (.violation, s2) →
          exec i s = .next (s2.raise c 0x06 va (s2.kestrel c).pc))
      ∧ (va.toNat % n ≠ 0 → exec i s = .next (s1.raise c 0x04 va (s1.kestrel c).pc))
    stores (.sb c rb ra imm) 1 ∧ stores (.sh c rb ra imm) 2 ∧ stores (.sw c rb ra imm) 4 ∧ stores (.sd c rb ra imm) 8)
  ∧ (∀ (s : State) (c : ClusterId) (e : StoreEntry),
    let bytes := toBytes e.size e.data.toNat
    (∀ off, e.target = .store off → e.size ∈ [1, 2, 4, 8] → off % e.size = 0 → Mem.wf (s.cluster c).store = true →
      (s.cluster c).storeBad = [] →
      OnlyCluster c s (s.drainEntry c e)
      ∧ { (s.drainEntry c e).cluster c with store := (s.cluster c).store } = s.cluster c
      ∧ Mem.readBytes ((s.drainEntry c e).cluster c).store off e.size = bytes
      ∧ SameOutside (s.cluster c).store ((s.drainEntry c e).cluster c).store off e.size)
    ∧ (∀ pa, e.target = .device pa → e.cacheable = false → s.fencedUnit pa = none → Mem.wf s.memory.mem = true →
      (s.cluster c).l1Find e.target = none →
      (∀ r, s.entryAt (AspId.ofNat' e.aspace) e.va.toNat = some r → r.counted = false) →
      s.migration (AspId.ofNat' e.aspace) e.va.toNat = none →
      Mem.readBytes (s.drainEntry c e).memory.mem pa e.size = bytes
      ∧ SameOutside s.memory.mem (s.drainEntry c e).memory.mem pa e.size
      ∧ (s.drainEntry c e).clusters = s.clusters))

/-- ATOMIC on the own store (R101, R324): after the store buffer has drained and the maintenance held for fills is done, g(rd) takes the old value (32-bit forms
sign-extended) and the bytes at g(ra) the new one: sum, signed minimum or maximum, operand, operand if the old value equals g(rd),
or the binary32 or binary64 sum; every other byte, register and unit stays. A nonzero MINOR10[8:4] raises ILLEGAL_OP (log entry
20), a misaligned address MISALIGN. -/
def Obligations.AtomicsUpdateTheOwnStore : Prop :=
  ∀ (s s1 : State) (c : ClusterId) (rd ra rb : BitVec 5) (minor : BitVec 6), Issues s c 4 s1 →
    let va := (s1.kestrel c).get ra
    let a := va.toNat
    let s0 := (s1.drainStores c).settleAllHeld c
    let x := s0.cluster c
    let v := x.k.get rb
    let d := x.k.get rd
    let lands (i : Instr) (n old new : Nat) (r : Word) : Prop :=
      a % n = 0 → a + n ≤ shadowBase → old = ofBytes (Mem.readBytes x.store a n) → x.storeFails a n = false →
      Mem.wf x.store = true → x.storeBad = [] → x.sound = true →
      Gives (exec i s) (fun t => OnlyCluster c s0 t ∧ { t.cluster c with k := x.k, store := x.store } = x
        ∧ { t.kestrel c with g := x.k.g } = { x.k with pc := x.k.pc + 4 }
        ∧ (∀ q, (t.kestrel c).get q = if q = rd ∧ q ≠ 0 then r else x.k.get q)
        ∧ Mem.readBytes (t.cluster c).store a n = toBytes n new ∧ SameOutside x.store (t.cluster c).store a n)
    let both (op : Nat) (i : BitVec 6 → Instr) (new64 : Word → Word) (new32 : BitVec 32 → BitVec 32) : Prop :=
      (∀ old : Word, lands (i 0) 8 old.toNat (new64 old).toNat old)
      ∧ (∀ old : BitVec 32, lands (i 32) 4 old.toNat (new32 old).toNat (old.signExtend 64))
      ∧ (minor.toNat % 32 ≠ 0 → exec (i minor) s
          = .next (s1.raise c 0x01 (wordRR 0x0A rd ra rb (op + 16 * minor.toNat)) (s1.kestrel c).pc))
      ∧ (a % 8 ≠ 0 → exec (i 0) s = .next (s1.raise c 0x04 va (s1.kestrel c).pc))
    let v32 : BitVec 32 := v.setWidth 32
    both 0 (.atadd c rd ra rb) (fun o => o + v) (fun o => o + v32)
    ∧ both 1 (.atmin c rd ra rb) (fun o => if o.toInt < v.toInt then o else v) (fun o => if o.toInt < v32.toInt then o else v32)
    ∧ both 2 (.atmax c rd ra rb) (fun o => if o.toInt < v.toInt then v else o) (fun o => if o.toInt < v32.toInt then v32 else o)
    ∧ both 3 (.atswp c rd ra rb) (fun _ => v) (fun _ => v32)
    ∧ both 4 (.atcas c rd ra rb) (fun o => if o = d then v else o) (fun o => if o = d.setWidth 32 then v32 else o)
    ∧ both 5 (.atfadd c rd ra rb) (fun o => BitVec.ofNat 64 (addF fmtF64 .rne false o.toNat v.toNat).1)
        (fun o => BitVec.ofNat 32 (addF fmtF32 .rne false o.toNat v32.toNat).1)

/-- CACHE forms (R104, R325, R326): by address on a translated DEVICE line that is present and not pending, CLEAN writes its dirty
bytes back and keeps the line clean, INVAL removes it, CLEAN_INVAL does both; an address in the own store or the window only moves on;
by set and way at S or O the line there is treated so, and at J the form raises PRIV. Before each the store buffer drains.

What maintenance does to a DEVICE line of the L1D (R311, R325): CLEAN and CLEAN_INVAL land exactly its dirty bytes in device memory
and keep the line with no dirty byte, or remove it; INVAL removes it and lands nothing.

FENCE, FENCE_V, FENCE_H (R102, R322): FENCE drains the store buffer, performs the maintenance held for fills and goes on once the
runtime's mover queue is empty and, for scope FABRIC, no request to a peer waits, of the Kestrel or of the runtime's mover work, else
stays the next instruction; FENCE_V drains and goes on; FENCE_H goes on. Scope 3 raises
RSVD_ENC. -/
def Obligations.CacheFormsAndFencesMaintainLines : Prop :=
  (∀ (s s1 s2 : State) (c : ClusterId) (ra : BitVec 5), Issues s c 4 s1 →
    let va := (s1.kestrel c).get ra
    let s0 := s1.drainStores c
    let s3 := s2.drainStores c
    let onPast (op : CacheOp) (l : L1Line) (z : State) (u : State) : Prop :=
      u = (z.maintain c l op).advance c 4
    let forms (i isw : Instr) (op : CacheOp) (m3 : Nat) : Prop :=
      (va.toNat < storeSize ∨ windowBase ≤ va.toNat → Gives (exec i s) (Jumps c ((s1.kestrel c).pc + 4) s1))
      ∧ (∀ (pa : Nat) (e : Option RangeEntry) (l : L1Line), storeSize ≤ va.toNat → va.toNat < windowBase →
          s1.access c .mover .mover .r va 1 = (.ok (.device pa) e, s2) → (s3.cluster c).l1Find (.device pa) = some l →
          l.pending = false → (s3.kestrel c).det = false → Gives (exec i s) (onPast op l s3))
      ∧ (∀ (l : L1Line), (s1.kestrel c).level ≠ 0 → (s0.cluster c).l1d.find? (fun y =>
            decide (y.set = va.setWidth 8) && decide (y.way = (va >>> 8).setWidth 2)) = some l →
          l.pending = false → (s0.kestrel c).det = false → Gives (exec isw s) (onPast op l s0))
      ∧ ((s1.kestrel c).level = 0 → exec isw s = .next (s1.raise c 0x03 (wordRI 0x15 0 ra m3 0) (s1.kestrel c).pc))
    forms (.clean c 0 ra 0) (.cleanSw c 0 ra 0) .clean 3
    ∧ forms (.inval c 0 ra 0) (.invalSw c 0 ra 0) .inval 4
    ∧ forms (.cleanInval c 0 ra 0) (.cleanInvalSw c 0 ra 0) .cleanInval 5)
  ∧ (∀ (s : State) (c : ClusterId) (l : L1Line) (line : Nat), l.target = .device (64 * line) → l.poison = false →
    s.fencedUnit (64 * line) = none →
    Mem.wf s.memory.mem = true →
    let byte (i : Nat) : Byte := (l.bytes >>> (8 * i)).setWidth 8
    let landed (t : State) : Prop := (∀ i, i < 64 → Mem.read t.memory.mem (64 * line + i)
        = if l.dirty.getLsbD i then byte i else Mem.read s.memory.mem (64 * line + i))
      ∧ SameOutside s.memory.mem t.memory.mem (64 * line) 64
    (landed (s.maintain c l .clean) ∧ ((s.maintain c l .clean).cluster c).l1Find l.target = some { l with dirty := 0 })
    ∧ (landed (s.maintain c l .cleanInval) ∧ ((s.maintain c l .cleanInval).cluster c).l1Find l.target = none)
    ∧ ((s.maintain c l .inval).memory.mem = s.memory.mem ∧ ((s.maintain c l .inval).cluster c).l1Find l.target = none))
  ∧ (∀ (s s1 : State) (c : ClusterId) (imm : BitVec 12), Issues s c 4 s1 →
    let s0 := (s1.drainStores c).settleAllHeld c
    let past (z : State) : State → Prop := Jumps c ((z.kestrel c).pc + 4) z
    (imm.toNat < 3 ∧ (s0.cluster c).queue = [] ∧ (imm = 2 → s0.awaits c .kestrel = false ∧ s0.awaitsRuntime c = false) →
      Gives (exec (.fence c 0 0 imm) s) (past s0))
    ∧ (imm.toNat < 3 ∧ ((s0.cluster c).queue ≠ [] ∨ (imm = 2 ∧ (s0.awaits c .kestrel = true ∨ s0.awaitsRuntime c = true))) →
      exec (.fence c 0 0 imm) s = .next s0)
    ∧ (3 ≤ imm.toNat → exec (.fence c 0 0 imm) s = .next (s1.raise c 0x02 (wordRI 0x16 0 0 0 imm) (s1.kestrel c).pc))
    ∧ Gives (exec (.fenceV c 0 0 0) s) (past s0)
    ∧ Gives (exec (.fenceH c 0 0 0) s) (past s1))

/-! ### Kestrel: system registers -/

/-- Who may read and write which system register (R98, R143, R162, R196, R218), by number, at J, S and O: (read, write).

MFSR (R98, R99): where the level may read, g(rd) takes the register: each by its number; a number without a row raises RSVD_ENC,
a register the level may not read PRIV, each with the instruction word.

MTSR (R97-R99, R144, R162, R196, R218): where the level may write and the value is in range, the register takes it and the PC
moves on, and nothing else changes; a value out of range raises RSVD_ENC, also where the level may not write, a number without a row
too, and else a register the level may not write PRIV (R134), and nothing is written. -/
def Obligations.SystemRegistersAreReadAndWritten : Prop :=
  (let row (n : Nat) (j s o : Bool × Bool) : Prop :=
    sysAccess n 0 = some j ∧ sysAccess n 1 = some s ∧ sysAccess n 2 = some o
  let no : Bool × Bool := (false, false)
  let r : Bool × Bool := (true, false)
  let w : Bool × Bool := (false, true)
  let rw : Bool × Bool := (true, true)
  row 0x000 r rw rw ∧ row 0x001 no rw rw ∧ row 0x002 no rw rw ∧ row 0x003 no rw rw ∧ row 0x004 no r r ∧ row 0x005 no rw rw
  ∧ row 0x006 no rw rw ∧ row 0x010 r r r ∧ row 0x011 r r r ∧ row 0x012 no r r ∧ row 0x020 r r r ∧ row 0x030 no rw rw
  ∧ row 0x031 no rw rw ∧ row 0x032 no rw rw ∧ row 0x040 no rw r ∧ row 0x041 no w no ∧ row 0x049 no w no
  ∧ row 0x050 no no r ∧ row 0x051 no no r ∧ row 0x052 no no r ∧ row 0x053 no no r ∧ row 0x054 no no r
  ∧ row 0x060 r rw rw ∧ row 0x061 rw rw rw ∧ row 0x062 rw rw rw ∧ row 0x063 no r r ∧ row 0x070 rw rw rw ∧ row 0x071 r rw rw
  ∧ (∀ n, n < 32 → row (0x080 + n) rw rw rw)
  ∧ ∀ (n : Nat) (l : BitVec 2), n ∉ [0, 1, 2, 3, 4, 5, 6, 0x10, 0x11, 0x12, 0x20, 0x30, 0x31, 0x32, 0x40, 0x41, 0x49, 0x50,
      0x51, 0x52, 0x53, 0x54, 0x60, 0x61, 0x62, 0x63, 0x70, 0x71] → ¬(0x080 ≤ n ∧ n < 0x0A0) → sysAccess n l = none)
  ∧ (∀ (s s1 : State) (c : ClusterId) (rd : BitVec 5), Issues s c 4 s1 →
    let x := s1.cluster c
    let k := x.k
    let reads (n : Nat) (v : Word) : Prop :=
      (∀ w, sysAccess n k.level = some (true, w) → (0x080 ≤ n → s.slotBusy c (n % 16) = false) →
        Gives (exec (.mfsr c rd 0 (BitVec.ofNat 12 n)) s) (WritesReg c rd v 4 s1))
      ∧ (∀ w, sysAccess n k.level = some (false, w) → exec (.mfsr c rd 0 (BitVec.ofNat 12 n)) s
          = .next (s1.raise c 0x03 (wordSY 0 rd 0 (BitVec.ofNat 12 n)) k.pc))
    reads 0x000 (BitVec.ofNat 64 (k.level.toNat + (if k.ie then 4 else 0) + (if k.det then 8 else 0)))
    ∧ reads 0x001 (k.cause.setWidth 64) ∧ reads 0x002 k.tval ∧ reads 0x003 k.esp ∧ reads 0x004 (s1.irqPend k)
    ∧ reads 0x005 k.irqEn ∧ reads 0x006 k.timecmp ∧ reads 0x010 ((s1.clId c).setWidth 64) ∧ reads 0x011 (s1.jobInfo c)
    ∧ reads 0x012 (s1.seedOf c) ∧ reads 0x020 s1.tick ∧ reads 0x030 (if k.det then 1 else 0) ∧ reads 0x031 k.csback
    ∧ reads 0x032 k.cslive ∧ reads 0x040 (k.ssp.setWidth 64) ∧ reads 0x050 k.ocause ∧ reads 0x051 k.otval
    ∧ reads 0x052 k.oepc ∧ reads 0x053 k.ostatus ∧ reads 0x054 k.oesp ∧ reads 0x060 (x.h.vl.setWidth 64)
    ∧ reads 0x061 (x.h.vctl.setWidth 64) ∧ reads 0x062 (x.h.vflags.setWidth 64)
    ∧ reads 0x063 (BitVec.ofNat 64 (x.h.vprogIndex.toNat + (if x.h.vprogValid then 2 ^ 31 else 0)))
    ∧ reads 0x070 (x.m.hflags.setWidth 64) ∧ reads 0x071 (x.m.hctl.setWidth 64)
    ∧ (∀ n, n < 16 → reads (0x080 + n) (x.h.slot n).value ∧ reads (0x090 + n)
        (BitVec.ofNat 64 ((if (x.h.slot n).nanSeen then 1 else 0) + (if (x.h.slot n).infSeen then 2 else 0))))
    ∧ (∀ code : BitVec 12, sysAccess code.toNat k.level = none → s.sysWaits c code = false →
        exec (.mfsr c rd 0 code) s = .next (s1.raise c 0x02 (wordSY 0 rd 0 code) k.pc))
    ∧ ∀ (code : BitVec 12) (w : Bool), sysAccess code.toNat k.level = some (false, w) → s.sysWaits c code = false →
        exec (.mfsr c rd 0 code) s = .next (s1.raise c 0x03 (wordSY 0 rd 0 code) k.pc))
  ∧ (∀ (s s1 : State) (c : ClusterId) (ra : BitVec 5), Issues s c 4 s1 →
    let x := s1.cluster c
    let k := x.k
    let v := k.get ra
    let on (y : Cluster) : Cluster := { y with k := { y.k with pc := k.pc + 4 } }
    let writes (n : Nat) (ok : Prop) [Decidable ok] (y : Cluster) : Prop :=
      (∀ r, sysAccess n k.level = some (r, true) → (0x080 ≤ n → s.slotBusy c (n % 16) = false) →
        (ok → Gives (exec (.mtsr c 0 ra (BitVec.ofNat 12 n)) s) (fun t => OnlyCluster c s1 t ∧ t.cluster c = on y))
        ∧ (¬ok → exec (.mtsr c 0 ra (BitVec.ofNat 12 n)) s
            = .next (s1.raise c 0x02 (wordSY 1 0 ra (BitVec.ofNat 12 n)) k.pc)))
      ∧ (∀ r, sysAccess n k.level = some (r, false) → (0x080 ≤ n → s.slotBusy c (n % 16) = false) →
          exec (.mtsr c 0 ra (BitVec.ofNat 12 n)) s
            = .next (s1.raise c (if ok then 0x03 else 0x02) (wordSY 1 0 ra (BitVec.ofNat 12 n)) k.pc))
    writes 0x000 (v.toNat < 16 ∧ (k.level = 2 → v.toNat % 4 = 2) ∧ (k.level ≠ 2 → v.toNat % 4 ≤ 1))
        { x with k := { k with level := v.setWidth 2, ie := v.getLsbD 2 } }
    ∧ writes 0x001 (v.toNat < 256) { x with k := { k with cause := v.setWidth 8 } }
    ∧ writes 0x002 True { x with k := { k with tval := v } }
    ∧ writes 0x003 (v.toNat % 32 = 0 ∧ v.toNat ≤ 0x800000) { x with k := { k with esp := v } }
    ∧ writes 0x005 (v.toNat < 64) { x with k := { k with irqEn := v } }
    ∧ writes 0x006 True { x with k := { k with timecmp := v } }
    ∧ writes 0x031 (v.toNat % 4096 = 0 ∧ (v = 0 ∨ 0x800000 ≤ v.toNat)) { x with k := { k with csback := v } }
    ∧ writes 0x032 (v.toNat % 4096 = 0 ∧ v.toNat ≤ 131072) { x with k := { k with cslive := v } }
    ∧ writes 0x040 (v.toNat ≤ k.ssp.toNat ∧ v.toNat ≤ 4096) { x with k := { k with ssp := v.setWidth 13 } }
    ∧ writes 0x060 (v.toNat ≤ 2048) { x with h := { x.h with vl := v.setWidth 12 } }
    ∧ writes 0x061 (v.toNat < 256) { x with h := { x.h with vctl := v.setWidth 8 } }
    ∧ writes 0x062 (v.toNat < 32) { x with h := { x.h with vflags := v.setWidth 5 } }
    ∧ writes 0x070 (v.toNat < 8) { x with m := { x.m with hflags := v.setWidth 3 } }
    ∧ writes 0x071 (v.toNat < 8) { x with m := { x.m with hctl := v.setWidth 3 } }
    ∧ (∀ code : BitVec 12, sysAccess code.toNat k.level = none → s.sysWaits c code = false →
        exec (.mtsr c 0 ra code) s = .next (s1.raise c 0x02 (wordSY 1 0 ra code) k.pc))
    ∧ (∀ (code : BitVec 12) (r : Bool), sysAccess code.toNat k.level = some (r, false) → s.sysWaits c code = false →
        exec (.mtsr c 0 ra code) s
          = .next (s1.raise c (if sysValueOk k code.toNat v.toNat = true then 0x03 else 0x02) (wordSY 1 0 ra code) k.pc))
    ∧ ∀ n, n < 16 → writes (0x080 + n) (v.toNat < 0x7FF0000000000000)
          { x with h := x.h.setSlot n { x.h.slot n with value := v } }
        ∧ writes (0x090 + n) (v.toNat < 4)
          { x with h := x.h.setSlot n { x.h.slot n with nanSeen := v.getLsbD 0, infSeen := v.getLsbD 1 } })

/-- The MTSR forms with an effect of their own, at S (R118, R142-R146): SSPUSH pushes the value OR 1 when the stack has room; an
ESCALATE of an allowed cause enters the Owl with it as ORIG; MODE takes DET, and setting it drains the store buffer, cleans and
invalidates the L1D and empties the L1I. At J each raises PRIV. -/
def Obligations.EscalateSspushAndMode : Prop :=
  ∀ (s s1 : State) (c : ClusterId) (ra : BitVec 5), Issues s c 4 s1 →
    let k := s1.kestrel c
    let v := k.get ra
    let slot := shadowBase + 8 * k.ssp.toNat
    let s0 := s1.drainStores c
    (k.level = 1 ∧ v.getLsbD 1 = false ∧ k.ssp.toNat < 4096 ∧ Mem.wf (s1.cluster c).store = true →
      Gives (exec (.sspush c 0 ra) s) (fun t => OnlyCluster c s1 t
        ∧ { t.cluster c with
            k := k, store := (s1.cluster c).store, storeBad := (s1.cluster c).storeBad } = s1.cluster c
        ∧ t.kestrel c = { k with ssp := k.ssp + 1, pc := k.pc + 4 }
        ∧ Mem.readBytes (t.cluster c).store slot 8 = toBytes 8 (v ||| 1).toNat
        ∧ SameOutside (s1.cluster c).store (t.cluster c).store slot 8))
    ∧ (k.level = 1 ∧ v.getLsbD 1 = true → exec (.sspush c 0 ra) s = .next (s1.raise c 0x02 (wordSY 1 0 ra 0x041) k.pc))
    ∧ (k.level = 1 ∧ v.toNat ∈ [1, 2, 3, 4, 9, 0xA, 0xF, 0x10] ∧ (s0.kestrel c).level = 1
        ∧ Mem.wf (s0.cluster c).store = true ∧ (s0.cluster c).storeFails 0x7FFF60 160 = false →
      Gives (exec (.escalate c 0 ra) s) (OwlEntered c (0x1F + 2 ^ 8 * v.toNat + 2 ^ 24) k.tval k.pc s0))
    ∧ (k.level = 1 ∧ v.toNat ∉ [1, 2, 3, 4, 9, 0xA, 0xF, 0x10] →
      exec (.escalate c 0 ra) s = .next (s1.raise c 0x02 (wordSY 1 0 ra 0x049) k.pc))
    ∧ (k.level ≠ 0 ∧ v = 0 → Gives (exec (.modeDet c 0 ra) s) (fun t => OnlyKestrel c s1 t
        ∧ t.kestrel c = { k with det := false, pc := k.pc + 4 }))
    ∧ (k.level ≠ 0 ∧ v = 1 → Gives (exec (.modeDet c 0 ra) s) (fun t => (t.kestrel c).det = true
        ∧ (t.cluster c).l1i = [] ∧ t = ((s0.cleanL1 c true).modCluster c (fun x => { x with
            l1i := [], k := { x.k with det := true, pc := x.k.pc + 4 } }))))
    ∧ (k.level = 0 ∧ v = 1 → exec (.sspush c 0 ra) s = .next (s1.raise c 0x03 (wordSY 1 0 ra 0x041) k.pc)
      ∧ exec (.escalate c 0 ra) s = .next (s1.raise c 0x03 (wordSY 1 0 ra 0x049) k.pc)
      ∧ exec (.modeDet c 0 ra) s = .next (s1.raise c 0x03 (wordSY 1 0 ra 0x030) k.pc))

/-! ### Harrier -/

/-- VARITH on integers and bits (R155, R157, R160, R204, R208): each active element of VD takes the result of the elements of VA and
of VB, or of g(GS) with IMM8[0], modulo its width; ABSD where its result lies in the type's range. No flag is set.

VARITH on computing floats (R155, R157, R160, R203-R207): each active element of VD takes the correctly rounded result in the type's
format, under RM and FTZ, and VFLAGS the flags of the active elements.

VFMA (R160, R173): each active element of VD takes ±a × b ± z with one rounding, the addend z from VD, or from VC for VFMAC; VOPA.f64
adds the outer product of 4s elements of VA and 64 of VB to 4s rows of 64 columns. -/
def Obligations.VectorArithmeticWritesElements : Prop :=
  (∀ (s s1 : State) (c : ClusterId) (f : VFields), Issues s c 8 s1 → (s1.kestrel c).level ≠ 2 →
    let h := (s1.cluster c).h
    let t := f.etype.toNat
    let w := 8 * esize t
    let n := spanOf f
    let bc := f.imm8.getLsbD 0
    let a (i : Nat) : Nat := h.elem f.va.toNat (esize t) i
    let b (i : Nat) : Nat := if bc then (s1.g c f.gs).toNat % 2 ^ w else h.elem f.vb.toNat (esize t) i
    let srcs (unary : Bool) := if unary || bc then [(f.va.toNat, n)] else [(f.va.toNat, n), (f.vb.toNat, n)]
    isInt t = true → spanBad f = false →
    let rel (i : Instr) (unary rounds : Bool) (new : Nat → Nat → Prop) : Prop :=
      fieldsBad (arithUse f unary rounds) f = false → regsBad f.vd.toNat n (srcs unary) = false →
      Gives (exec i s) (fun u => VEnds c 0 s1 u ∧ VDest f f.vd.toNat n (esize t) h (u.cluster c).h new)
    let op (i : Instr) (unary rounds : Bool) (r : Int → Int → Int) : Prop :=
      rel i unary rounds (fun k x => (x : Int) = r (intOf t (a k)) (intOf t (b k)) % 2 ^ w)
    let bits (i : Instr) (r : Nat → Nat → Nat) : Prop := rel i false false (fun k x => x = r (a k) (b k))
    op (.vadd c f) false true (fun x y => x + y) ∧ op (.vsub c f) false true (fun x y => x - y)
    ∧ op (.vmul c f) false true (fun x y => x * y) ∧ op (.vmulh c f) false false (fun x y => x * y / 2 ^ w)
    ∧ op (.vmin c f) false false min ∧ op (.vmax c f) false false max
    ∧ bits (.vand c f) (fun x y => x &&& y) ∧ bits (.vor c f) (fun x y => x ||| y) ∧ bits (.vxor c f) (fun x y => x ^^^ y)
    ∧ bits (.vsll c f) (fun x y => x * 2 ^ (y % w) % 2 ^ w) ∧ bits (.vsrl c f) (fun x y => x / 2 ^ (y % w))
    ∧ rel (.vsra c f) false false (fun k x =>
        (x : Int) = (if 2 ^ (w - 1) ≤ a k then (a k : Int) - 2 ^ w else a k) / 2 ^ (b k % w) % 2 ^ w)
    ∧ op (.vabs c f) true false (fun x _ => x.natAbs) ∧ op (.vneg c f) true false (fun x _ => -x)
    ∧ rel (.vabsd c f) false false (fun k x => ((intOf t (a k) - intOf t (b k)).natAbs : Int) ≤ intHi t →
        x = (intOf t (a k) - intOf t (b k)).natAbs))
  ∧ (∀ (s s1 : State) (c : ClusterId) (f : VFields), Issues s c 8 s1 → (s1.kestrel c).level ≠ 2 →
    let h := (s1.cluster c).h
    let t := f.etype.toNat
    let fm := fmtOf t
    let ftz := h.vctl.getLsbD 2
    let n := spanOf f
    let bc := f.imm8.getLsbD 0
    let a (i : Nat) : Nat := h.elem f.va.toNat (esize t) i
    let b (i : Nat) : Nat := if bc then (s1.g c f.gs).toNat % 2 ^ (8 * esize t) else h.elem f.vb.toNat (esize t) i
    let srcs (unary : Bool) := if unary || bc then [(f.va.toNat, n)] else [(f.va.toNat, n), (f.vb.toNat, n)]
    isFloat t = true → spanBad f = false →
    let op (i : Instr) (unary rounds : Bool) (r : Nat → Nat → Nat × FFlags) : Prop :=
      fieldsBad (arithUse f unary rounds) f = false → regsBad f.vd.toNat n (srcs unary) = false →
      Gives (exec i s) (fun u =>
        VEnds c (flagsOf h f ((List.range (positions f)).map (fun k => (r (a k) (b k)).2))).bits s1 u
        ∧ VDest f f.vd.toNat n (esize t) h (u.cluster c).h (fun k x => x = (r (a k) (b k)).1 % 2 ^ (8 * esize t)))
    op (.vadd c f) false true (addF fm (rmOf h f) ftz)
    ∧ op (.vsub c f) false true (fun x y => addF fm (rmOf h f) ftz x (negF fm y))
    ∧ op (.vmul c f) false true (mulF fm (rmOf h f) ftz)
    ∧ op (.vmin c f) false false (minMaxF fm ftz false) ∧ op (.vmax c f) false false (minMaxF fm ftz true)
    ∧ op (.vabs c f) true false (fun x _ => signF fm ftz true x) ∧ op (.vneg c f) true false (fun x _ => signF fm ftz false x)
    ∧ op (.vdiv c f) false true (divF fm (rmOf h f) ftz) ∧ op (.vsqrt c f) true true (fun x _ => sqrtF fm (rmOf h f) ftz x))
  ∧ (∀ (s s1 : State) (c : ClusterId) (f : VFields), Issues s c 8 s1 → (s1.kestrel c).level ≠ 2 →
    let h := (s1.cluster c).h
    let t := f.etype.toNat
    let n := spanOf f
    let bc := f.imm8.getLsbD 0
    let el (reg i : Nat) : Nat := h.elem reg (esize t) i
    let b (i : Nat) : Nat := if bc then (s1.g c f.gs).toNat % 2 ^ (8 * esize t) else el f.vb.toNat i
    let srcs (vc : Bool) := [(f.va.toNat, n)] ++ (if bc then [] else [(f.vb.toNat, n)]) ++ (if vc then [(f.vc.toNat, n)] else [])
    let ends (i : Instr) (r : Nat → Nat × FFlags) : Prop := Gives (exec i s) (fun u =>
      VEnds c (flagsOf h f ((List.range (positions f)).map (fun k => (r k).2))).bits s1 u
      ∧ VDest f f.vd.toNat n (esize t) h (u.cluster c).h (fun k x => x = (r k).1 % 2 ^ (8 * esize t)))
    let fma (i : Instr) (negP negC vc : Bool) : Prop :=
      fieldsBad { arithUse f false true with vc := vc } f = false → arithType t = true → spanBad f = false →
      regsBad f.vd.toNat n (srcs vc) = false →
      let z (k : Nat) : Nat := el (if vc then f.vc.toNat else f.vd.toNat) k
      ends i (fun k => if isInt t then
          (((if negP then -1 else 1) * (intOf t (el f.va.toNat k) * intOf t (b k))
            + (if negC then -1 else 1) * intOf t (z k)) % 2 ^ (8 * esize t) |>.toNat, FFlags.none)
        else fmaF (fmtOf t) (rmOf h f) (h.vctl.getLsbD 2) negP negC (el f.va.toNat k) (b k) (z k))
    fma (.vfma c f) false false false ∧ fma (.vfms c f) false true false ∧ fma (.vfnma c f) true false false
    ∧ fma (.vfmac c f) false false true
    ∧ (fieldsBad (arithUse f false true) f = false → f.etype = 5 →
        regsBad f.vd.toNat n ([(f.va.toNat, 1)] ++ (if bc then [] else [(f.vb.toNat, 1)])) = false → n ≤ 8 →
        ends (.vopa c f) (fun k => fmaF fmtF64 (rmOf h f) (h.vctl.getLsbD 2) false false
          (h.elem f.va.toNat 8 (k / 64)) (if bc then (s1.g c f.gs).toNat else h.elem f.vb.toNat 8 (k % 64))
          (h.elem f.vd.toNat 8 k))))

/-- VCMP (R158, R160, R209): bit i of the predicate is set exactly for the active elements whose comparison holds; every other bit is
clear, and every other register is unchanged.

VCVT (R160, R172, R210-R213, R219): each active element of VD takes the conversion of its element of VA, scaled by g(GS) as .f32
with IMM8[5], and VFLAGS the flags; with IMM8[4] the AMAX slot of IMM8[3:0] gathers the active source values, else the slots stay. A
VCVT whose slot an unfinished CONVERT uses leaves the state. -/
def Obligations.VectorComparesAndConversions : Prop :=
  (∀ (s s1 : State) (c : ClusterId) (f : VFields), Issues s c 8 s1 → (s1.kestrel c).level ≠ 2 →
    let h := (s1.cluster c).h
    let t := f.etype.toNat
    let n := spanOf f
    let bc := f.imm8.getLsbD 0
    let a (i : Nat) : Nat := h.elem f.va.toNat (esize t) i
    let b (i : Nat) : Nat := if bc then (s1.g c f.gs).toNat % 2 ^ (8 * esize t) else h.elem f.vb.toNat (esize t) i
    fieldsBad { arithUse f false false with pz := false } f = false → f.vd.toNat < 8 → arithType t = true →
    spanBad f = false → f.va.toNat + n ≤ 32 → (bc = false → f.vb.toNat + n ≤ 32) →
    let cmp (i : Instr) (op : Nat) (p : Int → Int → Prop) : Prop :=
      let holds (k : Nat) : Prop := if isInt t then p (intOf t (a k)) (intOf t (b k))
        else (cmpF (fmtOf t) (h.vctl.getLsbD 2) op (a k) (b k)).1 = true
      let fl := if isInt t then FFlags.none else flagsOf h f ((List.range (positions f)).map (fun k =>
        (cmpF (fmtOf t) (h.vctl.getLsbD 2) op (a k) (b k)).2))
      Gives (exec i s) (fun u => VEnds c fl.bits s1 u ∧ (u.cluster c).h.v = h.v ∧ (u.cluster c).h.amax = h.amax
        ∧ (∀ q, q ≠ f.vd.toNat → (u.cluster c).h.pred q = h.pred q)
        ∧ ∀ k, k < 2048 → (((u.cluster c).h.pred f.vd.toNat).getLsbD k = true
            ↔ k < positions f ∧ active h f k = true ∧ holds k))
    cmp (.vcmpEq c f) 0 (fun x y => x = y) ∧ cmp (.vcmpNe c f) 1 (fun x y => x ≠ y) ∧ cmp (.vcmpLt c f) 2 (fun x y => x < y)
    ∧ cmp (.vcmpLe c f) 3 (fun x y => x ≤ y) ∧ cmp (.vcmpGt c f) 4 (fun x y => x > y) ∧ cmp (.vcmpGe c f) 5 (fun x y => x ≥ y))
  ∧ (∀ (s s1 : State) (c : ClusterId) (f : VFields), Issues s c 8 s1 → (s1.kestrel c).level ≠ 2 →
    let h := (s1.cluster c).h
    let src := f.etype2.toNat
    let dst := f.etype.toNat
    let wide := if esize src < esize dst then dst else src
    let n := spanOf f * epr wide
    let slot := f.imm8.toNat % 16
    let gathers := f.imm8.getLsbD 4
    let scale := if f.imm8.getLsbD 5 then some ((s1.g c f.gs).toNat % 2 ^ 32) else none
    let a (i : Nat) : Nat := h.elem f.va.toNat (esize src) i
    let r (i : Nat) : Nat × FFlags := convertElem src dst (rmOf h f) (h.vctl.getLsbD 2) scale (a i)
    let use : VUse := { vd := true, va := true, vb := false, vc := false, pen := true, pz := true, span := true, etype := true
                        etype2 := true, gs := f.imm8.getLsbD 5, rm := true, imm := if gathers then 0x3F else 0x30 }
    (gathers = true → s.slotBusy c slot = true → exec (.vcvt c f) s = .next s)
    ∧ (fieldsBad use f = false → spanOf f ≤ esize wide →
        regsBad f.vd.toNat (regsFor n (esize dst)) [(f.va.toNat, regsFor n (esize src))] = false →
        (gathers = true → s.slotBusy c slot = false) →
        Gives (exec (.vcvt c f) s) (fun u =>
          VEnds c (flagsOf h f ((List.range n).map (fun k => (r k).2))).bits s1 u ∧ (u.cluster c).h.p = h.p
          ∧ (∀ i, i < n → (u.cluster c).h.elem f.vd.toNat (esize dst) i = if active h f i then (r i).1 % 2 ^ (8 * esize dst)
              else if f.pz then 0 else h.elem f.vd.toNat (esize dst) i)
          ∧ (∀ q, q < f.vd.toNat ∨ f.vd.toNat + regsFor n (esize dst) ≤ q → (u.cluster c).h.reg q = h.reg q)
          ∧ (gathers = false → (u.cluster c).h.amax = h.amax)
          ∧ (∀ q, q ≠ slot → (u.cluster c).h.slot q = h.slot q)
          ∧ (gathers = true → (u.cluster c).h.slot slot = ((List.range n).filter (active h f)).foldl
              (fun x i => x.gather s1.free (valueOf src (h.vctl.getLsbD 2) (a i))) (h.slot slot)))))

/-- VPERM (R160): slides by IMM8 and VGATHER take the element of VA at their place where it lies in the operand, BCAST g(GS), MVTO
writes element IMM8 only; MVG writes element IMM8 of VA to g(GS); COMPRESS packs the active elements of VA into the lowest ones of VD.
That VGATHER's places are signed for the signed types, and what COMPRESS leaves above, are the model's reading (log entry 27).

VSYS (R157, R160): VSETVL sets VL and g(VD) to the lesser of g(VA) and the element positions of the type and span; predicate AND,
OR and NOT combine whole predicates; VPCNT writes the number of set bits to g(GS). Whole predicates are the model's reading (log
entry 27). -/
def Obligations.VectorPermutesAndPredicates : Prop :=
  (∀ (s s1 : State) (c : ClusterId) (f : VFields), Issues s c 8 s1 → (s1.kestrel c).level ≠ 2 →
    let h := (s1.cluster c).h
    let t := f.etype.toNat
    let n := spanOf f
    let a (i : Nat) : Nat := h.elem f.va.toNat (esize t) i
    let ends (i : Instr) (srcs : List (Nat × Nat)) (use : VUse) (new : Nat → Nat → Prop) : Prop :=
      fieldsBad use f = false → spanBad f = false → regsBad f.vd.toNat n srcs = false →
      Gives (exec i s) (fun u => VEnds c 0 s1 u ∧ VDest f f.vd.toNat n (esize t) h (u.cluster c).h new)
    let place (k : Nat) : Int := if isInt t then intOf t (h.elem f.vb.toNat (esize t) k) else h.elem f.vb.toNat (esize t) k
    ends (.slideup c f) [(f.va.toNat, n)] (permUse true true false true false 0xFF)
      (fun k x => f.imm8.toNat ≤ k → x = a (k - f.imm8.toNat))
    ∧ ends (.slidedn c f) [(f.va.toNat, n)] (permUse true true false true false 0xFF)
      (fun k x => k + f.imm8.toNat < positions f → x = a (k + f.imm8.toNat))
    ∧ ends (.vgather c f) [(f.va.toNat, n), (f.vb.toNat, n)] (permUse true true true true false 0)
      (fun k x => 0 ≤ place k → place k < positions f → x = a (place k).toNat)
    ∧ ends (.bcast c f) [] (permUse true false false true true 0) (fun _ x => x = (s1.g c f.gs).toNat % 2 ^ (8 * esize t))
    ∧ ends (.mvto c f) [] (permUse true false false true true 0xFF) (fun k x =>
        x = if k = f.imm8.toNat then (s1.g c f.gs).toNat % 2 ^ (8 * esize t) else h.elem f.vd.toNat (esize t) k)
    ∧ (fieldsBad { permUse false true false false true 0xFF with pz := false } f = false → f.imm8.toNat < epr t →
        Gives (exec (.mvg c f) s) (fun u => OnlyCluster c s1 { u with free := s1.free }
          ∧ { u.cluster c with k := s1.kestrel c, h := h } = s1.cluster c ∧ (u.cluster c).h = { h with vprogValid := false }
          ∧ { u.kestrel c with g := (s1.kestrel c).g } = { s1.kestrel c with pc := (s1.kestrel c).pc + 8 }
          ∧ ∀ r, (u.kestrel c).get r = if r = f.gs ∧ r ≠ 0
              then (if isSigned t then BitVec.ofInt 64 (intOf t (a f.imm8.toNat)) else BitVec.ofNat 64 (a f.imm8.toNat))
              else (s1.kestrel c).get r))
    ∧ (fieldsBad (permUse true true false true false 0) f = false → spanBad f = false →
        regsBad f.vd.toNat n [(f.va.toNat, n)] = false →
        let kept := (List.range (positions f)).filter (active h f)
        Gives (exec (.compress c f) s) (fun u => VEnds c 0 s1 u
          ∧ (∀ r, r < f.vd.toNat ∨ f.vd.toNat + n ≤ r → (u.cluster c).h.reg r = h.reg r)
          ∧ ∀ k, k < positions f → (u.cluster c).h.elem f.vd.toNat (esize t) k
              = if k < kept.length then a (nthD kept k 0) else if f.pz then 0 else h.elem f.vd.toNat (esize t) k)))
  ∧ (∀ (s s1 : State) (c : ClusterId) (f : VFields), Issues s c 8 s1 → (s1.kestrel c).level ≠ 2 →
    let h := (s1.cluster c).h
    let n := min (s1.g c f.va).toNat (positions f)
    let use : VUse := { vd := true, va := true, vb := false, vc := false, pen := false, pz := false, span := true, etype := true
                        etype2 := false, gs := false, rm := false, imm := 0 }
    let preds (i : Instr) (vb : Bool) (v : BitVec 2048) : Prop := predBad f true vb false = false →
      Gives (exec i s) (fun u => VEnds c 0 s1 u ∧ (u.cluster c).h.v = h.v ∧ (u.cluster c).h.amax = h.amax
        ∧ ∀ q, (u.cluster c).h.pred q = if q = f.vd.toNat then v else h.pred q)
    (fieldsBad use f = false → spanBad f = false → Gives (exec (.vsetvl c f) s) (fun u =>
      OnlyCluster c s1 u ∧ { u.cluster c with k := s1.kestrel c, h := h } = s1.cluster c
      ∧ (u.cluster c).h = { h with vprogValid := false, vl := BitVec.ofNat 12 n }
      ∧ (u.kestrel c).pc = (s1.kestrel c).pc + 8
      ∧ ∀ r, (u.kestrel c).get r = if r = f.vd ∧ r ≠ 0 then BitVec.ofNat 64 n else (s1.kestrel c).get r))
    ∧ preds (.vpand c f) true (h.pred f.va.toNat &&& h.pred f.vb.toNat)
    ∧ preds (.vpor c f) true (h.pred f.va.toNat ||| h.pred f.vb.toNat)
    ∧ preds (.vpnot c f) false (~~~ h.pred f.va.toNat)
    ∧ (predBad f false false true = false → Gives (exec (.vpcnt c f) s) (fun u =>
      OnlyCluster c s1 u ∧ { u.cluster c with k := s1.kestrel c, h := h } = s1.cluster c
      ∧ (u.cluster c).h = { h with vprogValid := false } ∧ (u.kestrel c).pc = (s1.kestrel c).pc + 8
      ∧ ∀ r, (u.kestrel c).get r = if r = f.gs ∧ r ≠ 0
          then BitVec.ofNat 64 ((List.range 2048).countP (fun i => (h.pred f.va.toNat).getLsbD i))
          else (s1.kestrel c).get r)))

/-- VRED on integers (R157, R160, R170, R171): element 0 of VD takes the combination of every active element of VA and of element 0 of
VB: the sum as an .i64, the greatest, the least, the AND, OR or XOR; the other elements keep their values, or are zero with PZ.

VRED on floats (R170, R171): the active elements of VA combine pairwise in the tree over the positions, an absent node passing the
other, and the root with element 0 of VB: SUM rounds every node with RNE, MAX and MIN follow the NaN rules; VFLAGS takes the nodes'
flags. -/
def Obligations.ReductionsFoldTheElements : Prop :=
  (∀ (s s1 : State) (c : ClusterId) (f : VFields), Issues s c 8 s1 → (s1.kestrel c).level ≠ 2 →
    let h := (s1.cluster c).h
    let t := f.etype.toNat
    let n := spanOf f
    let b := esize t
    let xs := ((List.range (positions f)).filter (active h f)).map (fun i => h.elem f.va.toNat b i) ++ [h.elem f.vb.toNat b 0]
    let use : VUse := { vd := true, va := true, vb := true, vc := false, pen := true, pz := true, span := true, etype := true
                        etype2 := false, gs := false, rm := false, imm := 0 }
    isInt t = true → fieldsBad use f = false → spanBad f = false →
    regsBad f.vd.toNat n [(f.va.toNat, n), (f.vb.toNat, 1)] = false →
    let red (i : Instr) (w : Nat) (p : Nat → Prop) : Prop := Gives (exec i s) (fun u => VEnds c 0 s1 u
      ∧ p ((u.cluster c).h.elem f.vd.toNat w 0)
      ∧ (∀ k, k * b ≥ w → k ≠ 0 → k < positions f → (u.cluster c).h.elem f.vd.toNat b k
          = if f.pz then 0 else h.elem f.vd.toNat b k)
      ∧ (∀ q, q < f.vd.toNat ∨ f.vd.toNat + n ≤ q → (u.cluster c).h.reg q = h.reg q)
      ∧ (u.cluster c).h.p = h.p ∧ (u.cluster c).h.amax = h.amax)
    red (.vredsum c f) 8 (fun r => (r : Int) = (xs.map (intOf t)).sum % 2 ^ 64)
    ∧ red (.vredmax c f) b (fun r => r ∈ xs ∧ ∀ x ∈ xs, intOf t x ≤ intOf t r)
    ∧ red (.vredmin c f) b (fun r => r ∈ xs ∧ ∀ x ∈ xs, intOf t r ≤ intOf t x)
    ∧ red (.vredand c f) b (fun r => ∀ j, j < 8 * b → (r.testBit j = true ↔ ∀ x ∈ xs, x.testBit j = true))
    ∧ red (.vredor c f) b (fun r => ∀ j, j < 8 * b → (r.testBit j = true ↔ ∃ x ∈ xs, x.testBit j = true))
    ∧ red (.vredxor c f) b (fun r => r = xs.foldl (· ^^^ ·) 0))
  ∧ (∀ (s s1 : State) (c : ClusterId) (f : VFields), Issues s c 8 s1 → (s1.kestrel c).level ≠ 2 →
    let h := (s1.cluster c).h
    let t := f.etype.toNat
    let n := spanOf f
    let b := esize t
    let ftz := h.vctl.getLsbD 2
    let leaves := (List.range (positions f)).map (fun i =>
      if active h f i then some (h.elem f.va.toNat b i, FFlags.none) else none)
    let use (rm : Bool) : VUse := { vd := true, va := true, vb := true, vc := false, pen := true, pz := true, span := true
                                    etype := true, etype2 := false, gs := false, rm := rm, imm := 0 }
    isFloat t = true → spanBad f = false → regsBad f.vd.toNat n [(f.va.toNat, n), (f.vb.toNat, 1)] = false →
    let red (i : Instr) (rm : Bool) (op : Nat → Nat → Nat × FFlags) : Prop := fieldsBad (use rm) f = false →
      ∃ x, combine op ((tree op 11 leaves).headD none) (some (h.elem f.vb.toNat b 0, FFlags.none)) = some x
      ∧ Gives (exec i s) (fun u => VEnds c x.2.bits s1 u ∧ (u.cluster c).h.elem f.vd.toNat b 0 = x.1 % 2 ^ (8 * b)
        ∧ (∀ k, 0 < k → k < positions f → (u.cluster c).h.elem f.vd.toNat b k = if f.pz then 0 else h.elem f.vd.toNat b k)
        ∧ (∀ q, q < f.vd.toNat ∨ f.vd.toNat + n ≤ q → (u.cluster c).h.reg q = h.reg q)
        ∧ (u.cluster c).h.p = h.p ∧ (u.cluster c).h.amax = h.amax)
    red (.vredsum c f) true (addF (fmtOf t) .rne ftz) ∧ red (.vredmax c f) false (minMaxF (fmtOf t) ftz true)
    ∧ red (.vredmin c f) false (minMaxF (fmtOf t) ftz false))

/-! ### Harrier: memory -/

/-- Vector loads and stores of the own cluster store (R163, R164, R168, R308): with the fields of every active element aligned, below the
protected regions and without an uncorrectable word, a load gives each active element the bytes at its address, a store writes each
active element's bytes, in ascending order; the addresses are the base plus the element's size times its place, the stride times
its place, the scaled signed offset from VB, or the segment's fields. An element position below VPROG.INDEX is not done again.

A vector load or store stops at its first active element that is misaligned (R164-R167): VPROG names the element, the failure
MISALIGN with its address waits at the Kestrel, and for a unit-stride form of one element type no later element is done.

L1D_FILL and WALK (R271, R272, R310): the pending fill of a DEVICE line takes, for every byte that is not dirty, the byte at the
point of coherence; a walk that finds a LIVE entry puts it first in its port's range cache. -/
def Obligations.VectorMemoryMovesElements : Prop :=
  (∀ (s s1 : State) (c : ClusterId) (f : VFields), Issues s c 8 s1 →
    (s.cluster c).h = (s1.cluster c).h →
    let x := s1.cluster c
    let h := x.h
    let b := esize f.etype.toNat
    let n := spanOf f
    let start := if h.vprogValid then h.vprogIndex.toNat else 0
    let base := s1.g c f.gs
    let ib := if f.imm8.getLsbD 0 then 8 else 4
    let nf := f.imm8.toNat % 8 + 1
    let doing (i : Nat) : Bool := decide (start ≤ i) && active h f i
    let okAt (va : Word) : Prop := va.toNat % b = 0 ∧ va.toNat + b ≤ shadowBase
    let unit (i _k : Nat) : Word := base + BitVec.ofNat 64 (b * i)
    let strided (i _k : Nat) : Word := base + s1.g c f.vc * BitVec.ofNat 64 i
    let indexed (i _k : Nat) : Word := base + BitVec.ofInt 64
      ((if f.imm8.getLsbD 1 then (b : Int) else 1) * intOf (if ib = 8 then 4 else 3) (h.elem f.vb.toNat ib i))
    let segment (i k : Nat) : Word := base + BitVec.ofNat 64 (b * (nf * i + k))
    let onlyStores (u : State) : Prop := OnlyCluster c s1 u ∧ { u.cluster c with k := x.k, h := h, store := x.store } = x
      ∧ u.kestrel c = { x.k with pc := x.k.pc + 8 }
    let loads (i : Instr) (fields : Nat) (addr : Nat → Nat → Word) : Prop :=
      (∀ e k, e < positions f → doing e = true → k < fields → okAt (addr e k)) →
      Gives (exec i s) (fun u => onlyStores u ∧ (u.cluster c).store = x.store
        ∧ (∀ k, k < fields → ∀ e, e < positions f → (u.cluster c).h.elem (f.vd.toNat + k * n) b e
            = if doing e then ofBytes (Mem.readBytes x.store (addr e k).toNat b)
              else if start ≤ e ∧ f.pz then 0 else h.elem (f.vd.toNat + k * n) b e)
        ∧ (∀ r, r < f.vd.toNat ∨ f.vd.toNat + fields * n ≤ r → (u.cluster c).h.reg r = h.reg r)
        ∧ { (u.cluster c).h with v := h.v } = { h with vprogValid := false })
    let stores (i : Instr) (fields : Nat) (addr : Nat → Nat → Word) : Prop :=
      (∀ e k, e < positions f → doing e = true → k < fields → okAt (addr e k)) →
      Gives (exec i s) (fun u => onlyStores u ∧ (u.cluster c).h = { h with vprogValid := false }
        ∧ (u.cluster c).store = (((List.range (positions f)).filter doing).flatMap (fun e =>
            (List.range fields).map (fun k => (e, k)))).foldl (fun m p => Mem.writeBytes m (addr p.1 p.2).toNat
              (toBytes b (h.elem (f.vd.toNat + p.2 * n) b p.1))) x.store)
    x.storeBad = [] → spanBad f = false → start ≤ positions f →
    let enc (u : VUse) (regs : Bool) : Prop := fieldsBad u f = false ∧ regs = false
    (enc (memUse false false false 0) (pastEnd f.vd.toNat n) → loads (.vld c f) 1 unit)
    ∧ (enc (memUse true false false 0) (pastEnd f.vd.toNat n) → stores (.vst c f) 1 unit)
    ∧ (enc (memUse false false true 0) (pastEnd f.vd.toNat n) → loads (.vlds c f) 1 strided)
    ∧ (enc (memUse true false true 0) (pastEnd f.vd.toNat n) → stores (.vsts c f) 1 strided)
    ∧ (enc (memUse false true false 3) (regsBad f.vd.toNat n [(f.vb.toNat, regsFor (positions f) ib)]) →
        loads (.vldx c f) 1 indexed)
    ∧ (enc (memUse true true false 3) (pastEnd f.vd.toNat n || pastEnd f.vb.toNat (regsFor (positions f) ib)) →
        stores (.vstx c f) 1 indexed)
    ∧ (enc (memUse false false false 7) (decide (nf = 1) || pastEnd f.vd.toNat (nf * n)) → loads (.vldseg c f) nf segment)
    ∧ (enc (memUse true false false 7) (decide (nf = 1) || pastEnd f.vd.toNat (nf * n)) → stores (.vstseg c f) nf segment))
  ∧ (∀ (s s1 : State) (c : ClusterId) (f : VFields), Issues s c 8 s1 → (s1.kestrel c).level ≠ 2 →
    (s.cluster c).h = (s1.cluster c).h → (s1.cluster c).h.vprogValid = false →
    let h := (s1.cluster c).h
    let b := esize f.etype.toNat
    let base := s1.g c f.gs
    spanBad f = false → pastEnd f.vd.toNat (spanOf f) = false → base.toNat % b ≠ 0 → active h f 0 = true →
    let stops (i : Instr) : Prop := Gives (exec i s) (fun u => OnlyCluster c s1 u
      ∧ { u.cluster c with k := s1.kestrel c, h := h } = s1.cluster c
      ∧ { (u.cluster c).h with v := h.v } = { h with vprogIndex := 0, vprogValid := true }
      ∧ (∀ r, (u.cluster c).h.reg r = h.reg r)
      ∧ u.kestrel c = { s1.kestrel c with
          pc := (s1.kestrel c).pc + 8
          reports := (s1.kestrel c).reports ++ [.failure 0x04 (s1.kestrel c).pc base] })
    (fieldsBad (memUse false false false 0) f = false → stops (.vld c f))
    ∧ (fieldsBad (memUse true false false 0) f = false → stops (.vst c f)))
  ∧ ((∀ (s : State) (c : ClusterId) (l : L1Line) (line : Nat), l.target = .device (64 * line) → l.pending = true → l.held = [] →
    (s.cluster c).l1d.find? (fun y => decide (y.set = l.set ∧ y.way = l.way)) = some l → (s.cluster c).l1Find l.target = some l →
    Gives (exec (.l1dFill c l.set l.way) s) (fun t => t.memory.mem = s.memory.mem
      ∧ ∃ m : L1Line, (t.cluster c).l1Find l.target = some m ∧ m.pending = false ∧ m.dirty = l.dirty
        ∧ { m with bytes := l.bytes, pending := true, poison := l.poison } = l
        ∧ ∀ i, i < 64 → (m.bytes >>> (8 * i)).setWidth 8
            = if l.dirty.getLsbD i then (l.bytes >>> (8 * i)).setWidth 8 else Mem.read s.memory.mem (64 * line + i)))
  ∧ (∀ (s : State) (c : ClusterId) (port : CachePort) (va : Word) (e : RangeEntry), s.ready = true →
    (s.cluster c).job.isSome = true → storeSize ≤ va.toNat → va.toNat < windowBase →
    s.entryAt (s.aspOf c) va.toNat = some e → e.state = 0 →
    ((s.cluster c).rangeCache port).find? (fun y => decide (y.1 = (s.aspOf c).val) && y.2.covers va.toNat) = none →
    Gives (exec (.walk c port va) s) (fun t => t.memory.mem = s.memory.mem
      ∧ ((t.cluster c).rangeCache port) = (((s.aspOf c).val, e) :: (s.cluster c).rangeCache port).take 64)))

/-! ### Hearth -/

/-- MMA (R179-R181, R183, R187, R190): with a good encoding the Hearth runs 8s or 4s or 2s steps of VA against VB into the partials, an
.f32 MMA into the tile, after promoting an interval it does not continue; STEPS, P, the LFSRs, tiles and flags are those of the steps,
HFLAGS takes them, and a flag whose IRQ_EN bit is set makes the HEARTH line pending. Where the range check of .i8 finds a partial
beyond 2^18, RESIDUE_FAIL is handed to the Kestrel and the mismatch stands in the error log beside all of this; that the steps go on
there is the model's choice (log entry 126).

ACC, TRD and TWR (R181, R182, R187, R191-R194, R200): ACC.ZERO clears its tile and discards an open partial of it; ACC.PROMOTE adds
an open .i8 interval's partials to its tile and closes it; ACC.SEED seeds every cell's LFSR from the job's seed, the salt in g(GS), the
rank and the cell; TRD copies rows of the tile to registers, TWR registers to rows, discarding an open partial of that tile. -/
def Obligations.HearthMultipliesAndMovesTiles : Prop :=
  (∀ (s s1 : State) (c : ClusterId) (f : VFields), Issues s c 8 s1 →
    let h := { (s1.cluster c).h with vprogValid := false }
    let m := (s1.cluster c).m
    let a := f.etype.toNat
    let td := f.vd.toNat
    let scale : W32 := if f.imm8.getLsbD 5 then (s1.g c f.gs).setWidth 32 else 0
    let steps := 8 * spanOf f / esize a
    hearthBad f = false → f.imm8.toNat < 64 → mmaTypes a f.etype2.toNat = true → (a = 0 → f.imm8.toNat % 16 ≤ 3) →
    (f.imm8.getLsbD 5 = true → isStorage a = true) → (a = 6 → f.imm8 = 0) → (f.imm8.getLsbD 5 = false → f.gs = 0) →
    f.va.toNat + spanOf f ≤ 32 → f.vb.toNat + spanOf f ≤ 32 →
    let r := if a = 6 then mmaRun h f td steps 0 (m.promote.1.close, m.promote.2) else mmaRun h f td steps 0 (m.openFor f scale)
    let fl : BitVec 3 := bitsAt r.2 0 3
    let range : Bool := r.2.getLsbD 3
    (range = true → (s1.kestrel c).level ≠ 2) →
    Gives (exec (.mma c f) s) (fun t => OnlyCluster c s1 { t with integ := s1.integ }
      ∧ (range = false → t.integ = s1.integ)
      ∧ (range = true → ∃ e : LogEntry, t.integ.log = Table.set s1.integ.log (s1.integ.logNext.toNat % 4096) e
        ∧ t.integ.logNext = s1.integ.logNext + 1 ∧ e.seqNo = s1.integ.logNext)
      ∧ t.cluster c = { s1.cluster c with
        h := h
        m := { r.1 with hflags := r.1.hflags ||| fl }
        k := { s1.kestrel c with
          pc := (s1.kestrel c).pc + 8
          reports := (s1.kestrel c).reports ++ (if range then [.failure 0x0C (s1.kestrel c).pc 0] else [])
          irqPend := if r.1.hctl &&& fl ≠ 0 then (s1.kestrel c).irqPend ||| 0x20 else (s1.kestrel c).irqPend } }))
  ∧ (∀ (s s1 : State) (c : ClusterId) (f : VFields), Issues s c 8 s1 →
    let h := { (s1.cluster c).h with vprogValid := false }
    let m := (s1.cluster c).m
    let td := f.vd.toNat
    let b := f.imm8.toNat
    let ends (t : State) (h' : Harrier) (m' : Hearth) : Prop := OnlyCluster c s1 t ∧ t.cluster c = { s1.cluster c with
      h := h', m := m', k := { s1.kestrel c with pc := (s1.kestrel c).pc + 8 } }
    let cell (x : BitVec 131072) (n : Nat) : BitVec 32 := bitsAt x (32 * n) 32
    let row (x : BitVec 131072) (k : Nat) : BitVec 16384 := bitsAt x (16384 * k) 16384
    let mine : Bool := m.isOpen && decide (m.openTile.toNat = td)
    let closed (m' : Hearth) : Hearth := if mine then { m' with isOpen := false, partials := 0, steps := 0 } else m'
    (accBad f true false = false → Gives (exec (.accZero c f) s) (fun t => ∃ m', ends t h m'
      ∧ { m' with tiles := m.tiles } = closed m
      ∧ (∀ q, q ≠ td → m'.tile q = m.tile q) ∧ m'.tile td = 0))
    ∧ (accBad f false false = false → m.isOpen = true → m.atype = 0 →
      Gives (exec (.accPromote c f) s) (fun t => ∃ m', ends t h m'
        ∧ { m' with tiles := m.tiles } = { m with isOpen := false, partials := 0, steps := 0 }
        ∧ (∀ q, q ≠ m.openTile.toNat → m'.tile q = m.tile q)
        ∧ ∀ n, n < 4096 → cell (m'.tile m.openTile.toNat) n
            = cell (m.tile m.openTile.toNat) n + (bitsAt m.partials (20 * n) 20).signExtend 32))
    ∧ (accBad f false true = false → Gives (exec (.accSeed c f) s) (fun t => ∃ m', ends t h m'
        ∧ { m' with lfsr := m.lfsr } = m
        ∧ ∀ n, n < 4096 → bitsAt m'.lfsr (16 * n) 16
            = lfsrSeed (s1.jobSeed c) ((s1.g c f.gs).setWidth 32) (s1.rankOf c) n))
    ∧ (moveBad f = false → Gives (exec (.trd c f) s) (fun t => ∃ h', ends t h' m
        ∧ { h' with v := h.v } = h
        ∧ ∀ q, h'.reg q = if f.va.toNat ≤ q ∧ q < f.va.toNat + spanOf f then row (m.tile td) (b + (q - f.va.toNat))
            else h.reg q))
    ∧ (moveBad f = false → Gives (exec (.twr c f) s) (fun t => ∃ m', ends t h m'
        ∧ { m' with tiles := m.tiles } = closed m ∧ (∀ q, q ≠ td → m'.tile q = m.tile q)
        ∧ ∀ k, k < 8 → row (m'.tile td) k = if b ≤ k ∧ k < b + spanOf f then h.reg (f.va.toNat + (k - b))
            else row (m.tile td) k)))

/-- An .i8 MMA of span 1 on a Hearth with no open interval, with a promotion interval that divides its eight steps, adds the exact
dot products of 32 elements to every cell of the tile, modulo 2^32, and leaves zero partials, HFLAGS and every other tile as they
were (R179, R180, R184, R187, R190). -/
def Obligations.Int8MmaAddsExactDotProducts : Prop :=
  ∀ (s s1 : State) (c : ClusterId) (f : VFields), Issues s c 8 s1 → hearthBad f = false → f.etype = 0 → f.etype2 = 0 →
    f.span = 0 → f.imm8 ∈ [0, 1, 3, 0x10, 0x11, 0x13] → f.gs = 0 → (s1.cluster c).m.isOpen = false →
    (s1.cluster c).m.hctl = 0 →
    let h := (s1.cluster c).h
    let el (reg i : Nat) : Int := intOf 0 (h.elem reg 1 i)
    let dot (i j : Nat) : Int := ((List.range 32).map (fun q =>
      el f.va.toNat (256 * (q / 4) + 4 * i + q % 4) * el f.vb.toNat (256 * (q / 4) + 4 * j + q % 4))).sum
    Gives (exec (.mma c f) s) (fun t => (t.cluster c).m.partials = 0 ∧ (t.cluster c).m.steps = 0
      ∧ (t.cluster c).m.isOpen = true ∧ (t.cluster c).m.openTile.toNat = f.vd.toNat
      ∧ (t.cluster c).m.hflags = (s1.cluster c).m.hflags ∧ (t.cluster c).m.lfsr = (s1.cluster c).m.lfsr
      ∧ (∀ q, q ≠ f.vd.toNat → (t.cluster c).m.tile q = (s1.cluster c).m.tile q)
      ∧ ∀ i j, i < 64 → j < 64 → bitsAt ((t.cluster c).m.tile f.vd.toNat) (32 * (64 * i + j)) 32
          = bitsAt ((s1.cluster c).m.tile f.vd.toNat) (32 * (64 * i + j)) 32 + BitVec.ofInt 32 (dot i j))

/-! ### Rings, doorbells, events and messages -/

/-- DOORBELL_POLL (R67-R71): with a good read of a line in which every enabled stream is not halted and has a PRODUCER at most a ring
ahead, each enabled stream takes SEQ and, where SEQ is new, PRODUCER; PRODUCER is bytes 0-3 and SEQ bytes 4-7 of the stream's word of
the line; every stream of the line keeps the SEQ read for the next change test, every other field and every other stream is
unchanged, and one read of 64 bytes goes out where none of that line is open. A PRODUCER further ahead halts its stream with reason 2
and is not taken.

DESCRIPTOR_FETCH (R67, R75): a slot that validates joins the stream's descriptors in ring order, fetched and not begun, and the read
index moves on; one that does not is BAD_DESCRIPTOR with the lowest failing offset; an error completion halts the stream with reason
3. One read of up to eight slots that does not cross the ring's end goes out, and every slot of it that holds a valid descriptor of the
period's work is taken, while the stream has room for 32. -/
def Obligations.DoorbellsAndSlotsAreRead : Prop :=
  ((∀ (s : State) (line : Fin 512) (x : Line), s.ready = true →
    (∃ st ∈ lineStreams line, (s.stream st).enabled = true) →
    (∀ p ∈ lineWords line x, (s.stream p.1).enabled = true → (s.stream p.1).halted = false
      ∧ (p.2.producer - (s.stream p.1).readIdx).toNat ≤ 2 ^ (s.stream p.1).log2Size.toNat) →
    ∃ t, exec (.doorbellPoll line (.data x)) s = .next t
      ∧ t.out = s.out ++ (if (s.line line).asked then []
          else [.hostRead 0 (BitVec.ofNat 64 (s.doorbellBase + 64 * line.val)) 64])
      ∧ (∀ p ∈ lineWords line x, t.stream p.1 = if (s.stream p.1).enabled = true then { s.stream p.1 with
          producer := if (s.stream p.1).seqActed = some p.2.seq then (s.stream p.1).producer else p.2.producer
          seqActed := some p.2.seq, seqPolled := p.2.seq } else { s.stream p.1 with seqPolled := p.2.seq })
      ∧ (∀ st, st ∉ lineStreams line → t.stream st = s.stream st)
      ∧ (t.line line).asked = false
      ∧ (t.line line).changed = (if ∃ p ∈ lineWords line x, (s.stream p.1).seqPolled ≠ p.2.seq then some s.tick
          else (s.line line).changed)
      ∧ (∀ n, n ≠ line → t.line n = s.line n)
      ∧ { t with out := s.out, sched := { t.sched with streams := s.sched.streams, lines := s.sched.lines } } = s)
  ∧ (∀ (line : Fin 512) (x : Line) (k : Nat), k < 8 →
    (lineWords line x)[k]? = some (StreamId.ofNat' (8 * line.val + k), ⟨bitsAt x (64 * k) 32, bitsAt x (64 * k + 32) 32⟩))
  ∧ (∀ (s : State) (st : StreamId) (w : DoorbellWord), (s.stream st).enabled = true → (s.stream st).halted = false →
    (s.stream st).seqActed ≠ some w.seq → 2 ^ (s.stream st).log2Size.toNat < (w.producer - (s.stream st).readIdx).toNat →
    let t := s.ringDoorbell st w
    (t.stream st).halted = true ∧ (t.stream st).haltReason = 2 ∧ (t.stream st).producer = (s.stream st).producer))
  ∧ (∀ (s : State) (st : StreamId) (bits : Line) (e : HostErr), s.canRead st = true →
    let x := s.stream st
    let size := 2 ^ x.log2Size.toNat
    let slot := x.readIdx.toNat % size
    let n := min 8 (min (size - slot) (x.producer - x.readIdx).toNat)
    let read := Outbound.hostRead x.function.val (x.ringBase + BitVec.ofNat 64 (64 * slot)) (64 * n)
    x.readIdx ≠ x.producer → x.descs.length < 32 → s.leftUnread st (descNum bits 0 0 8) = false →
    x.startPending = false → s.hasJob st = true → (x.periodic = true → x.position = x.current) →
    (∀ lines : List Line, lines ≠ [] → lines.length ≤ n → x.descs.length + lines.length ≤ 32 →
      (∀ b ∈ lines, descNum b 0 0 8 ≠ opJobStart ∧ descNum b 0 0 8 ≠ opPeriodMark
        ∧ s.descError x.periodic false x.position (s.maxClOf st) b = none) →
      ∃ t, exec (.descriptorFetch st (.data lines)) s = .next t
      ∧ t.out = s.out ++ [read] ∧ (t.stream st).readIdx = x.readIdx + BitVec.ofNat 32 lines.length
      ∧ (t.stream st).descs = x.descs ++ lines.zipIdx.map (fun b =>
          Desc.fresh (x.readIdx + BitVec.ofNat 32 b.2) (putBits b.1 32 x.position)))
    ∧ (s.descError x.periodic false x.position (s.maxClOf st) bits = none → ∃ t, exec (.descriptorFetch st (.data [bits])) s = .next t
      ∧ t.out = s.out ++ [read] ∧ (t.stream st).readIdx = x.readIdx + 1
      ∧ ∃ b, (t.stream st).descs = x.descs ++ [Desc.fresh x.readIdx b] ∧ (b ^^^ bits) &&& ~~~ (0xFFFFFFFF#512 <<< 32) = 0)
    ∧ (∀ b, s.descError x.periodic false x.position (s.maxClOf st) bits = some b →
        ∃ y, exec (.descriptorFetch st (.data [bits])) s
          = .next (((s.emit read).setStream st y).badDescriptor st x.readIdx b))
    ∧ ∃ t, exec (.descriptorFetch st (.error e)) s = .next t
        ∧ (t.stream st).halted = true ∧ (t.stream st).haltReason = 3 ∧ (t.stream st).readIdx = x.readIdx)

/-- A finished descriptor that leads its stream gets its terminal record (R84, R85, R88, R90): with nothing held before it, none finished
behind it and room on the completion ring, it leaves the stream, the record goes to slot `k` modulo the ring's size with the ring's
phase, and the ring's record number moves on; only messages follow. A NOREC descriptor that is DONE gets none.

HELD_RECORD_WRITE and FAULT_RECORD_WRITE (R91-R94): with room, the oldest queued event goes to the event ring with its SEQ and phase
and leaves the queue, the oldest unwritten fault record to the fault ring, and the ring's record number moves on; without room
nothing is written; a completion ring's held records are written stream by stream.

Messages (R90, R415): a vector's message goes out with its address and data when MSI-X is enabled and neither the function nor the
vector is masked, else its pending bit is set; COALESCE_TIMEOUT signals the unsignalled records of a ring once COAL.TIME has passed
since the oldest of them, and nothing before; VECTOR_UNMASK unmasks and
sends what was pending; MSIX_RELEASE takes Enable and Function Mask, and with the function unmasked sends what is pending. -/
def Obligations.RecordsAndMessagesAreWritten : Prop :=
  (∀ (s : State) (st : StreamId) (d : Desc) (rest : List Desc) (status detail : Nat),
    let x := s.stream st
    let r := cring x.cring
    let rec_ := { s.descRecord st d status detail with attempt := s.attemptOf x.job }
    x.notices = [] → x.descs = d :: rest → (∀ e ∈ rest, e.isFinished = false ∧ e.idx ≠ d.idx) → x.restartHeld = false →
    status < 256 → detail < 2 ^ 32 →
    let t := s.finish st d.idx status detail
    ((d.norec = false ∨ status ≠ 0) ∧ s.ringRoom r = true →
      (t.stream st).descs = rest ∧ (t.stream st).nextTerminal = d.idx + 1 ∧ (t.ring r).k = (s.ring r).k + 1
      ∧ ∃ tail, t.out = s.out ++ .completionRecord x.cring (s.ringFunction r) (s.ringIova r 32) (s.ringSlot r)
            (recordBits rec_ s.tick (s.ringPhase r)) :: tail
        ∧ ∀ o ∈ tail, ∃ f v a m, o = .msix f v a m)
    ∧ (d.norec = true ∧ status = 0 → (t.stream st).descs = rest ∧ (t.stream st).nextTerminal = d.idx + 1 ∧ t.out = s.out
      ∧ t.sched.rings = s.sched.rings)
    ∧ ((d.norec = false ∨ status ≠ 0) ∧ s.ringRoom r = false → t.out = s.out ∧ t.sched.rings = s.sched.rings
      ∧ (t.stream st).nextTerminal = x.nextTerminal ∧ (t.stream st).descs.map Desc.idx = x.descs.map Desc.idx))
  ∧ ((∀ (s : State) (e : Event), s.ready = true → s.sched.events = [e] → s.sched.eventsHeld = [] → e.type ≠ 5 →
    s.ringRoom eventRing = true → Gives (exec (.heldRecordWrite eventRing) s) (fun t =>
      t.sched.events = [] ∧ (t.ring eventRing).k = (s.ring eventRing).k + 1
      ∧ ∃ tail, t.out = s.out ++ .eventRecord (s.ringIova eventRing 64) (s.ringSlot eventRing)
          (eventBits e (s.ring eventRing).k (s.ringPhase eventRing)) :: tail ∧ ∀ o ∈ tail, ∃ f v a m, o = .msix f v a m))
  ∧ (∀ (s : State) (f : FaultInfo), s.ready = true → s.sched.faults = [f] → f.written = false → s.ringRoom faultRing = true →
    Gives (exec .faultRecordWrite s) (fun t => t.sched.faults = [{ f with written := true }]
      ∧ (t.ring faultRing).k = (s.ring faultRing).k + 1
      ∧ ∃ tail, t.out = s.out ++ .faultRecord (s.ringIova faultRing 64) (s.ringSlot faultRing)
          (faultBits f (s.ringPhase faultRing)) :: tail ∧ ∀ o ∈ tail, ∃ f v a m, o = .msix f v a m))
  ∧ (∀ s : State, s.ready = true → s.ringRoom eventRing = false → exec (.heldRecordWrite eventRing) s = .next s)
  ∧ (∀ s : State, s.ready = true → s.ringRoom faultRing = false → exec .faultRecordWrite s = .next s)
  ∧ ∀ (s : State) (r : RingId) (st : StreamId), s.ready = true → r.val < 256 → s.ringStreams r = [st] →
      (s.stream st).phase ≠ .dropping →
      exec (.heldRecordWrite r) s = .next ((s.flushStream st).settle st))
  ∧ ((∀ (s : State) (f v : Nat), f < 32 →
    (s.host.msixEnable.getLsbD f = true ∧ s.host.msixMask.getLsbD f = false ∧ (s.msix f v).masked = false →
      s.sendMsix f v = s.emit (.msix f v (s.msix f v).addr (s.msix f v).data))
    ∧ (s.host.msixEnable.getLsbD f = false ∨ s.host.msixMask.getLsbD f = true ∨ (s.msix f v).masked = true →
      s.sendMsix f v = s.setMsix f v { s.msix f v with pending := true }))
  ∧ (∀ (s : State) (n : JobId), s.ready = true → s.ringEnabled (cring n) = true → 0 < (s.ring (cring n)).unsignalled →
    let time := (bitsAt (s.reg (ringBaseOff (cring n) + 12)) 16 16).toNat
    let waited := (s.tick - (s.ring (cring n)).oldest).toNat
    (time ≤ waited → exec (.coalesceTimeout n) s = .next ((s.setRing (cring n) { s.ring (cring n) with unsignalled := 0 }).sendMsix
      (s.ringFunction (cring n)) (s.ringVector (cring n))))
    ∧ (waited < time → exec (.coalesceTimeout n) s = .next s))
  ∧ (∀ (s : State) (f : FunctionId) (v : BitVec 11), s.hostAnswers = true → f = 0 ∨ v.toNat < 64 →
    Gives (exec (.vectorUnmask f v) s) (fun t => (t.msix f.val v.toNat).masked = false
      ∧ ((s.msix f.val v.toNat).pending = false → t = s.setMsix f.val v.toNat { s.msix f.val v.toNat with masked := false })
      ∧ ((s.msix f.val v.toNat).pending = true ∧ s.host.msixEnable.getLsbD f.val = true
          ∧ s.host.msixMask.getLsbD f.val = false →
        t = (s.setMsix f.val v.toNat { s.msix f.val v.toNat with masked := false, pending := false }).emit
          (.msix f.val v.toNat (s.msix f.val v.toNat).addr (s.msix f.val v.toNat).data))))
  ∧ (∀ (s : State) (f : FunctionId) (enable mask : Bool), s.hostAnswers = true → enable = false ∨ mask = true →
    Gives (exec (.msixRelease f enable mask) s) (fun t =>
      { t with host := { t.host with msixEnable := s.host.msixEnable, msixMask := s.host.msixMask } } = s
      ∧ ∀ g : FunctionId, t.host.msixEnable.getLsbD g.val = (if g = f then enable else s.host.msixEnable.getLsbD g.val)
        ∧ t.host.msixMask.getLsbD g.val = (if g = f then mask else s.host.msixMask.getLsbD g.val)
        ∧ t.configReg g .msixEnable = (if g = f then some (bit enable) else s.configReg g .msixEnable)))
  ∧ ∀ (s : State) (f : FunctionId) (v : Nat) (m : Msix), s.hostAnswers = true → s.host.msix = [(msixKey f.val v, m)] → v < 2048 →
    m.pending = true → m.masked = false →
    Gives (exec (.msixRelease f true false) s) (fun t => t.host.msix = [(msixKey f.val v, { m with pending := false })]
      ∧ t.out = s.out ++ [.msix f.val v m.addr m.data]))

/-- HEAD_REREAD (R86, R417): while fewer than a quarter of the ring's slots are free, the ring's cached head takes the word and nothing
else changes but the read that goes out; an error completion sets the ring's bit in HIF_RING_ERR and disables the ring. A disabled
ring is not read, and neither is one with a quarter free.

COMPLETION_TIMEOUT (R63, R417, R418): HIF_ERR_LAST shows KIND 4, the function and the address, and what the read was for fails: a
stream halts with reason 3, a head word's ring is disabled with its bit in HIF_RING_ERR, a stream table read discards the load with
reason 4, a cluster's access freezes its master. The type of its log entry is a free value. -/
def Obligations.HostReadsEndOrFail : Prop :=
  (∀ (s : State) (r : RingId) (v : W32) (e : HostErr), s.ready = true →
    let read := Outbound.hostRead 0 (BitVec.ofNat 64 (s.headBase + 4 * r.val)) 4
    let free := s.ringSize r - ((s.ring r).k - (s.ring r).head).toNat
    (s.ringEnabled r = true → 4 * free < s.ringSize r → exec (.headReread r (.data v)) s = .next ((s.emit read).setRing r { s.ring r with head := v })
      ∧ Gives (exec (.headReread r (.error e)) s) (fun t => t.host.ringErr.getLsbD r.val = true ∧ t.ringEnabled r = false))
    ∧ (s.ringEnabled r = false ∨ s.ringSize r ≤ 4 * free → exec (.headReread r (.data v)) s = .next s))
  ∧ (∀ s : State, s.ready = true →
    (∀ st, (s.stream st).enabled = true → (s.stream st).halted = false →
      Gives (exec (.completionTimeout (.ringSlots st)) s) (fun t => (t.stream st).halted = true ∧ (t.stream st).haltReason = 3
        ∧ t.host.errKind = 4 ∧ t.host.errFunction = BitVec.ofNat 5 (s.stream st).function.val))
    ∧ (∀ r, s.ringEnabled r = true → Gives (exec (.completionTimeout (.headWord r)) s) (fun t =>
        t.host.ringErr.getLsbD r.val = true ∧ t.ringEnabled r = false ∧ t.host.errKind = 4 ∧ t.host.errFunction = 0
        ∧ t.host.errAddr = BitVec.ofNat 64 (s.headBase + 4 * r.val)))
    ∧ (∀ st, Gives (exec (.completionTimeout (.streamTable st)) s) (fun t => t.setup.errReason = 4 ∧ t.setup.errFunction = 0
        ∧ t.setup.errAddr = 0x40018 ∧ t.host.errKind = 4 ∧ t.stream st = s.stream st))
    ∧ ∀ c m, (s.cluster c).job.isSome = true → ∃ u, exec (.completionTimeout (.jobAccess c m)) s
        = .next ((s.hostError u 0 4).freezeCluster m c fcHostError))

/-! ### Descriptors -/

/-- When a descriptor begins (R43, R55, R73, R76, R80, R83, R94, R292): in ring order, behind no FENCE that still waits, in an open
period, with room on the completion ring, its stream ACTIVE while the job is SUSPENDED, and with WAIT or an opcode that waits (JOB_END, TIMESTAMP, PERIOD_MARK, CODE_SYNC) once every earlier one has its terminal record,
an ATTN or KV_APPEND once every earlier one of its stream on the same header has (R259);
none while its stream is DROPPING, and while it is SUSPENDED_FAULT only table operations and RESUME. One of an ended period completes
LATE_DROPPED.

NOP, FENCE, TIMESTAMP, PERIOD_MARK and CODE_SYNC (R76, R81-R83, R116), once begun: NOP is DONE; FENCE is DONE, after a read of host
memory at SCOPE HOST, when its conditions hold, and else runs on; TIMESTAMP is DONE with the timebase in its record, its write made when
VA is nonzero; PERIOD_MARK is DONE and releases the idle clusters of the stream; CODE_SYNC drains and cleans every cluster of the job
and empties its L1I. -/
def Obligations.DescriptorsBeginInOrderAndFinish : Prop :=
  (∀ (s : State) (st : StreamId) (d : Desc) (j : Job),
    let x := s.stream st
    let op := d.opcode
    let earlier (p : Desc → Prop) : Prop := ∃ e ∈ x.descs, before32 e.idx d.idx = true ∧ p e
    let sameCache : Prop := op ∈ [0x28, 0x29] ∧ earlier (fun e => e.opcode ∈ [0x28, 0x29] ∧ e.word 16 = d.word 16)
    let late (i : Instr) (n : Nat) : Prop := op = n → x.periodic = true → before32 d.period x.current = true →
      exec i s = .next (s.finish st d.idx 0x10 0)
    s.ready = true → x.enabled = true → x.restartHeld = false → s.desc st d.idx = some d → d.phase = .fetched →
    s.job x.job = some j → j.phase = .running ∨ j.phase = .suspended → j.ended.contains st = false → s.heldBySave st = false →
    op ≠ 1 →
    (x.phase ≠ .dropping → x.phase ≠ .suspendedFault →
      (x.periodic = true → x.periodOpen = true ∧ before32 x.current d.period = false) → s.ringRoom (cring x.cring) = true →
      (j.phase = .running ∨ x.phase = .active) →
      ¬ earlier (fun e => e.phase = .fetched) → ¬ earlier (fun e => e.opcode = 3 ∧ e.phase = .running) → (d.wait = true ∨ op ∈ [2, 4, 5, 6] → ¬ earlier (fun _ => True)) → ¬ sameCache →
      s.beginning st d.idx op = some d ∧ late (.nop st d.idx) 0 ∧ late (.kernel st d.idx) 0x10 ∧ late (.copy st d.idx) 0x11)
    ∧ (x.phase = .dropping ∨ s.ringRoom (cring x.cring) = false
        ∨ (x.periodic = true ∧ (x.periodOpen = false ∨ before32 x.current d.period = true))
        ∨ (x.phase ≠ .suspendedFault ∧ earlier (fun e => e.phase = .fetched ∨ (e.opcode = 3 ∧ e.phase = .running)))
        ∨ (j.phase = .suspended ∧ x.phase ≠ .active ∧ op ∉ [0x30, 0x31, 0x32, 0x38])
        ∨ ((d.wait = true ∨ op ∈ [2, 4, 5, 6]) ∧ earlier (fun _ => True)) ∨ sameCache
        ∨ (x.phase = .suspendedFault ∧ op ∉ [0x30, 0x31, 0x32, 0x38]) → s.beginning st d.idx op = none))
  ∧ (∀ (s : State) (st : StreamId) (idx : W32) (d : Desc),
    let u := begunState s st idx
    let x := u.stream st
    let done (z : State) : State := z.finish st idx 0 0
    (Begins st idx 0 d s → exec (.nop st idx) s = .next (done u))
    ∧ (Begins st idx 3 d s →
        let t := StreamId.ofNat' (d.num 18 0 12)
        let cross := flagAt d.bits 19 7
        let met : Prop := (∀ e ∈ x.descs, before32 e.idx d.idx = false) ∧ (d.num 16 0 8 = 2 → u.peersQuiet x.job = true)
          ∧ (cross = true → before32 (u.stream t).nextTerminal (d.half 20) = false)
        (cross = true → (u.stream t).enabled = true ∧ (u.stream t).job = x.job) →
        (met → exec (.fenceDescriptor st idx) s = .next (done (if d.num 16 0 8 = 1 then
            u.emit (.hostRead 0 (BitVec.ofNat 64 (u.headBase + 4 * x.cring.val)) 4) else u)))
        ∧ (¬met → exec (.fenceDescriptor st idx) s = .next u))
    ∧ (Begins st idx 4 d s → let asp := ((u.job x.job).map (·.aspace)).getD 0
        (d.word 16 = 0 → exec (.timestamp st idx) s = .next (u.finishAt st d.idx 0 0 (some u.tick)))
        ∧ (∀ v, d.word 16 ≠ 0 → u.jobWrite asp (d.word 16).toNat (toBytes 8 u.tick.toNat) = (none, v) →
            exec (.timestamp st idx) s = .next (v.finishAt st d.idx 0 0 (some u.tick))))
    ∧ (Begins st idx 5 d s → let v := done u
        (d.period ≠ (v.stream st).current → exec (.periodMark st idx) s = .next v)
        ∧ (d.period = (v.stream st).current → Gives (exec (.periodMark st idx) s) (fun t =>
            { t with clusters := v.clusters, integ := v.integ } = v
            ∧ ((∀ c : ClusterId, (v.kestrel c).reports = []) → t.integ = v.integ)
            ∧ ∀ c : ClusterId, let y := v.cluster c
              let idle : Prop := (y.job.map (·.1)) = some (v.stream st).job ∧ (y.stream = some st ∨ y.stream = none)
                ∧ y.share = none ∧ y.stopped = false ∧ v.moverBusy c = false
              (idle → (t.cluster c).job = none ∧ (t.cluster c).stream = none) ∧ (¬idle → t.cluster c = y))))
    ∧ (Begins st idx 6 d s → let cs := u.jobClusters x.job
        let clean := cs.foldl (fun (z : State) c => (z.drainStores c).cleanL1 c false) u
        EndsDone (exec (.codeSync st idx) s) st idx (fun v => { v with clusters := clean.clusters } = clean
          ∧ ∀ c : ClusterId, v.cluster c = if c ∈ cs then { clean.cluster c with l1i := [] } else clean.cluster c)))

/-- JOB_START (R33, R53, R77-R79): with a free job number, MIN_CL from 1 to MAX_CL, MAX_CL at most 48, and a save area in a PINNED DEVICE
range of an enabled space of the stream's FUNCTION, the job is created with the descriptor's fields at attempt 0 and the periods
of its streams start over; else the lowest failing offset ends the stream in BAD_DESCRIPTOR.

JOB_END (R41, R42, R80): once begun it is DONE and ends its stream's part; the job is DONE, its clusters are free, when every stream
assigned to it has ended. The job's number is free once its JOB_STATE event is on the event ring. With ABORT set it runs from fetch and requests the abort, or is DONE at once for a job that has ended.

The abort of an attempt (R37, R41): when the job's contexts can be discarded and no table operation runs, its clusters are free and
the job is RESTARTING at the next attempt while attempts are left, else FAILED; an abort that host software requested ends in FAILED. -/
def Obligations.JobsStartEndAndRestart : Prop :=
  (∀ (s : State) (st : StreamId) (idx : W32) (d : Desc), Begins st idx 1 d s →
    let u := begunState s st idx
    let j := (u.stream st).job
    let minCl := d.num 17 0 6
    let maxCl := d.num 18 0 6
    let sp := u.space (AspId.ofNat' (d.num 20 0 10))
    let save := d.num 32 0 64
    let good : Prop := d.num 16 0 8 = j.val ∧ u.job j = none ∧ 1 ≤ minCl ∧ minCl ≤ maxCl ∧ maxCl ≤ 48 ∧ sp.enabled = true
      ∧ sp.function = (u.stream st).function ∧ (∃ e ∈ sp.entries, e.pinned = true ∧ e.type = tyDevice ∧ e.lo ≤ save
        ∧ save + (229376 + 256) * maxCl ≤ e.hi)
    (good → EndsDone (exec (.jobStart st idx) s) st idx (fun v => (∃ y, v.job j = some y ∧ y.phase = .created
        ∧ y.aspace = AspId.ofNat' (d.num 20 0 10) ∧ y.minCl.toNat = minCl ∧ y.maxCl.toNat = maxCl
        ∧ y.attempts.toNat = d.num 19 0 4 ∧ y.fromCheckpoint = flagAt d.bits 19 4 ∧ y.seed = d.word 24 ∧ y.saveVa = d.word 32
        ∧ y.attempt = 0 ∧ y.base = none ∧ y.saved = [] ∧ y.ended = [] ∧ y.ckpt = none)
      ∧ (∀ k, k ≠ j → v.job k = u.job k) ∧ (∀ t ∈ u.jobStreams j, (v.stream t).periodOpen = false ∧ (v.stream t).current = 0
        ∧ (v.stream t).charge = 0 ∧ (v.stream t).demoted = false)
      ∧ { v with sched := u.sched } = u))
    ∧ (u.job j ≠ none → exec (.jobStart st idx) s = .next (u.badDescriptor st idx 16))
    ∧ (d.num 16 0 8 = j.val → u.job j = none → minCl = 0 ∨ maxCl < minCl →
        exec (.jobStart st idx) s = .next (u.badDescriptor st idx 17)))
  ∧ (∀ (s : State) (st : StreamId) (idx : W32) (d : Desc),
    let j := (s.stream st).job
    let closed (t : State) : Prop := (t.job j = none ∨ ∃ z, t.job j = some z ∧ z.phase = .done)
      ∧ (s.ringRoom eventRing = false → t.job j ≠ none)
      ∧ (s.ringRoom eventRing = true → s.sched.events = [] → s.integ.talon = [] → t.job j = none)
    (∀ y, Begins st idx 2 d s → d.isAbort = false → s.job j = some y →
      Gives (exec (.jobEnd st idx) s) (fun t =>
        ((∀ o ∈ s.jobStreams j, o ≠ st → y.ended.contains o = true) → closed t
          ∧ ∀ c : ClusterId, ((t.cluster c).job.map (·.1)) ≠ some j)
        ∧ ((∃ o ∈ s.jobStreams j, o ≠ st ∧ y.ended.contains o = false) → ∃ z, t.job j = some z ∧ z.ended.contains st = true
          ∧ (z.phase = .running ∨ z.phase = .suspended))))
    ∧ (∀ y, s.desc st idx = some d → d.phase = .fetched → d.isAbort = true → s.ready = true → (s.stream st).enabled = true →
      (s.stream st).restartHeld = false → s.job j = some y →
      let v := s.modDesc st idx (fun e => { e with phase := .running })
      (y.phase = .done ∨ y.phase = .failed → exec (.jobEndAbort st idx) s = .next (v.finish st idx 0 0))
      ∧ (y.phase ≠ .done → y.phase ≠ .failed → exec (.jobEndAbort st idx) s = .next (v.requestAbort j))))
  ∧ (∀ (s : State) (j : JobId) (y : Job), s.job j = some y → s.abortReady j = true →
    (∀ st : StreamId, (s.stream st).descs.any (·.tableBegun) = false) →
    let free (t : State) : Prop := ∀ c : ClusterId, ((t.cluster c).job.map (·.1)) ≠ some j
    let failed (t : State) : Prop := free t
      ∧ (t.job j = none ∨ ∃ z, t.job j = some z ∧ z.phase = .failed ∧ z.attempt = y.attempt)
      ∧ (s.ringRoom eventRing = false → t.job j ≠ none)
      ∧ (s.ready = true → s.ringRoom eventRing = true → s.sched.events = [] → s.integ.talon = [] → t.job j = none)
    (y.phase = .running ∨ y.phase = .suspended ∨ y.phase = .restarting →
      (y.attempt < y.attempts ∧ y.aborted = false → free (s.failJob j) ∧ ∃ z, (s.failJob j).job j = some z
        ∧ z.phase = .restarting ∧ z.attempt = y.attempt + 1 ∧ z.seed = y.seed ∧ z.saved = [] ∧ z.ended = [])
      ∧ (¬(y.attempt < y.attempts ∧ y.aborted = false) → failed (s.failJob j)))
    ∧ (y.phase ∈ [.created, .waitCapacity, .running, .suspended, .restarting] → failed (s.requestAbort j)))

/-- KERNEL (R52, R110, R121, R122, R193): with NCL at most the live clusters and that many idle clusters of the job, the lowest NCL of
them take the ranks in order: on each DISPATCH is pending, the L1D is empty and the Hearth begins afresh; no other cluster changes.
Fewer idle clusters leave it waiting; NCL above the live clusters is BAD_DESCRIPTOR. Once the runtime answers the line at S, the
KERNEL starts at ENTRY_VA in J with g1 ARG_VA, g2 its rank, g3 NCL, every other register zero, in the mode DET names; that this
is part of INTERRUPT_ENTRY is the model's reading (log entry 35).

KEND (R89, R122, R313): at the end of a KERNEL's share, with no buffered store, an empty L1D and no mover request left, control
returns to the runtime past the instruction, DISPATCH is no longer pending, the share is gone and the descriptor has one rank less to
wait for; the last rank ends it DONE. With a request of the cluster's mover still queued the share goes on. That the runtime runs at S with IE clear is the model's reading (log entry 36). -/
def Obligations.KernelsDispatchAndEnd : Prop :=
  ((∀ (s : State) (st : StreamId) (idx : W32) (d : Desc), s.beginning st idx 0x10 = some d →
    ((s.stream st).periodic = true → before32 d.period (s.stream st).current = false) →
    firstBad (s.payloadChecks (s.maxClOf st) d.bits) = none →
    let n := d.num 32 0 6
    let cs := (s.idleClusters (s.stream st).job).take n
    (n ≤ s.liveCount → cs.length = n → Gives (exec (.kernel st idx) s) (fun t =>
      (∀ (r : Nat) (c : ClusterId), cs[r]? = some c →
        t.cluster c = { s.cluster c with
          share := some ⟨st, idx, r, 0, 0⟩, work := ShareWork.empty, stream := some st, l1d := []
          m := (s.cluster c).m.begin (s.seedOf c) r
          k := { s.kestrel c with irqPend := (s.kestrel c).irqPend ||| 2 } })
      ∧ (∀ c, c ∉ cs → t.cluster c = s.cluster c)
      ∧ ((t.desc st idx).map (·.phase)) = some .running ∧ ((t.desc st idx).map (·.left)) = some n ∧ t.out = s.out))
    ∧ (n ≤ s.liveCount → cs.length < n → exec (.kernel st idx) s = .next s)
    ∧ (s.liveCount < n → exec (.kernel st idx) s = .next (s.badDescriptor st idx 32)))
  ∧ ∀ (s : State) (c : ClusterId) (before : Kestrel) (sh : Share) (d : Desc), (s.cluster c).share = some sh →
    s.desc sh.st sh.idx = some d → d.phase = .running → d.opcode = 0x10 → (s.kestrel c).level = 1 →
    (flagAt d.bits 33 0 = true → (s.cluster c).storeBuf = [] ∧ (s.cluster c).l1d = []) →
    let x := (s.answerDispatch c before).cluster c
    x.k.pc = d.word 16 ∧ x.k.level = 0 ∧ x.k.run = .running ∧ x.k.det = flagAt d.bits 33 0
      ∧ x.k.ie = before.ie ∧ x.k.esp = before.esp ∧ x.k.ssp = before.ssp
      ∧ (∀ q, x.k.get q = if q = 1 then d.word 24 else if q = 2 then BitVec.ofNat 64 sh.rank
          else if q = 3 then BitVec.ofNat 64 (d.num 32 0 6) else 0)
      ∧ x.h = (s.cluster c).h ∧ x.m = (s.cluster c).m ∧ x.share = some sh)
  ∧ (∀ (s s1 : State) (c : ClusterId) (sh : Share) (d : Desc), Issues s c 4 s1 → (s1.cluster c).share = some sh →
    s1.desc sh.st sh.idx = some d → d.phase = .running → d.opcode = 0x10 → (s1.kestrel c).level ≠ 2 →
    (s1.cluster c).storeBuf = [] → (s1.cluster c).l1d = [] →
    let quiet : Prop := (s1.cluster c).queue = []
    let ended (u : State) : Prop := OnlyCluster c s1 { u with sched := s1.sched }
      ∧ u.cluster c = { s1.cluster c with
          share := none
          k := { s1.kestrel c with
            level := 1, ie := false, pc := (s1.kestrel c).pc + 4, irqPend := (s1.kestrel c).irqPend &&& ~~~ 2 } }
      ∧ ((u.desc sh.st sh.idx).map (·.left)) = some (d.left - 1)
    (quiet → 1 < d.left → Gives (exec (.kend c 0 0 0) s) ended)
    ∧ (¬quiet → exec (.kend c 0 0 0) s = .next s1)
    ∧ (quiet → d.left ≤ 1 → EndsDone (exec (.kend c 0 0 0) s) sh.st d.idx ended)
    ∧ ∀ (rd ra : BitVec 5) (code : BitVec 12), rd ≠ 0 ∨ ra ≠ 0 ∨ code ≠ 0 →
        exec (.kend c rd ra code) s = .next (s1.raise c 0x02 (wordSY 7 rd ra code) (s1.kestrel c).pc))

/-! ### Periods, admission, grants, pre-emption and contexts -/

/-- PERIOD_BOUNDARY and BUDGET_EXHAUSTED (R49, R53, R57, R71): the first boundary opens period 0, a later one counts the period; with
work of the ended period incomplete the stream is DROPPING, else the new period starts with charge 0 and the table's priority; a
boundary during a drop only counts. At each the stream's doorbell line is read where no read of it is open. A charge that reaches a budget that is not 0 lowers the stream's priority as a victim to 0.

DROP_COMPLETE (R55, R57, R84): once the stream's transactions have completed, its late descriptor gets LATE_DROPPED, and with that
record written the stream leaves DROPPING and the open period starts. A drop that is not complete leaves the state. -/
def Obligations.PeriodsOpenAndDrop : Prop :=
  (∀ (s : State) (st : StreamId) (j : Job) (base : Word),
    let x := s.stream st
    s.ready = true → x.enabled = true → x.periodic = true → x.halted = false → s.job x.job = some j → j.base = some base →
    let i : Instr := .periodBoundary st
    let open_ (n : W32) (t : State) : Prop := (t.stream st).periodOpen = true ∧ (t.stream st).current = n
      ∧ (t.stream st).charge = 0 ∧ (t.stream st).demoted = false ∧ t.clusters = s.clusters ∧ t.memory = s.memory
    let polls (t : State) : Prop := t.out = s.out ++ (if (s.line (lineOf st)).asked then []
      else [.hostRead 0 (BitVec.ofNat 64 (s.doorbellBase + 64 * (st.val / 8))) 64]) ∧ (t.line (lineOf st)).asked = true
    let alone : Prop := s.contextsOf st = [] ∧ s.savedOf st = []
    (x.periodOpen = false → alone → Gives (exec i s) (fun t => open_ 0 t ∧ polls t))
    ∧ (x.periodOpen = true → x.phase = .dropping → Gives (exec i s) (fun t => polls t
        ∧ t.stream st = { x with current := x.current + 1 } ∧ t.clusters = s.clusters))
    ∧ (x.periodOpen = true → x.phase ≠ .dropping → { x with current := x.current + 1 }.incomplete = true →
        Gives (exec i s) (fun t => polls t ∧ (t.stream st).phase = .dropping ∧ (t.stream st).current = x.current + 1
          ∧ (t.stream st).descs = x.descs ∧ t.clusters = s.clusters))
    ∧ (x.periodOpen = true → x.phase ≠ .dropping → { x with current := x.current + 1 }.incomplete = false →
        alone → Gives (exec i s) (fun t => open_ (x.current + 1) t ∧ polls t))
    ∧ (x.budget ≠ 0 → x.budget ≤ x.charge → exec (.budgetExhausted st) s = .next (s.setStream st { x with demoted := true })
        ∧ Stream.victimPrio { x with demoted := true } = 0)
    ∧ (x.budget = 0 → exec (.budgetExhausted st) s = .next s))
  ∧ (∀ (s : State) (st : StreamId) (d : Desc) (j : Job),
    let x := s.stream st
    let rec_ := { s.descRecord st d 0x10 0 with attempt := j.attempt }
    let r := cring x.cring
    s.ready = true → x.phase = .dropping → x.dropWait = false →
    (s.dropQuiet st = false → exec (.dropComplete st) s = .next s)
    ∧ (s.job x.job = some j → j.phase = .running ∨ j.phase = .suspended → s.contextsOf st = [] → s.savedOf st = [] → x.notices = [] →
      x.descs = [d] → x.drops d = true → d.opcode ≠ 0x32 → d.opcode ≠ 0x29 → x.restartHeld = false → s.ringRoom r = true →
      Gives (exec (.dropComplete st) s) (fun t => (t.stream st).descs = [] ∧ (t.stream st).phase = .idle
        ∧ (t.stream st).charge = 0 ∧ (t.stream st).current = x.current ∧ (t.stream st).nextTerminal = d.idx + 1
        ∧ ∃ tail, t.out = s.out ++ .completionRecord x.cring (s.ringFunction r) (s.ringIova r 32) (s.ringSlot r)
            (recordBits rec_ s.tick (s.ringPhase r)) :: tail
          ∧ ∀ o ∈ tail, ∃ f v a m, o = .msix f v a m)))

/-- ADMISSION (R40, R50, R51): a job is admitted when the MIN_CL of the admitted jobs of its priority or above leave it its own; a created
one that is not waits for capacity with its event, a restarting one too; a waiting one is admitted in its turn; where pre-emption leaves
it MIN_CL clusters without stripping a lower job, the admitted one is RUNNING and its periods are reckoned from now.

CLUSTER_GRANT (R48, R52, R117, R192, R217): a free cluster with nothing cached joins a job that demands more clusters than it holds, at
the lowest free job cluster index, or at that of its lowest saved context, to be restored; its units start afresh, with the Hearth
seeded from the job, the runtime image fills its vector window, and its store keeps its bytes, or is zero after a power-up. A fresh
cluster serves the stream that demands most. No other cluster changes.

PREEMPTION (R46): for a ready stream that lacks one cluster with none free, the victim is stopped; a victim belongs to another job and
is stoppable: first one in SUSPENDED_FAULT, else one of lower priority whose job keeps more than MIN_CL, the lowest priority first, then
the higher job number and job cluster index. -/
def Obligations.ClustersAreGrantedAndTaken : Prop :=
  (∀ (s : State) (j : JobId) (y : Job), s.ready = true → s.job j = some y →
    let i : Instr := .admission j
    let sum (p : JobId → Bool) : Nat := (s.jobIds.map (fun o => match s.job o with
      | some z => if o ≠ j ∧ z.admitted = true ∧ p o = true then z.minCl.toNat else 0
      | none => 0)).sum
    let admits : Prop := sum (fun o => decide (s.admissionPrio j ≤ s.admissionPrio o)) + y.minCl.toNat ≤ s.liveCount
    let room : Prop := admits ∧ y.minCl.toNat ≤ s.obtainable j
    let runs (t : State) : Prop := ∃ z, t.job j = some z ∧ (z.phase = .running ∨ z.phase = .suspended) ∧ z.attemptPending = false
      ∧ z.base = some (y.base.getD (if Table.get false s.sched.groupEnable j.val then Table.get 0 s.sched.groupAnchor j.val
          else s.tick)) ∧ z.attempt = y.attempt
    (s.fits j = true ↔ admits)
    ∧ (y.phase = .created → room → Gives (exec i s) runs)
    ∧ (y.phase = .created ∨ y.phase = .restarting → ¬admits →
        exec i s = .next ((s.setJob j (some { y with phase := .waitCapacity })).postJobState j .waitCapacity y.attempt))
    ∧ (y.phase = .waitCapacity → room → s.waitsAhead j = false → y.attemptPending = false → Gives (exec i s) runs)
    ∧ (y.phase = .waitCapacity → ¬admits ∨ s.waitsAhead j = true → exec i s = .next s)
    ∧ (y.phase = .restarting → admits → y.minCl.toNat ≤ (s.jobClusters j).length → y.restored = true → Gives (exec i s) runs))
  ∧ (∀ (s : State) (j : JobId) (y : Job) (c : ClusterId), s.ready = true → s.card.stall = false → s.job j = some y →
    s.isFree c = true → (s.cluster c).storeBuf = [] → (s.cluster c).l1d = [] →
    (s.jobClusters j).length < y.maxCl.toNat → (s.jobClusters j).length < s.jobDemand j →
    let x := s.cluster c
    let given (n : Nat) (restoring : Bool) (t : State) : Prop := t.cluster c = { Cluster.reset with
        job := some (j, BitVec.ofNat 6 n)
        stream := if restoring then none else s.demandingStream j
        restoring := restoring
        powered := true
        window := Config.runtimeWindow
        m := Hearth.reset.begin y.seed 0
        store := if x.powered then x.store else []
        storeBad := if x.powered then x.storeBad else [] }
      ∧ ∀ d, d ≠ c → t.cluster d = s.cluster d
    let taken (n : Nat) : Prop := ∃ d ∈ s.jobClusters j, s.jciOf d = n
    (∀ n, y.saved = [] → n < y.maxCl.toNat → ¬taken n → (∀ m, m < n → taken m) →
      Gives (exec (.clusterGrant j c) s) (given n false))
    ∧ (∀ v ∈ y.saved, (∀ u ∈ y.saved, u ≠ v → v.jci < u.jci) → ¬taken v.jci.toNat →
      Gives (exec (.clusterGrant j c) s) (given v.jci.toNat true)))
  ∧ ((∀ (s : State) (j : JobId) (p : Nat) (c : ClusterId), s.victim j p = some c →
    let may (d : ClusterId) : Prop := s.stoppable d = true ∧ s.holder d ≠ some j
    may c
    ∧ (s.suspendedVictim c = true → ∀ d, may d → s.suspendedVictim d = true → s.victimKey d ≤ s.victimKey c)
    ∧ (s.suspendedVictim c = false → s.clusterPrio c < p ∧ s.aboveMin c = true
      ∧ ∀ d, may d → s.suspendedVictim d = false ∧ (s.clusterPrio d < p → s.aboveMin d = true →
          s.clusterPrio c < s.clusterPrio d ∨ s.clusterPrio c = s.clusterPrio d ∧ s.victimKey d ≤ s.victimKey c)))
  ∧ ∀ (s : State) (st : StreamId) (y : Job) (c : ClusterId),
      let x := s.stream st
      s.ready = true → s.card.stall = false → s.job x.job = some y → y.phase = .running ∨ y.phase = .suspended →
      x.phase ≠ .suspendedFault → (∀ d, s.isFree d = false) →
      (s.jobClusters x.job).length + (allClusters.filter (fun d => (s.cluster d).stopped)).length + 1
        = min y.maxCl.toNat (s.streamDemand x.job st) →
      s.victim x.job x.prio.toNat = some c →
      Gives (exec (.preemption st) s) (fun t => OnlyCluster c s t ∧ t.cluster c = { s.cluster c with stopped := true }))

/-- CONTEXT_SAVE and CONTEXT_RESTORE (R47, R48, R125, R129): the image of a stopped cluster with no store-buffer entry, no cached line, no
report and no live store goes to the save area of its job cluster index, the context is kept with its stream and share, and the
cluster is free; the restore of a verifying image loads the registers of all units and the cluster runs on; one that does not verify loads
nothing and fails the job with SEAL_FAIL. That DETAIL is the image's address is the model's reading (log entry 33). -/
def Obligations.ContextsAreSavedAndRestored : Prop :=
  (∀ (s s1 : State) (c : ClusterId) (j : JobId) (jci : BitVec 6) (y z : Job),
    let x := s.cluster c
    let q := s.quietCluster c
    s.ready = true → x.stopped = true → x.k.level ≠ 2 → x.k.run = .running → s.inDrop c = false → s.awaits c .mover = false →
    x.k.reports = [] → x.marks = [] → x.storeBuf = [] → x.l1d = [] → x.queue = [] → x.k.cslive = 0 → x.k.ssp = 0 → x.job = some (j, jci) →
    s.job j = some y → y.phase ≠ .aborting →
    q.saveSpan c none (y.saveVa.toNat + 229376 * jci.toNat) (q.contextImage c) = (none, s1) → s1.job j = some z →
    Gives (exec (.contextSave c) s) (fun t => (t.cluster c).job = none ∧ t.memory = s1.memory
      ∧ ∃ w, t.job j = some w ∧ w.saved = z.saved ++ [⟨jci, x.stream, x.share, x.fault, false⟩]))
  ∧ ∀ (s s1 : State) (c : ClusterId) (j : JobId) (jci : BitVec 6) (y : Job) (v : SavedContext) (b : List Byte),
      let x := s.cluster c
      s.ready = true → x.restoring = true → x.job = some (j, jci) → s.job j = some y → y.phase = .running ∨ y.phase = .suspended →
      y.saved.find? (fun u => decide (u.jci = jci)) = some v → s.awaits c .mover = false →
      s.loadSpan c none (y.saveVa.toNat + 229376 * jci.toNat) 229376 = (.ok b, s1) →
      let k := imageKestrel b (s1.kestrel c).irqPend
      (imageOk b = true → k.cslive = 0 → k.ssp = 0 → Gives (exec (.contextRestore c) s) (fun t =>
        (t.cluster c).restoring = false ∧ (t.cluster c).h = imageHarrier b ∧ (t.cluster c).m = imageHearth b
        ∧ t.kestrel c = { k with run := if v.fault = none ∨ v.resumed = true then .running else .faultStop }
        ∧ (t.cluster c).store = [] ∧ (t.cluster c).stream = v.stream ∧ (t.cluster c).share = v.share
        ∧ ∀ d, d ≠ c → t.cluster d = s1.cluster d))
      ∧ (∀ st, imageOk b = false → v.stream = some st → exec (.contextRestore c) s
          = .next ((s1.postCause st none 0x40 (y.saveVa.toNat + 229376 * jci.toNat)).failJob j))

/-! ### The mover -/

/-- COPY, CONVERT and KV_APPEND begin on the mover of the cluster that holds their job cluster index (R221, R224, R257, R327): COPY once
the mover runs no other descriptor, CONVERT once it runs no other CONVERT, taking its slot's maximum for DERIVE and zeroing the slot for
AMAX_RESET, in DERIVE once its decode scale has been written at SCALE_VA, KV_APPEND with its first attempt to set BUSY.

KV_APPEND's BUSY and header (R246, R257): BUSY found clear in the header's DEVICE range is set and the header captured; BUSY found set
leaves the descriptor to KV_BUSY_RETRY, which tries again; the committed header counts the new pages, tokens and free entries and has
BUSY clear, and its write ends the descriptor; a drop or abort before it clears BUSY and nothing else (R260). The order of the runs before it is the model's choice (log entry 38). -/
def Obligations.MoverAndKvDescriptorsRun : Prop :=
  (∀ (s : State) (st : StreamId) (idx : W32) (d : Desc) (c : ClusterId), s.moverReady c = true →
    let u := begunState s st idx
    let on (n : Nat) : Prop := s.jciCluster (s.stream st).job (BitVec.ofNat 6 n) = some c
    (Begins st idx 0x11 d s → on (d.num 40 0 6) → s.moverDescs c = [] → exec (.copy st idx) s = .next (u.serveStream c st))
    ∧ (Begins st idx 0x12 d s → on (d.num 39 0 6) → (∀ p ∈ s.moverDescs c, p.2.opcode ≠ 0x12) →
        let n := d.num 38 0 4
        let e := deriveExp (deriveMax d.cvDst) ((s.cluster c).h.slot n).value (d.num 40 0 3)
        Gives (exec (.convert st idx) s) (fun t =>
          ((t.desc st idx).map (·.phase)) = some .running ∧ ((t.desc st idx).map (·.aux0)) = some (BitVec.ofInt 64 e)
          ∧ ((t.desc st idx).map (·.stage)) = some (if d.cvMode = 3 then 1 else 2)
          ∧ OnlyCluster c u { t with sched := u.sched } ∧ (t.cluster c).h.v = (s.cluster c).h.v
          ∧ ∀ q, (t.cluster c).h.slot q = if q = n ∧ flagAt d.bits 38 5 = true ∧ d.cvMode ≠ 3 then AmaxSlot.zero
              else (s.cluster c).h.slot q))
    ∧ (Begins st idx 0x29 d s → on (d.num 44 0 6) → exec (.kvAppend st idx) s = .next ((u.serveStream c st).kvBusy c st d))
    ∧ ∀ v, GoesOn st idx 0x12 d s → s.moverFirst c = some (st, d) → d.heldBy = none → d.stage = 1 →
        s.awaitsRead c (some (st, idx)) = false →
        s.saveSpan c (some (st, idx)) (d.num 48 0 64) (toBytes 4 (2 ^ 23 * (127 - d.aux0.toInt).toNat)) = (none, v) →
        Gives (exec (.moverSegment c) s) (fun t => ((t.desc st idx).map (·.stage)) = (v.desc st idx).map (fun _ => 2)
          ∧ OnlyCluster c v { t with sched := v.sched }
          ∧ ∀ q, (t.cluster c).h.slot q = if q = d.num 38 0 4 ∧ flagAt d.bits 38 5 = true then AmaxSlot.zero
              else (v.cluster c).h.slot q))
  ∧ ((∀ (s s1 s2 s3 : State) (st : StreamId) (idx : W32) (d : Desc) (c : ClusterId) (pa : Nat) (e : Option RangeEntry)
    (b : List Byte) (run : Word),
    s.jciCluster (s.stream st).job (BitVec.ofNat 6 (d.num 44 0 6)) = some c → s.moverReady c = true → GoesOn st idx 0x29 d s →
    let va := d.num 16 0 64
    let plain := e.map (fun r => { r with counted := false })
    (d.stage = 0 → d.heldBy = none → (s2.cluster c).upsets = [] → s.access c .mover .mover .a (BitVec.ofNat 64 va) 8 = (.ok (.device pa) e, s1) →
      s1.readThrough c none va (.device pa) e 8 none = (.bytes b, s2) →
      ((nthD b 7 0).getLsbD 0 = true → b.length = 8 → exec (.kvBusyRetry st idx) s = .next s2)
      ∧ ((nthD b 7 0).getLsbD 0 = false → b.length = 8 →
          s2.writeThrough c none (va + 7) (.device (pa + 7)) plain [nthD b 7 0 ||| 1] (va + 7) (va + 8) 0 = (none, run, s3) →
          exec (.kvBusyRetry st idx) s
            = .next ((s3.modDesc st idx (fun x => { x with stage := 1 })).kvCapture c st { d with stage := 1 })))
    ∧ (let h := d.hdr
       let n := d.num 40 0 32
       let a := kvNew h n
       kvPages h + a < 2 ^ 32 → kvFreeUsed h + 2 * a < 2 ^ 32 → 1 ≤ kvPages h + a →
       kvTokens h + n - kvPt h * (kvPages h + a - 1) < 2 ^ 16 →
       kvPages d.kvCommit = kvPages h + a ∧ kvFreeUsed d.kvCommit = kvFreeUsed h + 2 * a
       ∧ kvLast d.kvCommit = kvTokens h + n - kvPt h * (kvPages h + a - 1) ∧ fieldAt d.kvCommit 7 0 8 = 0
       ∧ kvKTable d.kvCommit = kvKTable h ∧ kvVTable d.kvCommit = kvVTable h ∧ kvFree d.kvCommit = kvFree h)
    ∧ (∀ z, s.moverFirst c = some (st, d) → d.heldBy = none → s.awaitsRead c (some (st, idx)) = false → d.stage = 2 →
        2 * d.num 40 0 32 * kvHeads d.hdr
          + 2 * (kvNew d.hdr (d.num 40 0 32) + (if kvPages d.hdr = 0 then 0 else 1)) ≤ d.progress →
        s.saveSpan c (some (st, idx)) va (toBytes 64 d.kvCommit.toNat) = (none, z) →
        exec (.moverSegment c) s = .next (z.finish st idx 0 0)))
  ∧ ∀ (s : State) (a : Fin 1024) (st : StreamId) (d : Desc) (e : RangeEntry) (pa : Nat),
      let va := (d.word 16).toNat + 7
      d.phase = .running → d.opcode = 0x29 → d.stage ≠ 0 → s.entryAt a va = some e → s.targetOf a e va = .device pa →
      e.sealedR = false → s.mirrorAt a va = none → Mem.wf s.memory.mem = true →
      let t := s.revertDesc a st d
      Mem.read t.memory.mem pa = Mem.read s.memory.mem pa &&& 0xFE ∧ SameOutside s.memory.mem t.memory.mem pa 1
        ∧ t.sched = s.sched ∧ t.clusters = s.clusters)

/-- MOVER_SEGMENT of a request of the runtime (R288, R289): with both sides in the own cluster store below the protected regions, apart,
the next segment's bytes arrive at the destination, every other byte stays, and the request's progress moves on; after the last segment
its completion word is written and the MOVER line is pending. A request joins the end of a queue that holds fewer than 256, behind the
descriptors that run on the mover then. That word is a free value (log
entry 39); that a request finding no place is not made is the model's choice (log entry 121).

MOVER_SEGMENT of a COPY or a CONVERT (R211, R221, R225, R327, R328): in the own cluster store a COPY's segment arrives at its
destination, and a CONVERT without scale writes each element's conversion, every other byte staying; the last segment ends the
descriptor with DONE, a CONVERT without flag record and gathering too. -/
def Obligations.SegmentsMoveTheirBytes : Prop :=
  ((∀ (s : State) (c : ClusterId) (src dst : Word) (len : W32) (completion : Word), s.mayRun c = true →
    ((s.cluster c).queue.length < 256 →
      Gives (exec (.moverRequest c src dst len completion) s) (fun t => OnlyCluster c s t ∧ t.cluster c = { s.cluster c with
        queue := (s.cluster c).queue
          ++ [⟨src, dst, len, completion, 0, 0, none, (s.moverDescs c).map (fun p => (p.1, p.2.idx))⟩] }))
    ∧ (256 ≤ (s.cluster c).queue.length → exec (.moverRequest c src dst len completion) s = .next s))
  ∧ ∀ (s : State) (c : ClusterId) (q : MoverReq) (rest : List MoverReq), s.moverReady c = true → s.moverFirst c = none → (s.cluster c).sound = true →
      (s.cluster c).queue = q :: rest → q.fault = none → s.inDrop c = false → s.fabric.requests = [] →
      let x := s.cluster c
      let a := q.src.toNat + q.progress
      let b := q.dst.toNat + q.progress
      let n := min (q.len.toNat - q.progress) (min (4096 - a % 4096) (4096 - b % 4096))
      (q.progress < q.len.toNat → a + n ≤ shadowBase → b + n ≤ shadowBase → x.storeBad = [] → Mem.wf x.store = true →
        Gives (exec (.moverSegment c) s) (fun t => OnlyCluster c s t
          ∧ { t.cluster c with queue := x.queue, store := x.store } = x
          ∧ (t.cluster c).queue = { q with progress := q.progress + n } :: rest
          ∧ Mem.readBytes (t.cluster c).store b n = Mem.readBytes x.store a n
          ∧ SameOutside x.store (t.cluster c).store b n))
      ∧ (∀ s1, q.len.toNat ≤ q.progress →
          ({ s with free := s.free + 1 } : State).saveSpan c none q.completion.toNat
            (toBytes 8 (Config.freeWord s.free).toNat) = (none, s1) → s1.fabric.requests = [] →
          Gives (exec (.moverSegment c) s) (fun t => OnlyCluster c s1 t ∧ t.cluster c = { s1.cluster c with
            queue := rest
            k := { s1.kestrel c with irqPend := (s1.kestrel c).irqPend ||| 4 } })))
  ∧ (∀ (s : State) (c : ClusterId) (st : StreamId) (idx : W32) (d : Desc), s.moverReady c = true →
    s.moverFirst c = some (st, d) → (s.cluster c).sound = true → d.heldBy = none → s.fabric.requests = [] → (s.cluster c).storeBad = [] →
    Mem.wf (s.cluster c).store = true →
    let store := (s.cluster c).store
    let src := d.num 16 0 64
    let dst := d.num 24 0 64
    let moved (a n : Nat) (bytes : List Byte) (t : State) : Prop := t.memory = s.memory
      ∧ Mem.readBytes (t.cluster c).store a n = bytes ∧ SameOutside store (t.cluster c).store a n
    (GoesOn st idx 0x11 d s →
      let p := d.progress
      let n := min (d.num 32 0 64 - p) (min (4096 - (src + p) % 4096) (4096 - (dst + p) % 4096))
      p < d.num 32 0 64 → src + p + n ≤ shadowBase → dst + p + n ≤ shadowBase →
      (p + n < d.num 32 0 64 → Gives (exec (.moverSegment c) s) (fun t => moved (dst + p) n (Mem.readBytes store (src + p) n) t
        ∧ ((t.desc st idx).map (·.progress)) = some (p + n)))
      ∧ (d.num 32 0 64 ≤ p + n → EndsDone (exec (.moverSegment c) s) st idx (moved (dst + p) n (Mem.readBytes store (src + p) n))))
    ∧ (GoesOn st idx 0x12 d s → d.stage = 2 → d.cvMode = 0 → d.num 56 0 64 = 0 → flagAt d.bits 38 4 = false →
      let p := d.progress
      let k := d.cvCount
      let b := esize d.cvSrc
      let w := esize d.cvDst
      let new (i : Nat) : Nat := (convertElem d.cvSrc d.cvDst d.cvRm d.cvFtz none
        (ofBytes (Mem.readBytes store (src + (p + i) * b) b))).1
      let bytes := (List.range k).flatMap (fun i => toBytes w (new i))
      p < d.num 32 0 32 → src + (p + k) * b ≤ shadowBase → dst + (p + k) * w ≤ shadowBase →
      src + d.num 32 0 32 * b ≤ dst ∨ dst + d.num 32 0 32 * w ≤ src →
      (p + k < d.num 32 0 32 → Gives (exec (.moverSegment c) s) (fun t => moved (dst + p * w) (k * w) bytes t
        ∧ ((t.desc st idx).map (·.progress)) = some (p + k)))
      ∧ (d.num 32 0 32 ≤ p + k → EndsDone (exec (.moverSegment c) s) st idx (moved (dst + p * w) (k * w) bytes))))

/-! ### Operators that the runtime executes -/

/-- CONV_STRIPE, CONV_LOAF, POOL and ATTN begin (R231, R235, R253, R254): with enough idle clusters of the job the mover of rank 0 reads the
operator table, or the KV header; a valid one is captured and DISPATCH is raised on the lowest idle clusters, whose shares carry their ranks and where the line is pending;
an invalid one is BAD_DESCRIPTOR at offset 16. -/
def Obligations.OperatorsReadTheirTablesAndDispatch : Prop :=
  ∀ (s s1 : State) (st : StreamId) (idx : W32) (d : Desc),
    let u := begunState s st idx
    let begins (op off : Nat) (p : ClusterId → Prop) : Prop := ∀ (c : ClusterId) (cs : List ClusterId),
      Begins st idx op d s → d.stage = 0 → d.num off 0 6 ≤ s.liveCount →
      (s.idleClusters (s.stream st).job).take (d.num off 0 6) = c :: cs → (c :: cs).length = d.num off 0 6 → p c
    let image (i : Instr) (op : Nat) : Prop := begins op 32 (fun c => ∀ t : List Word,
      (tableRun c (some (st, idx)) (d.num 16 0 64)).run u = (.ok t, s1) →
      let v := s1.dropAnswers c (some (st, idx))
      (tableOk op (d.num 33 0 4) (d.num 24 0 64) t = true →
        exec i s = .next ((v.modDesc st idx (fun e => { e with pages := t })).dispatchAll st idx (d.num 32 0 6)))
      ∧ (tableOk op (d.num 33 0 4) (d.num 24 0 64) t = false → exec i s = .next (v.badDescriptor st idx 16)))
    image (.convStripe st idx) 0x20 ∧ image (.convLoaf st idx) 0x21 ∧ image (.pool st idx) 0x22
    ∧ begins 0x28 50 (fun c => ∀ b : List Byte, u.loadSpan c (some (st, idx)) (d.num 16 0 64) 64 = (.ok b, s1) →
        let h : Line := BitVec.ofNat 512 (ofBytes b)
        let v := s1.dropAnswers c (some (st, idx))
        let ok := attnOk d h (v.entryAt (v.aspOf c) (d.num 16 0 64))
        (ok = true → exec (.attn st idx) s
          = .next ((v.modDesc st idx (fun e => { e with hdr := h })).dispatchAll st idx (d.num 50 0 6)))
        ∧ (ok = false → exec (.attn st idx) s = .next (v.badDescriptor st idx 16)))
    ∧ ∀ (n : Nat) (r : Nat) (c : ClusterId), ((s.idleClusters (s.stream st).job).take n)[r]? = some c →
        ((s.dispatchAll st idx n).cluster c).share = some ⟨st, idx, r, 0, 0⟩ ∧ ((s.dispatchAll st idx n).cluster c).l1d = []
          ∧ ((s.dispatchAll st idx n).kestrel c).irqPend = (s.kestrel c).irqPend ||| 2

/-! ### Range tables, faults and checkpoints -/

/-- RANGE_UPDATE (R273-R277), once begun with no table operation of its space before it and no MIGRATING entry in its span: a valid INSERT puts the LIVE entry with the next GEN at
its place by VBASE and keeps that order; a MODIFY that takes nothing from its entry replaces it with the next GEN, one that narrows it
runs on until MODIFY_DRAIN_DONE finds the transactions of the old GEN complete; CLEAR_COUNTS zeroes the entry's counters. A space's
cached ranges go with each change. Behind another table operation of the space it begins and waits its turn, the table unchanged: that
the waiting operation has begun is the model's choice (log entry 133).

WITHDRAW (R296-R298): once begun in its turn, its span's part of the entry that holds it is WITHDRAWING and uncached and it stays under
way; with what was in flight through that entry complete and the span's lines cleaned, WITHDRAW_REMOVE removes the entry and is DONE; else it waits. -/
def Obligations.RangeUpdatesAndWithdrawalsRun : Prop :=
  (∀ (s : State) (st : StreamId) (idx : W32) (d : Desc),
    let u := begunState s st idx
    let a := u.streamAsp st
    let sp := u.space a
    let e := RangeEntry.ofBits d.entryBits
    let begins (op : Nat) : Prop := Begins st idx 0x30 d s ∧ d.num 16 0 8 = op
      ∧ d.stage = 0 ∧ (s.space (s.streamAsp st)).ops = [] ∧ s.meetsMigrating (s.streamAsp st) d.updateSpan.1 d.updateSpan.2 = false
    let uncached (v : State) : Prop := ∀ c : ClusterId, ∀ r ∈ (v.cluster c).moverCache ++ (v.cluster c).loadCache
      ++ (v.cluster c).storeCache, r.1 ≠ a.val
    let valid : Prop := firstBad (offsetBy 32 (u.entryChecks sp.cntSize d.entryBits)) = none
    (begins 0 → valid → (∀ x ∈ sp.entries, spansMeet x.lo x.len e.lo e.len = false) → sp.entries.length < 4096 →
      EndsDone (exec (.insert st idx) s) st idx (fun v =>
        (∀ x, x ∈ (v.space a).entries ↔ x = { e with gen := sp.genctr + 1, state := 0 } ∨ x ∈ sp.entries)
        ∧ (sp.entries.Pairwise (fun x y => x.lo ≤ y.lo) → (v.space a).entries.Pairwise (fun x y => x.lo ≤ y.lo))
        ∧ (v.space a).genctr = sp.genctr + 1 ∧ (∀ b, b ≠ a → v.space b = u.space b) ∧ uncached v))
    ∧ (∀ old, begins 1 → sp.entries.find? (fun x => decide (x.lo = e.lo)) = some old →
        firstBad (u.modifyChecks a d old e) = none →
        let new : RangeEntry := { e with gen := sp.genctr + 1, state := old.state }
        let changed (v : State) : Prop :=
          (v.space a).entries = sp.entries.map (fun x => if x.lo = old.lo then new else x) ∧ uncached v
        (old.narrows new = false → EndsDone (exec (.modify st idx) s) st idx changed)
        ∧ (old.narrows new = true → (∀ c : ClusterId, u.aspOf c = a → (u.cluster c).job = none) →
            Gives (exec (.modify st idx) s) (fun v => changed v ∧ (v.space a).ops = [(st, idx)]
              ∧ ((v.desc st idx).map (·.aux0)) = some (old.gen.setWidth 64) ∧ ((v.desc st idx).map (·.stage)) = some 1
              ∧ ((v.desc st idx).map (·.phase)) = some .running)))
    ∧ (GoesOn st idx 0x30 d s → let b := s.streamAsp st
        let gen : BitVec 16 := bitsAt d.aux0 0 16
        (d.stage = 0 ∨ s.openIn b gen d.updateSpan.1 d.updateSpan.2 = true → exec (.modifyDrainDone st idx) s = .next s)
        ∧ (d.stage ≠ 0 → s.openIn b gen d.updateSpan.1 d.updateSpan.2 = false →
            exec (.modifyDrainDone st idx) s = .next ((s.setSpace b { s.space b with
              ops := (s.space b).ops.filter (fun o => decide (o ≠ (st, idx))) }).finish st idx 0 0)))
    ∧ (∀ o l, Begins st idx 0x30 d s → d.num 16 0 8 = 0 → sp.ops = o :: l → o ≠ (st, idx) →
        Gives (exec (.insert st idx) s) (fun v => (v.space a).entries = sp.entries ∧ (v.space a).ops = sp.ops ++ [(st, idx)]
          ∧ ((v.desc st idx).map (·.phase)) = some .running))
    ∧ (∀ x, begins 2 → sp.entries.find? (fun x => decide (x.lo = e.lo) && x.counted) = some x → Mem.wf u.memory.mem = true →
        let at_ := sp.cntBase + 2 * x.cntIndex.toNat
        let n := 2 * (x.len / x.granule)
        EndsDone (exec (.clearCounts st idx) s) st idx (fun v => (∀ k, k < n → Mem.read v.memory.mem (at_ + k) = 0)
          ∧ SameOutside u.memory.mem v.memory.mem at_ n ∧ { v with memory := u.memory } = u)))
  ∧ (∀ (s : State) (st : StreamId) (idx : W32) (d : Desc),
    let u := begunState s st idx
    let a := u.streamAsp st
    let va := d.num 16 0 64
    let len := d.num 24 0 64
    (∀ e, Begins st idx 0x31 d s → d.stage = 0 → (s.space (s.streamAsp st)).ops = [] →
      s.meetsMigrating (s.streamAsp st) va (max len 1) = false → firstBad (u.withdrawChecks a va len) = none →
      (u.space a).holding va len = some e → Gives (exec (.withdraw st idx) s) (fun t =>
        (t.space a).entries = (u.space a).entries.flatMap (fun x => if x.lo = e.lo then
          (if e.lo < va then [x.part e.lo va x.state] else []) ++ [x.part va (va + len) 1]
            ++ (if va + len < x.hi then [x.part (va + len) x.hi x.state] else []) else [x])
        ∧ (t.space a).ops = [(st, idx)] ∧ ((t.desc st idx).map (·.phase)) = some .running
        ∧ (∀ b, b ≠ a → t.space b = u.space b)
        ∧ ∀ c : ClusterId, ∀ r ∈ (t.cluster c).moverCache ++ (t.cluster c).loadCache ++ (t.cluster c).storeCache, r.1 ≠ a.val))
    ∧ (GoesOn st idx 0x31 d s →
        let b := s.streamAsp st
        let v := s.drainSpace b
        let gen : BitVec 16 := bitsAt d.aux0 0 16
        (d.stage = 0 ∨ v.openIn b gen va len = true → exec (.withdrawRemove st idx) s = .next v)
        ∧ (∀ e, d.stage ≠ 0 → v.openIn b gen va len = false →
            (v.space b).entries.find? (fun e => decide (e.lo = va) && decide (e.state = 1)) = some e →
            let w := v.quiesceSpan b (fun l => targetIn (v.space b).function.val e va len l.target)
            EndsDone (exec (.withdrawRemove st idx) s) st idx (fun z =>
              (z.space b).entries = (w.space b).entries.filter (fun x => decide (x.lo ≠ va)) ∧ (z.space b).ops = (w.space b).ops.filter (fun o => decide (o ≠ (st, idx)))
              ∧ z.clusters = w.clusters
              ∧ (e.type = tyHost → ∀ l ∈ z.memory.l2, l.host = some (v.space b).function.val →
                  64 * l.line + 64 ≤ e.target.toNat ∨ e.target.toNat + len ≤ 64 * l.line)))))

/-- MIGRATE (R280-R286): once begun, its span's entry is MIGRATING and uncached; each segment copies 4 KiB from the old target to the new
one, between unsealed device targets the very bytes, every other byte staying; with all of the span copied, the transactions through
the old entry complete and no other table operation under way, the swap gives the entry its new target and the next GEN, LIVE, and is DONE.

RESUME (R293-R295): of an outstanding fault of a stream of its own FUNCTION, it ends the fault: every stopped cluster and every
descriptor the fault held goes on, and the stream leaves SUSPENDED_FAULT when no other fault of it is outstanding; of a fault that is not
outstanding it is DONE; of another FUNCTION's fault, or of an ID not yet used, BAD_DESCRIPTOR at offset 16. -/
def Obligations.MigrateAndResumeGoOn : Prop :=
  (∀ (s : State) (st : StreamId) (idx : W32) (d : Desc),
    let u := begunState s st idx
    let va := d.num 16 0 64
    let len := d.num 24 0 64
    (∀ e, let a := u.streamAsp st
      Begins st idx 0x32 d s → d.stage = 0 → (s.space (s.streamAsp st)).ops = [] → firstBad (u.migrateChecks a d) = none →
      (u.space a).holding va len = some e → (∀ c : ClusterId, u.aspOf c = a → (u.cluster c).job = none) →
      Gives (exec (.migrate st idx) s) (fun t =>
        (t.space a).entries = (u.space a).entries.flatMap (fun x => if x.lo = e.lo then x.split va len 2 else [x])
        ∧ ((t.desc st idx).map (·.phase)) = some .running ∧ ((t.desc st idx).map (·.stage)) = some 1
        ∧ ∀ c : ClusterId, ∀ r ∈ (t.cluster c).moverCache ++ (t.cluster c).loadCache ++ (t.cluster c).storeCache, r.1 ≠ a.val))
    ∧ (GoesOn st idx 0x32 d s → d.stage = 1 → ((s.job (s.stream st).job).map (·.phase.runs)) = some true →
        let a := s.streamAsp st
        (∀ e p q, d.progress < len → d.late = [] → s.fabric.requests = [] → Mem.wf s.memory.mem = true → s.memory.poison = [] →
          (s.space a).entries.find? (fun e => decide (e.lo = va) && decide (e.state = 2)) = some e →
          s.targetOf a { e with counted := false } (va + d.progress) = .device p →
          s.targetOf a { d.migrated { e with counted := false } with counted := false } (va + d.progress) = .device q →
          e.sealedR = false → e.cacheable = false → s.fencedUnit p = none → s.fencedUnit q = none →
          s.mirrorAt a (va + d.progress) = none →
          Gives (exec (.migrateCopySegment st idx) s) (fun t => t.readMem q 4096 = s.readMem p 4096
            ∧ SameOutside s.memory.mem t.memory.mem q 4096
            ∧ ((t.desc st idx).map (·.progress)) = some (d.progress + 4096) ∧ t.clusters = s.clusters))
        ∧ (∀ e, len ≤ d.progress → s.tableRuns a = false →
          let v := s.drainSpace a
          (v.space a).entries.find? (fun e => decide (e.lo = va) && decide (e.state = 2)) = some e →
          (v.openIn a e.gen va len = true → exec (.migrateSwap st idx) s = .next v)
          ∧ (v.openIn a e.gen va len = false →
              EndsDone (exec (.migrateSwap st idx) s) st idx (fun z => (z.space a).entries = (v.space a).entries.map (fun x =>
                  if x.lo = va then { e with
                    type := fieldAt d.bits 40 0 2
                    target := d.word 32
                    gen := (v.space a).genctr + 1
                    state := 0 } else x)
                ∧ (z.space a).genctr = (v.space a).genctr + 1)))))
  ∧ (∀ (s : State) (st : StreamId) (idx : W32) (d : Desc), Begins st idx 0x38 d s →
    let u := begunState s st idx
    let id := d.half 16
    (∀ f, u.sched.faults.find? (fun f => decide (f.id = id)) = some f →
      ((u.stream f.stream).function ≠ (u.stream st).function → exec (.resume st idx) s = .next (u.badDescriptor st idx 16))
      ∧ ((u.stream f.stream).function = (u.stream st).function → f.outstanding = false →
          exec (.resume st idx) s = .next (u.finish st idx 0 0))
      ∧ ((u.stream f.stream).function = (u.stream st).function → f.outstanding = true →
          EndsDone (exec (.resume st idx) s) st idx (fun v =>
            ((v.sched.faults.find? (fun f => decide (f.id = id))).map (·.outstanding)) = some false
            ∧ (∀ c : ClusterId, (u.cluster c).fault = some id → (v.cluster c).fault = none
                ∧ ((u.kestrel c).run = .faultStop → (v.kestrel c).run = .running))
            ∧ (∀ c : ClusterId, (u.cluster c).fault ≠ some id → (v.kestrel c) = (u.kestrel c))
            ∧ (∀ o ∈ u.jobStreams f.job, ∀ e ∈ (v.stream o).descs, e.heldBy ≠ some id)
            ∧ ((u.sched.faults.erase f).all (fun g => !(decide (g.stream = f.stream) && g.outstanding)) = true →
                (v.stream f.stream).phase ≠ .suspendedFault))))
    ∧ (u.sched.faults.find? (fun f => decide (f.id = id)) = none →
        exec (.resume st idx) s = .next (if before32 (u.sched.nextFault - 1) id then u.badDescriptor st idx 16
          else u.finish st idx 0 0)))

/-- A CHECKPOINT kept on the device itself (R399-R402): it begins by capturing the job's streams with their RESUME_INDEX; it opens a half
that does not hold the newest sealed generation, EMPTY before, as FILLING with the next SEQ; at its end a matching CRC seals the half, and
the job's last checkpoint is that slot; a RESTORE reads the newest sealed generation and a bad CRC at its end is SEAL_FAIL. -/
def Obligations.CheckpointsFillAndSealAHalf : Prop :=
  ∀ (s : State) (st : StreamId) (idx : W32) (d : Desc) (c : ClusterId) (y : Job),
    let slot := d.num 18 0 4
    let j := (s.stream st).job
    s.jciCluster j (BitVec.ofNat 6 (d.num 20 0 6)) = some c → s.moverReady c = true → s.job j = some y →
    let goes (restore : Bool) : Prop := GoesOn st idx 0x39 d s ∧ d.ckRestore = restore ∧ d.heldBy = none ∧ s.fabric.requests = []
      ∧ fieldAt d.bits 16 0 12 = s.fabId ∧ s.ownsSlot s.fabId slot = true
    (Begins st idx 0x39 d s → (s.jobStreams j).length ≤ 248 →
      let u := begunState s st idx
      (d.ckRestore = false → exec (.checkpointSave st idx) s = .next ((u.serveStream c st).modDesc st idx (fun e => { e with
          pages := u.ckCapture st idx
          left := (u.ckCapture st idx).length })))
      ∧ (d.ckRestore = true → exec (.checkpointRestore st idx) s = .next (u.serveStream c st)))
    ∧ (goes false → d.stage = 2 → 0x40 + d.ckTotal ≤ d.progress →
        let crc : W32 := ~~~ (bitsAt d.aux2 0 32)
        let v := s.modDesc st idx (fun e => { e with stage := 3 })
        (∀ w, v.sealHalf slot crc = some w → exec (.checkpointSave st idx) s = .next (w.ckSaved st d))
        ∧ (v.sealHalf slot crc = none → exec (.checkpointSave st idx) s = .next (v.ckFails st (some idx))))
    ∧ (goes true → d.stage = 1 → 0x40 + (fieldAt d.hdr 16 0 64).toNat ≤ d.progress →
        exec (.checkpointRestore st idx) s = .next (if (~~~ (bitsAt d.aux2 0 32) : W32) = fieldAt d.hdr 24 0 32
          then s.finish st idx 0 0 else s.ckFails st (some idx)))
    ∧ (Mem.wf s.memory.mem = true → 4096 ≤ s.ckptSlotBytes → s.ckptSlotBytes % 4096 = 0 →
        let o := s.openHalf s.fabId slot
        o.2.halfState slot o.1 = 1 ∧ (s.newest slot ≠ some o.1) ∧ o.2.halfState slot (!o.1) ≠ 1
        ∧ (s.newest slot = some (!o.1) → o.2.halfSeq slot o.1 = s.halfSeq slot (!o.1) + 1
            ∧ o.2.halfState slot (!o.1) = 2)
        ∧ (s.newest slot = none → o.1 = false ∧ o.2.halfSeq slot o.1 = 1))

/-! ### Set-up registers -/

/-- SETUP_REGISTER_WRITE by the PF (R410, R462-R464, R467): a write that any check refuses is discarded whole, GEN_SETUP_ERR counting it with
its REASON, FUNCTION 0, offset and data, and nothing else changes: no register there 5, only read-only fields 3, a reserved bit 1, in
FAILED outside what it permits 6; an accepted write of a plain register keeps its writable fields; a misaligned one is Unsupported
Request, which the function's AER shows; the MSI-X table takes address, data and mask.

SETUP_REGISTER_WRITE by a VF (R303, R413-R415): an offset that VF BAR0 does not list holds the VF in Talon, its read-only registers
discard the write with REASON READ_ONLY, its MSI-X table takes data; a held VF's write is Unsupported Request.

Reads that change state (R62, R376, R467, R469, R473): GEN_SETUP_ERR shows its count, REASON and FUNCTION and clears the count;
STB_EVT_LOST and a port's counters show their value and clear; TB_TIME_LO shows the low half of the timebase and latches the high
half; nothing else changes. RECOVERY reads the last three as zero and clears nothing. VF_INFO reads the VF's number and VF_STATUS whether it
is held, with nothing where R413 lists no register; HIF_LINK shows the link up (R418). -/
def Obligations.SetupAccessesAreChecked : Prop :=
  (∀ (s : State) (off : BitVec 26) (v : W32) (hi : W32), s.hostAnswers = true →
    let n := off.toNat
    let w (size : Nat) (d : Word) : Result := exec (.setupRegisterWrite 0 off size d) s
    let d : Word := v.setWidth 64
    let err (why : Nat) (data : Word) : State := { s with setup := { s.setup with
      errCount := if s.setup.errCount = 0xFFFF then 0xFFFF else s.setup.errCount + 1
      errReason := BitVec.ofNat 4 why
      errFunction := 0
      errAddr := off
      errData := data } }
    let ur (t : State) : Prop := t.out = s.out ++ [.unsupportedRequest] ∧ (0, .unsupportedRequest) ∈ t.host.aer
      ∧ { t with out := s.out, host := { t.host with aer := s.host.aer } } = s
    (n % 4 ≠ 0 → Gives (w 4 d) ur ∧ Gives (w 8 d) ur)
    ∧ (n % 4 = 0 → inMsixTable n = false → s.card.device = .ready →
        (fields n = none → w 4 d = .next (err 5 d))
        ∧ (∀ ro, fields n = some (0, ro) → w 4 d = .next (err 3 d))
        ∧ (∀ rw ro, fields n = some (rw, ro) → rw ≠ 0 → v &&& ~~~ BitVec.ofNat 32 (rw ||| ro) ≠ 0 → w 4 d = .next (err 1 d))
        ∧ (n % 8 = 0 → fields (n + 4) = none → (∃ why, w 8 (hi ++ v) = .next (err why (hi ++ v)))))
    ∧ (s.card.device = .failed → n = 0x40038 → w 4 d = .next (err 6 d))
    ∧ (s.card.device = .ready → n ∈ [0x60004, 0x70014, 0x70010, 0x20010, 0x20014, 0x40020, 0x40030, 0x50000, 0x60014, 0x400] →
        ∀ rw, fields n = some (rw, 0) → v &&& ~~~ BitVec.ofNat 32 rw = 0 → Gives (w 4 d) (fun t =>
          t.reg n = (s.reg n &&& ~~~ BitVec.ofNat 32 rw) ||| v ∧ (∀ o, o ≠ n → t.reg o = s.reg o)
          ∧ { t with setup := { t.setup with regs := s.setup.regs } } = s))
    ∧ (s.card.device = .ready → inMsixTable n = true → let k := (n - 0x34000) / 16
        let m := s.msix 0 k
        let set (x : Msix) : State := s.setMsix 0 k x
        (n % 16 = 8 → w 4 d = .next (set { m with data := v }))
        ∧ (n % 16 = 0 → w 8 (hi ++ v) = .next ((set { m with addr := putBits m.addr 0 v }).setMsix 0 k
            { (set { m with addr := putBits m.addr 0 v }).msix 0 k with
              addr := putBits ((set { m with addr := putBits m.addr 0 v }).msix 0 k).addr 32 hi }))
        ∧ (n % 16 = 12 → v.getLsbD 0 = true ∨ m.pending = false → w 4 d = .next (set { m with masked := v.getLsbD 0 }))
        ∧ (n % 16 = 12 → v.getLsbD 0 = false → m.pending = true →
            w 4 d = .next ((set { m with masked := false, pending := false }).sendMsix 0 k))))
  ∧ (∀ (s : State) (f : FunctionId) (off : BitVec 26) (v : W32), s.hostAnswers = true → s.card.device = .ready → f ≠ 0 →
    let n := off.toNat
    let w : Result := exec (.setupRegisterWrite f off 4 (v.setWidth 64)) s
    (s.frozen .vf f.val = true → Gives w (fun t => t.out = s.out ++ [.unsupportedRequest] ∧ (f, .unsupportedRequest) ∈ t.host.aer
      ∧ { t with out := s.out, host := { t.host with aer := s.host.aer } } = s))
    ∧ (s.frozen .vf f.val = false →
        ((n % 4 ≠ 0 ∨ (0xC ≤ n ∧ n < 0x8000) ∨ (0x8400 ≤ n ∧ n < 0xC000) ∨ 0xC008 ≤ n) → w = .next (s.freezeVf f)
          ∧ (s.freezeVf f).frozen .vf f.val = true)
        ∧ (n ∈ [0, 8, 0xC000, 0xC004] → Gives w (fun t => t.setup.errReason = 3 ∧ t.setup.errFunction.toNat = f.val
            ∧ t.setup.errAddr = off ∧ { t with setup := s.setup } = s))
        ∧ (0x8000 ≤ n → n < 0x8400 → n % 16 = 8 → let k := (n - 0x8000) / 16
            w = .next (s.setMsix f.val k { s.msix f.val k with data := v }))))
  ∧ (∀ s : State, s.hostAnswers = true →
    let live : Prop := s.card.device ≠ .recovery
    let data (n : Nat) (t : State) : Prop := t.out = s.out ++ [.mmioData (BitVec.ofNat 64 n)]
    Gives (exec .genSetupErrRead s) (fun t => data (s.setup.errCount.toNat + 2 ^ 16 * s.setup.errReason.toNat
        + 2 ^ 24 * s.setup.errFunction.toNat) t
      ∧ { t with out := s.out, setup := { t.setup with errCount := s.setup.errCount } } = s ∧ t.setup.errCount = 0)
    ∧ (live → Gives (exec .stbEvtLostRead s) (fun t => data s.sched.evtLost.toNat t ∧ t.sched.evtLost = 0
        ∧ { t with out := s.out, sched := { t.sched with evtLost := s.sched.evtLost } } = s))
    ∧ (∀ (p : PortId) (k : Fin 4), live → Gives (exec (.evlCounterRead p k) s) (fun t =>
        data ((s.port p).counter k.val).toNat t ∧ (∀ i, i < 4 → (t.port p).counter i = if i = k.val then 0 else (s.port p).counter i)
        ∧ (∀ q, q ≠ p → t.port q = s.port q)
        ∧ { t with out := s.out, fabric := { t.fabric with ports := s.fabric.ports } } = s))
    ∧ (live → s.card.device ≠ .failed → Gives (exec .tbTimeLoRead s) (fun t => data (s.tick.toNat % 2 ^ 32) t
        ∧ t.setup.latch = some (bitsAt s.tick 32 32)
        ∧ { t with out := s.out, setup := { t.setup with latch := s.setup.latch } } = s))
    ∧ (s.card.device = .recovery → exec .stbEvtLostRead s = .next (s.emit (.mmioData 0))
        ∧ exec .tbTimeLoRead s = .next (s.emit (.mmioData 0)))
    ∧ (∀ f : FunctionId, s.vfBar0Read f 0 = some (BitVec.ofNat 32 f.val)
        ∧ s.vfBar0Read f 8 = some (if s.frozen .vf f.val = true then 1 else 0)
        ∧ (∀ n, (12 ≤ n ∧ n < 0x8000) ∨ (0x8400 ≤ n ∧ n < 0xC000) ∨ 0xC008 ≤ n → s.vfBar0Read f n = none))
    ∧ ((s.bar0Read 0x30000).getLsbD 16 = s.host.linkUp))

/-- The set-up writes that act (R42, R85, R90, R265, R305, R318, R349, R373, R397, R418, R442, R446, R471), each accepted: a job abort, a ring's
enable (its records start at 0) and disable (its unsignalled records are forgotten), the load of an address space, the release of a dumped
master of no fenced cluster (R356), a retirement's clearing, a unit reset, L2 way and quadrant power, a retrain, a drain, the clearing of ring errors. -/
def Obligations.ActingWritesAct : Prop :=
  ∀ s : State, s.hostAnswers = true → s.card.device = .ready →
    let go (n : Nat) : W32 := BitVec.ofNat 32 (2 ^ 31 + n)
    (∀ (j : JobId) (y : Job), s.job j = some y → y.phase.abortable = true →
      exec (.stbJobAbort (go j.val)) s = .next (s.requestAbort j))
    ∧ (∀ (r : RingId) (v : W32), v &&& ~~~ (if r.val < 256 then 0x87FF1F0F#32 else 0x87FF000F#32) = 0 → s.cfgRefused r v = none →
        (v.getLsbD 31 = true → s.ringEnabled r = false → exec (.ringEnable r v) s
          = .next ((s.setReg (ringCfgOff r) v).setRing r Ring.reset))
        ∧ (v.getLsbD 31 = false → s.ringEnabled r = true → Gives (exec (.ringDisable r v) s) (fun t =>
            t.ringEnabled r = false ∧ (t.ring r).unsignalled = 0 ∧ (t.ring r).k = (s.ring r).k
            ∧ ∀ q, q ≠ r → t.ring q = s.ring q ∧ t.ringCfg q = s.ringCfg q)))
    ∧ (s.aspLoadable = true → let a := s.aspSel
        Gives (exec (.aspLoad 1) s) (fun t => (t.space a).enabled = s.aspCfg.getLsbD 31 ∧ (t.space a).genctr = 0
          ∧ (t.space a).function.val = (bitsAt s.aspCfg 16 5).toNat ∧ (t.space a).tableBase = s.aspTable
          ∧ (t.space a).entries = (if s.aspCfg.getLsbD 31 then s.stagedEntries.map RangeEntry.ofBits else [])
          ∧ (∀ b, b ≠ a → t.space b = s.space b) ∧ t.memory.mem = s.memory.mem))
    ∧ (s.aspLoadable = false → Gives (exec (.aspLoad 1) s) (fun t => t.setup.errReason = 4 ∧ { t with setup := s.setup } = s))
    ∧ (∀ (k n : Nat) (f : Frozen), k < 256 → n < 256 → s.talonOf k n = some f →
        (f.dumped = true → s.fencedMaster k n = false →
          exec (.errUnfreeze (go (k + 256 * n))) s = .next (s.unfreeze f.kind n) ∧ (s.unfreeze f.kind n).frozen f.kind n = false)
        ∧ (f.dumped = false ∨ s.fencedMaster k n = true → Gives (exec (.errUnfreeze (go (k + 256 * n))) s) (fun t =>
          t.setup.errReason = 4 ∧ { t with setup := s.setup } = s)))
    ∧ (∀ n, n < 48 → s.integ.retired.getLsbD n = true → Gives (exec (.errRetireClear (go n)) s) (fun t =>
        (∀ m, m < 48 → t.integ.retired.getLsbD m = (s.integ.retired.getLsbD m && decide (m ≠ n)))
        ∧ { t with integ := { t.integ with retired := s.integ.retired } } = s))
    ∧ (∀ k n, k < 256 → n < 256 → s.unitResetRefused k n = none →
        exec (.pwrUnitReset (go (k + 256 * n))) s = .next (s.resetUnit k n)
        ∧ ((s.unit k n).lastTick = none → ((s.resetUnit k n).unit k n).inReset = true
          ∧ ((s.resetUnit k n).unit k n).epoch = (s.unit k n).epoch + 1))
    ∧ (∀ (q : QuadId) (v : BitVec 16), Gives (exec (.pwrL2qWayon q (v.setWidth 32)) s) (fun t =>
        t.quad q = { s.quad q with cleaning := (s.quad q).cleaning ||| ((s.quad q).on &&& ~~~ v) } ∧ t.wayOn q = v
        ∧ ∀ p, p ≠ q → t.quad p = s.quad p))
    ∧ (∀ v : W32, v.toNat < 16 → s.quadOffOk v = true → Gives (exec (.pwrL2qOff v) s) (fun t => ∀ q : QuadId,
        (t.quad q).off = v.getLsbD q.val ∧ (t.quad q).on = (s.quad q).on
        ∧ (t.unit 5 q.val).epoch = (s.unit 5 q.val).epoch + (if v.getLsbD q.val = true ∧ (s.quad q).off = false then 1 else 0)))
    ∧ (∀ (p : PortId) (v : W32), v &&& ~~~ 0xFF3F1F03#32 = 0 → (bitsAt v 8 5).toNat ≤ 16 → v.getLsbD 0 = true →
        v.getLsbD 1 = true → (s.unit ukPort p.val).inReset = false → (s.port p).cable = true → s.card.auxPower = true →
        Gives (exec (.retrain p v) s) (fun t => (t.port p).train = .lock ∧ (t.port p).lstate = 1
          ∧ (t.port p).retrains = satInc (s.port p).retrains ∧ t.evlCtl p = (s.evlCtl p &&& ~~~0xFF3F1F03#32) ||| (v &&& 0xFFFFFFFD)))
    ∧ (∀ p : PortId, (s.port p).carries = true → exec (.evlDrain p 1) s = .next (s.drainPort p)
        ∧ ((s.port p).replay ≠ [] → ((s.drainPort p).port p).lstate = 5 ∧ ((s.drainPort p).port p).draining = true))
    ∧ (∀ (k : Fin 9) (v : W32), (k.val = 8 → v.toNat < 4) → Gives (exec (.hifRingErrClear k v) s) (fun t => ∀ i, i < 288 →
        t.host.ringErr.getLsbD i = (s.host.ringErr.getLsbD i && !(decide (i / 32 = k.val) && v.getLsbD (i % 32)))))

/-- STB_STREAM_LOAD and VF_STREAM_LOAD (R32, R64-R66, R413): for a stream that is disabled, with nothing pending, a valid enabling entry
assigns its job, priority, ring, timing and FUNCTION and starts it IDLE at START_INDEX, one with ENABLE = 0 leaves it disabled, a rejected
one or a failed read keeps the previous entry with REASON STATE; GO = 0 does nothing. A VF loads only its own streams. -/
def Obligations.StreamLoadsTakeTheEntry : Prop :=
  ∀ (s : State) (st : StreamId) (e : Line), s.hostAnswers = true → s.card.device = .ready →
    let x := s.stream st
    let go : W32 := BitVec.ofNat 32 (2 ^ 16 + st.val)
    let read : State := s.emit (.hostRead 0 (BitVec.ofNat 64 (s.streamTableBase + 64 * st.val)) 64)
    let loaded (t : State) : Prop :=
      let y := t.stream st
      y.enabled = true ∧ y.halted = false ∧ y.ringBase = fieldAt e 0 0 64 ∧ y.log2Size = fieldAt e 8 0 8
      ∧ y.job = JobId.ofNat' (fieldAt e 9 0 8).toNat ∧ y.prio = fieldAt e 10 0 3 ∧ y.periodic = flagAt e 10 4
      ∧ y.function.val = (fieldAt e 11 0 5).toNat ∧ y.cring = JobId.ofNat' (fieldAt e 12 0 8).toNat
      ∧ y.period = fieldAt e 16 0 32 ∧ y.phaseTicks = fieldAt e 20 0 32 ∧ y.budget = fieldAt e 24 0 64
      ∧ y.readIdx = fieldAt e 32 0 32 ∧ y.producer = fieldAt e 32 0 32 ∧ y.seqActed = none ∧ y.descs = []
      ∧ y.nextTerminal = fieldAt e 32 0 32 ∧ y.phase = .idle ∧ (∀ o, o ≠ st → t.stream o = s.stream o) ∧ t.out = read.out
    let refused (f n : Nat) (t : State) : Prop := t.stream st = x ∧ t.setup.errReason = 4 ∧ t.setup.errFunction.toNat = f
      ∧ t.setup.errAddr.toNat = n
    x.enabled = false → x.descs = [] → x.notices = [] →
    (flagAt e 10 5 = true → s.entryLoadable e = true →
        Gives (exec (.stbStreamLoad go (.data e)) s) loaded
        ∧ ∀ f : FunctionId, f ≠ 0 → s.frozen .vf f.val = false → (fieldAt e 11 0 5).toNat = f.val →
            Gives (exec (.vfStreamLoad f go (.data e)) s) loaded)
    ∧ (flagAt e 10 5 = true → s.entryLoadable e = false →
        Gives (exec (.stbStreamLoad go (.data e)) s) (refused 0 0x40018))
    ∧ (∀ f : FunctionId, f ≠ 0 → s.frozen .vf f.val = false → (fieldAt e 11 0 5).toNat ≠ f.val →
        Gives (exec (.vfStreamLoad f go (.data e)) s) (refused f.val 4))
    ∧ (flagAt e 10 5 = false → Gives (exec (.stbStreamLoad go (.data e)) s) (fun t => (t.stream st).enabled = false
        ∧ (∀ o, o ≠ st → t.stream o = s.stream o) ∧ t.out = read.out))
    ∧ (∀ k, Gives (exec (.stbStreamLoad go (.error k)) s) (refused 0 0x40018))
    ∧ exec (.stbStreamLoad (BitVec.ofNat 32 st.val) (.data e)) s = .next s

/-! ### Resets, boots, integrity and power -/

/-- UNIT_RESET_DONE, RESET_HOLD_END, STORE_DRAIN_LIMIT, WAY_OFF and WAY_POWER_UP (R140, R318, R442, R445-R447): the end of a unit's reset
keeps its epoch and leaves a cluster cleared with its power kept (a master in Talon keeps its state), a mover with an empty queue, a port with
a cable in training; a held request begins one more reset; 2 µs in, the entries left in a store buffer go and are logged; a cleaned way turns
OFF with its lines gone, a powered one ON. -/
def Obligations.UnitResetsRunTheirCourse : Prop :=
  ∀ s : State,
    (∀ k n : Byte, s.host.b2Held = [] → unitExists k.toNat n.toNat = true → (s.unit k.toNat n.toNat).inReset = true →
      (k = 1 → s.isLive (ClusterId.ofNat' n.toNat) = true) →
      Gives (exec (.unitResetDone k n) s) (fun t =>
        t.unit k.toNat n.toNat = { s.unit k.toNat n.toNat with inReset := false }
        ∧ (k = 1 → let c := ClusterId.ofNat' n.toNat
            (t.cluster c).job = none ∧ (t.cluster c).store = [] ∧ (t.cluster c).storeBuf = [] ∧ (t.cluster c).l1d = []
            ∧ (t.cluster c).powered = (s.cluster c).powered
            ∧ (s.frozen .kestrel c.val = false → (t.cluster c).k = Kestrel.reset)
            ∧ (s.frozen .harrier c.val = false → (t.cluster c).h = Harrier.reset)
            ∧ (s.frozen .hearth c.val = false → (t.cluster c).m = Hearth.reset))
        ∧ (k = 2 → (t.cluster (ClusterId.ofNat' n.toNat)).queue = [])
        ∧ (∀ p : PortId, k = 3 → n.toNat = p.val → (s.port p).cable = true → s.evlEnabled p = true → s.card.auxPower = true →
            (t.port p).train = .lock ∧ (t.port p).lstate = 1)))
    ∧ (∀ k n : Byte, (s.unit k.toNat n.toNat).again = true → (s.unit k.toNat n.toNat).inReset = false →
        Gives (exec (.resetHoldEnd k n) s) (fun t => t.unit k.toNat n.toNat =
          { epoch := (s.unit k.toNat n.toNat).epoch + 1, inReset := true, lastTick := some s.tick, again := false }))
    ∧ (∀ c : ClusterId, (s.unit 1 c.val).inReset = true → (s.cluster c).storeBuf ≠ [] →
        Gives (exec (.storeDrainLimit c) s) (fun t => t.cluster c = { s.cluster c with storeBuf := [] }
          ∧ (∀ d, d ≠ c → t.cluster d = s.cluster d) ∧ t.memory = s.memory ∧ t.integ.logNext = s.integ.logNext + 1))
    ∧ (∀ (q : QuadId) (w : Fin 16), (s.quad q).cleaning.getLsbD w.val = true → Gives (exec (.wayOff q w) s) (fun t =>
        (∀ i, i < 16 → (t.quad q).on.getLsbD i = ((s.quad q).on.getLsbD i && decide (i ≠ w.val))
          ∧ (t.quad q).cleaning.getLsbD i = ((s.quad q).cleaning.getLsbD i && decide (i ≠ w.val)))
        ∧ (∀ l ∈ t.memory.l2, ¬ (lineQuad l.line = q ∧ l.way = w.val)) ∧ t.memory.mem = s.memory.mem
        ∧ ∀ p, p ≠ q → t.quad p = s.quad p))
    ∧ (∀ (q : QuadId) (w : Fin 16), (s.wayOn q).getLsbD w.val = true → (s.quad q).on.getLsbD w.val = false → (s.quad q).off = false →
        Gives (exec (.wayPowerUp q w) s) (fun t =>
          (∀ i, i < 16 → (t.quad q).on.getLsbD i = ((s.quad q).on.getLsbD i || decide (i = w.val)))
          ∧ t.memory.l2 = s.memory.l2 ∧ (t.quad q).cleaning = (s.quad q).cleaning ∧ ∀ p, p ≠ q → t.quad p = s.quad p))

/-- COLD_RESET, WARM_RESET, PERST_DEASSERT, POWER_REMOVAL and SUPPLY_CUTOFF (R21, R22, R30, R350, R419, R420, R431, R441, R448, R449): a boot
with a good image, that of the active slot first, comes up READY with no work and the live map ~retired, or nothing live without auxiliary
power; with no good image it ends in RECOVERY; only a warm reset keeps the log. Without power the fuses, the retirement list and the slots stay. -/
def Obligations.BootsBringTheDeviceUp : Prop :=
  ∀ (b : BootEnv) (s : State),
    let flips := s.host.staged.any (fun x => x.verified && decide (x.component = 1))
    let slot : Bool := if flips then !s.host.activeSlot else s.host.activeSlot
    let img (x : Bool) : FlashImage := if x then b.slot1 else b.slot0
    let used : Bool := if (img slot).ok then slot else !slot
    let trained : BitVec 6 := if b.auxPower then b.stacksTrain else 0
    let watts : Nat := match b.sense0Open, b.sense1Open with
      | false, false => 600 | true, false => 450 | false, true => 300 | true, true => 150
    let base (t : State) : Prop := t.card.boardW.toNat = watts ∧ t.card.fuseLoaded = true ∧ t.card.rootLock = true
      ∧ t.integ.meas = b.measurements ∧ t.host.link = b.link ∧ t.integ.retired = s.integ.retired ∧ t.integ.talon = [] ∧ t.tick = 0 ∧ t.host.staged = []
      ∧ (∀ j, t.job j = none) ∧ (∀ st, t.stream st = Stream.reset) ∧ (∀ r, t.ringEnabled r = false)
      ∧ (∀ a, t.space a = Space.reset) ∧ t.card.sites = s.card.sites
    let up (t : State) : Prop := base t ∧ t.card.device = .ready ∧ t.card.live = (if b.auxPower then ~~~ s.integ.retired else 0)
      ∧ t.memory.stacksTrained = trained ∧ t.memory.slicesLost = (if b.auxPower then ~~~ b.slicesPass else 0)
      ∧ (∀ c : ClusterId, (t.cluster c).powered = t.isLive c) ∧ t.integ.slot = used ∧ t.host.fwVersion = (img used).version
      ∧ t.integ.svn = (img used).svn ∧ t.integ.dumpState = (if trained = 0 then 4 else 0)
      ∧ (∀ i, i < 6 → trained.getLsbD i = true → (∀ k, k < i → trained.getLsbD k = false) →
          t.integ.dumpBase = 2 ^ 33 * (i + 1) - 2 ^ 23 - 2 ^ 28)
    let recovers (t : State) : Prop := base t ∧ t.card.device = .recovery ∧ t.card.live = 0 ∧ t.host.activeSlot = slot
    let off (t : State) : Prop := t.card.device = .off ∧ t.out = s.out ∧ t.card.sites = s.card.sites
      ∧ t.integ.retired = s.integ.retired ∧ t.integ.log = [] ∧ t.host.staged = s.host.staged ∧ t.host.activeSlot = s.host.activeSlot
      ∧ t.host.linkUp = false ∧ t.memory.mem = []
    let quiet := b.auxPower = false ∨ b.slicesPass = BitVec.allOnes 64
    ((img slot).ok = true ∨ (img (!slot)).ok = true →
      Gives (exec (.coldReset b) s) (fun t => up t ∧ (quiet → t.integ.log = [] ∧ t.integ.logNext = 0))
      ∧ (s.card.device ≠ .off → Gives (exec (.warmReset b) s) (fun t => up t
          ∧ (quiet → t.integ.log = s.integ.log ∧ t.integ.logNext = s.integ.logNext))))
    ∧ ((img slot).ok = false → (img (!slot)).ok = false → Gives (exec (.coldReset b) s) recovers
        ∧ (s.card.device ≠ .off → Gives (exec (.warmReset b) s) recovers))
    ∧ (s.card.device = .off → exec (.warmReset b) s = .next s)
    ∧ (s.card.device ≠ .off → s.card.device ≠ .booting →
        exec .perstDeassert s = .next { s with host := { s.host with perst := false, linkUp := true } })
    ∧ Gives (exec .powerRemoval s) off ∧ Gives (exec .supplyCutoff s) off

/-- HOT_RESET, DL_DOWN, PF_FLR, D3HOT_ENTRY, VF_FLR and VF_ENABLE_CLEAR (R305, R421, R422, R459): the first four end all work without a record,
disable every stream, ring and space, reset MSI-X and free the dumped masters of Talon, the others once they are dumped; a VF's reset
does so for its own streams, rings and spaces. In FAILED only configuration is reset. -/
def Obligations.HostResetsEndWork : Prop :=
  ∀ s : State, s.hostAnswers = true →
    (s.ready = true → ∀ i ∈ [Instr.hotReset, .dlDown, .pfFlr, .d3hotEntry], Gives (exec i s) (fun t =>
      (∀ j, t.job j = none) ∧ (∀ st, t.stream st = Stream.reset) ∧ (∀ r, t.ringEnabled r = false)
      ∧ (∀ a, (t.space a).enabled = false) ∧ (∀ c, (t.cluster c).job = none) ∧ t.host.msix = [] ∧ t.host.msixEnable = 0
      ∧ (∀ g ∈ t.integ.talon, g.dumped = false ∧ g.release = true) ∧ t.out = s.out
      ∧ ((∀ c : ClusterId, (s.kestrel c).reports = []) → t.integ.log = s.integ.log)))
    ∧ (s.ready = false → ∀ i ∈ [Instr.hotReset, .dlDown, .pfFlr, .d3hotEntry],
        exec i s = .next { s with host := { s.host with msix := [], msixEnable := 0, msixMask := 0 } })
    ∧ (s.ready = true → ∀ f : FunctionId, f ≠ 0 →
        let mine (t : State) (g : FunctionId) : Prop :=
          (∀ st, (s.stream st).enabled = true → (s.stream st).function = g → t.stream st = Stream.reset)
          ∧ (∀ r : RingId, r.val < 256 → s.ringFunction r = g.val → t.ringEnabled r = false)
          ∧ (∀ a, (s.space a).enabled = true → (s.space a).function = g → (t.space a).enabled = false)
          ∧ (∀ k, k < 2048 → t.msix g.val k = Msix.reset) ∧ t.host.msixEnable.getLsbD g.val = false
        Gives (exec (.vfFlr f) s) (fun t => mine t f
          ∧ (∀ (r : RingId), 256 ≤ r.val → t.ringEnabled r = s.ringEnabled r))
        ∧ Gives (exec .vfEnableClear s) (fun t => ∀ g : FunctionId, g ≠ 0 → mine t g))

/-- TALON_DUMP_DONE, CLUSTER_RETIRE, CORRECTED_ECC_LIMIT, SLICE_LOST, STACK_LOST, CONTROLLER_HANG and XACT_TIMEOUT (R30, R300, R303, R305,
R334, R346, R347, R355, R446): DUMPED is set; a retired cluster leaves the live map, logged; a suspect event is counted; a lost slice's lines
go; a lost stack leaves memory and its controller's power, a second one is device-fatal; a hung controller is reset; abandoned requests go and their
master is held. -/
def Obligations.LossesAreSettled : Prop :=
  ∀ s : State, s.ready = true →
    (∀ (m : MasterKind) (n : Byte) (f : Frozen), s.integ.talon = [f] → f.kind = m → f.number = n → f.dumped = false →
      (f.release = false → Gives (exec (.talonDumpDone m n) s) (fun t => t.integ.talon = [{ f with dumped := true }]))
      ∧ (f.release = true → Gives (exec (.talonDumpDone m n) s) (fun t => t.integ.talon = [])))
    ∧ (∀ c : ClusterId, s.integ.retiring = [c] → (s.cluster c).job = none → (s.cluster c).sound = true →
        (s.kestrel c).reports = [] → Gives (exec (.clusterRetire c) s) (fun t =>
        t.integ.retired.getLsbD c.val = true ∧ t.isLive c = false ∧ t.integ.retiring = []
        ∧ (∀ d : ClusterId, d ≠ c → t.isLive d = s.isLive d ∧ t.integ.retired.getLsbD d.val = s.integ.retired.getLsbD d.val)
        ∧ (s.isLive c = true → (t.cluster c).powered = false
          ∧ (s.clusterHeld c = false → t.frozen .kestrel c.val = true))
        ∧ (s.isLive c = false → t.cluster c = s.cluster c ∧ t.integ.logNext = s.integ.logNext + 1)))
    ∧ (∀ c : ClusterId, Gives (exec (.correctedEccLimit c) s) (fun t =>
        t.integ.suspects = Table.set s.integ.suspects c.val (s.tick :: Table.get [] s.integ.suspects c.val)
        ∧ (c ∈ t.integ.retiring ↔ c ∈ s.integ.retiring ∨ (s.isLive c = true ∧ t.suspectCount c = s.retireThreshold))
        ∧ { t with integ := s.integ } = s))
    ∧ (∀ (k : Fin 64) (tags : Bool) (why : Byte), s.memory.slicesLost.getLsbD k.val = false →
        Gives (exec (.sliceLost k tags why) s) (fun t =>
          (∀ i, i < 64 → t.memory.slicesLost.getLsbD i = (s.memory.slicesLost.getLsbD i || decide (i = k.val)))
          ∧ (tags = true → (∀ l ∈ s.memory.l2, l.dirty = false) → t.memory.mem = s.memory.mem
              ∧ t.memory.l2 = s.memory.l2.filter (fun l => decide (s.servedBy (sliceOf l.line) ≠ k.val))
              ∧ t.sched.jobs = s.sched.jobs ∧ t.integ.logNext = s.integ.logNext + 1)))
    ∧ (∀ (i : StackId) (why : Byte), s.memory.stacksTrained.getLsbD i.val = true → s.memory.stacksLost.getLsbD i.val = false →
        Gives (exec (.stackLost i why) s) (fun t =>
          t.memory.stacksLost = s.memory.stacksLost ||| (1#6 <<< i.val)
          ∧ (∀ n, n < 6 → t.card.memOn.getLsbD n = (s.card.memOn.getLsbD n && decide (n ≠ i.val)))
          ∧ (t.unit 4 i.val).epoch = (s.unit 4 i.val).epoch + 1
          ∧ (s.memory.stacksLost = 0 → t.ready = true ∧ t.integ.logNext = s.integ.logNext + 1
              ∧ (s.integ.dumpBase ≠ 0 → stackOf s.integ.dumpBase = i.val → t.integ.dumpState = 4))
          ∧ (s.memory.stacksLost ≠ 0 → t.integ.reason = 3 ∧ t.integ.tickFatal = s.tick ∧ t.ready = false)))
    ∧ (∀ i : StackId, s.card.memOn.getLsbD i.val = true → (s.unit 4 i.val).inReset = false → (s.unit 4 i.val).lastTick = none →
        Gives (exec (.controllerHang i) s) (fun t => t.unit 4 i.val =
          { epoch := (s.unit 4 i.val).epoch + 1, inReset := true, lastTick := some s.tick, again := false }))
    ∧ (∀ (c : ClusterId) (m : MasterKind) (w : XactWait) (r : PeerReq), s.fabric.requests = [r] → r.answer = none →
        r.cluster = c → r.mkind = m → s.waitsOn w r = true → s.frozen m c.val = false →
        Gives (exec (.xactTimeout c m w) s) (fun t => t.fabric.requests = [] ∧ t.frozen m c.val = true))

/-- ROOT_PLL_UNLOCK, STEWARD_FAULT, STEWARD_WATCHDOG, NETWORK_UNCORRECTABLE, DUMP_SECTION_TIMEOUT and DUMP_TIMEOUT (R451-R455, R461): the first
condition stops the device with its REASON and TICK_FATAL, holds every master and starts the dump; a further one is logged, a Steward's own moving the
dump to the boot ROM and then forcing FAILED; a section that timed out takes FAILED_WRITE; the time limit ends the dump in FAILED. Requests of other devices are answered UNREACHABLE meanwhile. -/
def Obligations.DeviceFatalConditionsDump : Prop :=
  ∀ s : State,
    let fatal (code : Nat) (detail : W32 → Prop) (t : State) : Prop :=
      t.integ.reason = BitVec.ofNat 3 code ∧ t.integ.tickFatal = s.tick ∧ detail t.integ.dumpDetail ∧ t.ready = false
      ∧ t.integ.dumpState = (if s.hasDumpArea then 1 else 4) ∧ t.integ.dumpNext = 0 ∧ t.integ.logNext = s.integ.logNext + 1
      ∧ t.integ.romDump = decide (code = 1)
      ∧ (∀ c : ClusterId, t.frozen .kestrel c.val = true ∧ t.frozen .harrier c.val = true ∧ t.frozen .mover c.val = true
          ∧ t.frozen .hearth c.val = true)
      ∧ (∀ v, 1 ≤ v → v < 32 → t.frozen .vf v = true) ∧ (∀ p, p < 8 → t.frozen .evoirIn p = true)
      ∧ (s.hasDumpArea = true → Mem.wf s.memory.mem = true → t.readMem s.integ.dumpBase 8 = [0x4F, 0x53, 0x5A, 0x44, 0x55, 0x4D, 0x50, 0x31])
    (s.card.device = .ready ∨ s.card.device = .recovery → s.integ.reason = 0 →
      (s.card.rootLock = true → Gives (exec .rootPllUnlock s) (fun t => fatal 2 (fun d => d = 0xFF) t ∧ t.card.rootLock = false))
      ∧ (∀ cause, Gives (exec (.stewardFault cause) s) (fatal 1 (fun d => d = cause)))
      ∧ Gives (exec .stewardWatchdog s) (fatal 1 (fun _ => True))
      ∧ (∀ stop : Byte, Gives (exec (.networkUncorrectable stop) s) (fatal 2 (fun d => d = stop.setWidth 32))))
    ∧ (s.dumping = true →
        (∀ stop : Byte, Gives (exec (.networkUncorrectable stop) s) (fun t => t.integ.logNext = s.integ.logNext + 1
          ∧ { t with integ := { t.integ with log := s.integ.log, logBad := s.integ.logBad, logNext := s.integ.logNext } } = s))
        ∧ (∀ cause, s.integ.romDump = false → Gives (exec (.stewardFault cause) s) (fun t => t.integ.romDump = true
            ∧ t.integ.dumpNext = 0 ∧ t.integ.reason = s.integ.reason ∧ t.card = s.card))
        ∧ (∀ cause, s.integ.romDump = true → Gives (exec (.stewardFault cause) s) (fun t => t.card.device = .failed))
        ∧ (∀ n, s.hasDumpArea = true → s.nextSection s.integ.dumpNext = some n → Gives (exec .dumpSectionTimeout s) (fun t =>
            (Table.get Section.empty t.integ.sections n).status = 3 ∧ t.integ.dumpNext = n + 1
            ∧ (∀ m, m ≠ n → Table.get Section.empty t.integ.sections m = Table.get Section.empty s.integ.sections m)))
        ∧ Gives (exec .dumpTimeout s) (fun t => t.card.device = .failed ∧ (∃ l, t.out = s.out ++ l ∧ Outbound.aerUncorrectableInternal ∈ l)
            ∧ (s.integ.romDump = false → t.integ.tickDone = s.tick
                ∧ t.integ.dumpState = (if s.integ.dumpState = 4 then 4 else if s.nextSection 0 = none then 2 else 3))
            ∧ ∀ p : PortId, (t.port p).powered = false)
        ∧ (∀ (p : PortId) (pkt : Packet), s.card.device = .ready → (s.port p).carries = true → pkt.dst = s.fabId →
            ∀ i ∈ [(1, 2, Instr.peerRead p pkt), (3, 4, .peerWrite p pkt), (5, 6, .peerAtomic p pkt), (0x10, 0x13, .ckptOpen p pkt)
                   , (0x14, 0x15, .ckptRead p pkt)],
              pkt.kind.toNat = i.1 → Gives (exec i.2.2 s) (SendsOn p
                { pkt with
                  dst := pkt.src, src := s.fabId, kind := BitVec.ofNat 8 i.2.1, op := 3
                  sealValid := false, crc := 0, len := 0, data := [] } s)))

/-- POWER_LOOP, THERMAL_SAMPLE, STACK_TEMPERATURE, CLUSTER_IDLE_POWER_DOWN and SELF_REFRESH (R437-R442): above the cap the level rises by
one for each 8 W begun, at most to 15, more than 16 W below it falls by one; the floor is 4, 8 or 15 from 95, 100 or 105 °C and falls 3 °C
lower, the stall holds from 110 down to 105 °C; a stack's refresh doubles from 95 °C and its requests slow from 105 °C; an idle cluster loses its
state and its epoch increments. -/
def Obligations.PowerAndTemperatureLevels : Prop :=
  ∀ s : State, s.ready = true →
    (∀ mw : W32, let l := s.card.level.toNat
      let cap := 1000 * s.capW
      Gives (exec (.powerLoop mw) s) (fun t => t.card.mw = mw
        ∧ (cap < mw.toNat → ∀ k, 8000 * k < mw.toNat - cap → mw.toNat - cap ≤ 8000 * (k + 1) →
            t.card.level.toNat = if l + k + 1 ≤ 15 then l + k + 1 else 15)
        ∧ (mw.toNat + 16000 < cap → t.card.level.toNat = l - 1)
        ∧ (mw.toNat ≤ cap → cap ≤ mw.toNat + 16000 → t.card.level = s.card.level)
        ∧ { t with card := { t.card with mw := s.card.mw, level := s.card.level } } = s))
    ∧ (∀ x : BitVec 16, let T := x.toInt
        let old := s.card.floor.toNat
        Gives (exec (.thermalSample x) s) (fun t => t.card.hotspot = x
          ∧ (105 * 256 ≤ T → t.card.floor = 15) ∧ (T < 92 * 256 → t.card.floor = 0)
          ∧ (100 * 256 ≤ T → T < 102 * 256 → t.card.floor = 8) ∧ (95 * 256 ≤ T → T < 97 * 256 → t.card.floor = 4)
          ∧ (102 * 256 ≤ T → T < 105 * 256 → t.card.floor = if old = 15 then 15 else 8)
          ∧ (97 * 256 ≤ T → T < 100 * 256 → t.card.floor = if 8 ≤ old then 8 else 4)
          ∧ (92 * 256 ≤ T → T < 95 * 256 → t.card.floor = if 4 ≤ old then 4 else 0)
          ∧ t.card.stall = (decide (110 * 256 ≤ T) || (s.card.stall && decide (105 * 256 ≤ T)))
          ∧ { t with card := { t.card with hotspot := s.card.hotspot, floor := s.card.floor, stall := s.card.stall } } = s))
    ∧ (∀ (i : StackId) (x : BitVec 16), s.card.memOn.getLsbD i.val = true → let T := x.toInt
        Gives (exec (.stackTemperature i x) s) (fun t =>
          (t.card.refresh2.getLsbD i.val = (decide (95 * 256 ≤ T) || (s.card.refresh2.getLsbD i.val && decide (92 * 256 < T))))
          ∧ (t.card.slowReq.getLsbD i.val = (decide (105 * 256 ≤ T) || (s.card.slowReq.getLsbD i.val && decide (102 * 256 < T))))
          ∧ (∀ j, j < 6 → j ≠ i.val → t.card.refresh2.getLsbD j = s.card.refresh2.getLsbD j
              ∧ t.card.slowReq.getLsbD j = s.card.slowReq.getLsbD j)
          ∧ t.card.stackTemp = Table.set s.card.stackTemp i.val x))
    ∧ (∀ c : ClusterId, s.reg 0x20010 ≠ 0 → s.isFree c = true → (s.cluster c).powered = true →
        Gives (exec (.clusterIdlePowerDown c) s) (fun t => t.cluster c = Cluster.reset
          ∧ (t.unit 1 c.val).epoch = (s.unit 1 c.val).epoch + 1))
    ∧ (∀ i : StackId, s.card.memOn.getLsbD i.val = true → s.reg 0x20014 ≠ 0 → exec (.selfRefresh i) s
        = .next { s with card := { s.card with selfRefresh := s.card.selfRefresh ||| (1#6 <<< i.val) } })

/-! ### The Evoir link -/

/-- CABLE_PRESENT, CABLE_REMOVAL, LOCK, PREAMBLE_DETECT, CORRELATOR_NOISE_FIRE, CORRELATOR_TIMEOUT, PROBE, EXCHANGE, VERIFY, HELLO and
LANE_PLL_UNLOCK (R360-R363, R373-R375, R379, R380, R434, R436): a port trains LOCK, DETECT, PROBE, EXCHANGE, VERIFY; LOCK opens a burst
with PA and PB on every lane, every generator at its seed and superframe 0; PROBE sends 15 superframes and EXCHANGE as many as it took; the
tables come from the ratios of the estimated noise; a lane of 960 bits or more is up and one makes the port Active; the third failure in a row loses it; HELLO makes the neighbour
known, a wrong one the port MISWIRED. -/
def Obligations.PortsTrainAndBecomeActive : Prop :=
  ∀ (s : State) (p : PortId), s.ready = true →
    let x := s.port p
    let trains (t : State) : Prop := (t.port p).train = .lock ∧ (t.port p).lstate = 1
    let only (y : Port) (t : State) : Prop := t.port p = y ∧ { t with fabric := { t.fabric with ports := s.fabric.ports } } = s
      ∧ ∀ q, q ≠ p → t.port q = s.port q
    let fails (t : State) : Prop := (t.port p).fails = (if x.fails < 2 then x.fails + 1 else 0)
      ∧ (x.fails < 2 → (t.port p).train = .lock) ∧ (2 ≤ x.fails → (t.port p).lstate = 6 ∧ (t.port p).train = .none)
    let may := s.evlEnabled p = true ∧ s.card.auxPower = true
    (x.cable = false → Gives (exec (.cablePresent p) s) (fun t => (t.port p).cable = true ∧ (t.port p).fails = 0
        ∧ (x.lstate = 0 → may → trains t) ∧ (x.lstate ≠ 0 → (t.port p).train = x.train)))
    ∧ (x.cable = true → Gives (exec (.cableRemoval p) s) (fun t => (t.port p).cable = false ∧ (t.port p).lstate = 0
        ∧ (t.port p).train = .none ∧ (x.replay = [] → x.waiting = [] → (t.port p).powered = false ∧ (t.port p).lanes = [])
        ∧ ∀ q, q ≠ p → t.port q = s.port q))
    ∧ (x.train = .lock → Gives (exec (.lock p) s) (fun t => (t.port p).train = .detect
        ∧ (t.port p).superframe = 0 ∧ (t.port p).txFrame = 0 ∧ (t.port p).words = 0 ∧ (t.port p).group = []
        ∧ (∀ l, l < 4 → (t.port p).lane l = { x.lane l with pilotGen := 0x7FF, idleGen := 0x7FFF, coded := [], sent := 0 })
        ∧ t.out = s.out ++ (List.range 4).map (fun l => .symbols p l 0 [preambleSymbol 0x5A5, preambleSymbol 0x2C3])
        ∧ (∀ q, q ≠ p → t.port q = s.port q)))
    ∧ (∀ corr, x.agcFrozen = false → s.evlThresh p ≤ corr →
        (x.train = .detect → Gives (exec (.preambleDetect p corr) s) (only { x with
            agcFrozen := true, equalised := true, train := .probe, superframe := 0 }))
        ∧ (x.train ≠ .detect → x.lstate = 3 → Gives (exec (.preambleDetect p corr) s) (fun t => (t.port p).lstate = 2
            ∧ (t.port p).agcFrozen = true ∧ (t.port p).superframe = 0))
        ∧ (x.train ≠ .detect → x.lstate = 4 → Gives (exec (.preambleDetect p corr) s) (fun t => trains t ∧ (t.port p).roostExit = true)))
    ∧ (∀ corr, corr < s.evlThresh p → exec (.preambleDetect p corr) s = .next s
        ∧ (x.agcFrozen = true → Gives (exec (.correlatorNoiseFire p corr) s)
            (only { x with agcFrozen := false, equalised := false, train := if x.train = .probe then .detect else x.train })))
    ∧ (x.train = .detect → Gives (exec (.correlatorTimeout p) s) fails)
    ∧ (∀ ms : List LaneMeasure, x.train = .probe → Gives (exec (.probe p ms) s) (fun t => (t.port p).train = .exchange
        ∧ t.out.length = s.out.length + 4 * 15 + 8 ∧ (t.port p).superframe = x.superframe + 15 ∧ (t.port p).txFrame = x.txFrame + 15
        ∧ ∀ l k, l < 4 → x.roostExit = false → k < 960 →
          nthD ((t.port p).lane l).rx k 0
            = BitVec.ofNat 4 (largestLoad (snrOf (((x.lane l).sees (nthD ms l [])).noise k) - s.evlMargin p - 100))))
    ∧ (∀ peer : Exchanged, x.train = .exchange → Gives (exec (.exchange p peer) s) (fun t => (t.port p).train = .verify
        ∧ (∀ l, l < 4 → ((t.port p).lane l).tx = nthD peer.tables l [] ∧ ((t.port p).lane l).rx = (x.lane l).rx)
        ∧ ∃ y, y.length = 4 * peer.frames
          ∧ t.out = s.out ++ y ++ [.flit p x.expected ⟨x.nextSeq, .resync x.expected⟩, .nullFlits p]))
    ∧ (∀ e, x.train = .verify → x.draining = false → (∀ q, (s.port q).update = false) →
        let up := (List.range 4).any (fun l => decide (960 ≤ tableBits (x.lane l).rx))
        (s.deadDimension p = true → Gives (exec (.verify p e) s) (fun t => (t.port p).lstate = 7))
        ∧ (s.deadDimension p = false → up = true → Gives (exec (.verify p e) s) (fun t => (t.port p).lstate = 2
            ∧ (t.port p).train = .none ∧ (t.port p).fails = 0
            ∧ ∀ l, l < 4 → ((t.port p).lane l).up = decide (960 ≤ tableBits (x.lane l).rx)))
        ∧ (s.deadDimension p = false → up = false → Gives (exec (.verify p e) s) fails))
    ∧ ((x.carries = true ∨ x.train ≠ .none) → x.cable = true → may → Gives (exec (.lanePllUnlock p) s) (fun t => trains t
        ∧ (t.port p).retrains = satInc x.retrains))
    ∧ (∀ (peer : BitVec 12) (r : BitVec 4), s.receives p = true → Gives (exec (.hello p peer r) s) (fun t =>
        (t.port p).neigh = peer ∧ (t.port p).neighValid = true
        ∧ (∀ id, s.impliedNeighbour p = some id → s.torusPort p = none →
            (t.port p).lstate = if id = peer then x.lstate else 7)))

/-- NAK, RESYNC, REPLAY_TIMEOUT, HOLD_EXPIRY and CODEWORD_DECODE (R369-R372): the SEQ acknowledges what lies before it, the rest is sent again in
order, and after eight replays without progress the port retrains; a gap that stays open is answered with one NAK of the expected SEQ; a codeword with a nonzero
syndrome counts and is four bad flits, the flit of the expected SEQ is delivered. -/
def Obligations.FlitsAreAcknowledgedAndReplayed : Prop :=
  ∀ (s : State) (p : PortId), s.receives p = true →
    let x := s.port p
    let again (n : Nat) (left : List Flit) (o : Result) : Prop :=
      (left = [] → Gives o (fun t => (t.port p).replay = [] ∧ (t.port p).replays = x.replays ∧ t.out = s.out))
      ∧ (left ≠ [] → n < 8 → Gives o (fun t =>
          { t.port p with group := x.group, lanes := x.lanes, words := x.words }
            = { x with replay := left, noProgress := n + 1, replays := satInc x.replays }
          ∧ t.out = s.out ++ left.map (fun f => .flit p x.expected f) ∧ ∀ q, q ≠ p → t.port q = s.port q))
      ∧ (left ≠ [] → 8 ≤ n → x.cable = true → s.evlEnabled p = true → s.card.auxPower = true → Gives o (fun t =>
          (t.port p).train = .lock ∧ (t.port p).lstate = 1 ∧ (t.port p).replay = left ∧ (t.port p).retrains = satInc x.retrains))
    (∀ seq : BitVec 12, x.waiting = [] → x.draining = false → x.sleep = .none →
        let left := x.replay.filter (fun f => decide (¬ (1 ≤ (seq - f.seq).toNat ∧ (seq - f.seq).toNat ≤ 512)))
        let n := if left.length < x.replay.length then 0 else x.noProgress
        again n left (exec (.nak p seq) s) ∧ again n left (exec (.resync p seq) s))
    ∧ (x.lstate = 2 → again x.noProgress x.replay (exec (.replayTimeout p) s))
    ∧ (x.early ≠ [] → Gives (exec (.holdExpiry p) s) (fun t => (t.port p).early = [] ∧ (t.port p).nakSent = true
        ∧ (x.nakSent = false → x.waiting = [] → x.canSend = true →
            t.out = s.out ++ [.flit p x.expected ⟨x.nextSeq, .nak x.expected⟩])))
    ∧ (∀ (at_ : WordPlace) (w : BitVec 9216),
        let bytes := scramble ((List.range 1024).map (fun k => bitsAt w (8 * k) 8)) (scramblerAt at_.pos)
        let flit (k : Nat) : List Byte := (bytes.drop (256 * k)).take 256
        (codewordFails w = true → Gives (exec (.codewordDecode p at_ w) s) (fun t => (t.port p).cwFail = satInc x.cwFail
          ∧ (∀ l, l < 4 → ((t.port p).lane l).cwFails = (x.lane l).cwFails + (if l = at_.lane.val then 1 else 0))
          ∧ (t.port p).nakSent = true ∧ (t.port p).early = [] ∧ (t.port p).expected = x.expected))
        ∧ (∀ k, codewordFails w = false → x.replay = [] → x.early = [] → flitBody (flit 0) = some (.data k) → flitSeq (flit 0) = x.expected →
            (∀ i, 1 ≤ i → i < 4 → flitBody (flit i) = some .null) → Gives (exec (.codewordDecode p at_ w) s) (fun t =>
              t.port p = { x with expected := x.expected + 1, nakSent := false }
              ∧ t.out = s.out ++ [.deliver p ⟨x.expected, .data k⟩])))

/-- SUPERFRAME_END, LOAD_PROPOSE and LOAD_ACCEPT (R359, R361, R362, R364, R365): 256 symbols of each lane go out and the superframe counts; a lane
takes the bank that symbol 0 flags, its noise estimate follows what was seen, and its transmit bank changes at the superframe agreed; a lane whose
computation is due (LOAD_INTERVAL superframes, a pilot group's error up by 3 dB or more, or four failed codewords) proposes a table that differs for
three superframes later; a proposal is accepted for its superframe, or for two after the current one when that has passed, unless a swap is
pending. -/
def Obligations.TablesAreSwapped : Prop :=
  ∀ (s : State) (p : PortId), s.receives p = true →
    let x := s.port p
    let flagged (a : Lane) (m : LaneMeasure) : Bool :=
      match m.head? with
      | some y => pilotFlag (bitsAt y.pilots 8 8) a.rxBank
      | none => a.rxBank
    (∀ ms : List LaneMeasure, x.lstate = 2 → ms.length = 4 →
      (∃ l m, ms[l]? = some m ∧ 0 < tableBits (if flagged (x.lane l) m then (x.lane l).rxB else (x.lane l).rxA)) → Gives (exec (.superframeEnd p ms) s) (fun t =>
      let c := x.superframe + 1
      (t.port p).superframe = c ∧ (t.port p).txFrame = x.txFrame + 1
      ∧ (∀ l, l < 4 → ∃ y, y.length = 256 ∧ Outbound.symbols p l (256 * x.txFrame.toNat) y ∈ t.out)
      ∧ ∀ (l : Nat) (m : LaneMeasure), ms[l]? = some m →
        let a := x.lane l
        let b := (t.port p).lane l
        let bank := flagged a m
        let old := if bank then a.rxB else a.rxA
        let seen := a.sees m
        let pending := if bank = a.rxBank then a.rxSwap else none
        let used := if bank ≠ a.rxBank ∧ a.rxSwap.isSome = true then a.pilotNext else a.pilotUsed
        let due := s.loadInterval p ≤ a.sinceLoad + 1 ∨ (∃ g, g < 16 ∧ rose (nthD seen.pilotErr g 0) (nthD used g 0) = true)
          ∨ 4 ≤ a.cwFails
        let new := newTable (s.evlMargin p) seen.snr old
        b.rxBank = bank ∧ b.errors = seen.errors ∧ b.pilotErr = seen.pilotErr ∧ b.cwFails = 0 ∧ b.rx = old
        ∧ b.up = decide (960 ≤ tableBits old)
        ∧ (∀ w, a.txSwap = some w → (w.at_ = bitsAt (x.txFrame + 1) 0 16 → b.txBank = !a.txBank ∧ b.txSwap = none)
            ∧ (w.at_ ≠ bitsAt (x.txFrame + 1) 0 16 → b.txBank = a.txBank ∧ b.txSwap = some w))
        ∧ (a.txSwap = none → b.txBank = a.txBank ∧ b.txSwap = none)
        ∧ (¬ due → b.sinceLoad = a.sinceLoad + 1 ∧ b.rxSwap = pending ∧ b.rxA = a.rxA ∧ b.rxB = a.rxB)
        ∧ (due → b.sinceLoad = 0)
        ∧ (due → pending = none → new ≠ old → b.rxSwap = some ⟨a.nextId, bitsAt (c + 3) 0 16⟩
            ∧ (if bank then b.rxA else b.rxB) = new)))
    ∧ (∀ (l : Fin 4) (id : Byte) (sf : BitVec 16) (table : List (BitVec 4)),
        let a := x.lane l.val
        let now : BitVec 16 := bitsAt x.txFrame 0 16
        let at_ : BitVec 16 := if sf - 1 ≠ now ∧ ((sf - 1) - now).toNat ≤ 0x8000 then sf else now + 2
        (a.txSwap ≠ none → exec (.loadPropose p l id sf table) s = .next s)
        ∧ (a.txSwap = none → Gives (exec (.loadPropose p l id sf table) s) (fun t =>
            ((t.port p).lane l.val).txSwap = some ⟨id, at_⟩ ∧ ((t.port p).lane l.val).tx = a.tx
            ∧ (if a.txBank then ((t.port p).lane l.val).txA else ((t.port p).lane l.val).txB) = table
            ∧ (x.waiting = [] → x.canSend = true → t.out = s.out
                ++ [.flit p x.expected ⟨x.nextSeq, .loadAccept (BitVec.ofNat 8 l.val) id at_⟩])))
        ∧ (∀ w, a.rxSwap = some w → w.id = id → Gives (exec (.loadAccept p l id sf) s) (fun t =>
            ((t.port p).lane l.val).rxSwap = some ⟨id, sf⟩ ∧ t.out = s.out))
        ∧ (∀ w, a.rxSwap = some w → w.id ≠ id → exec (.loadAccept p l id sf) s = .next s)
        ∧ (a.rxSwap = none → exec (.loadAccept p l id sf) s = .next s))

/-- PERCH_IDLE, ROOST_IDLE, SLEEP_REQ, SLEEP_ACK, SLEEP_CONFIRM, SLEEP_ABORT, WAKE_REQUEST and STOOP (R391-R394): an idle port asks, a quiet
peer agrees with ACK and a busy one answers ABORT, of two requests the lower fabric ID's stands; CONFIRM ends the agreement, and the end that
acknowledged sleeps, its correlator free for the next burst; a wake request before that abandons it, later it sends ABORT or wakes the port after the Stoop dwell. -/
def Obligations.PortsAgreeToSleep : Prop :=
  ∀ (s : State) (p : PortId), s.ready = true →
    let x := s.port p
    let quiet := x.replay = [] ∧ x.waiting = [] ∧ x.early = [] ∧ x.draining = false
    let pkt (kind : Nat) (roost : Bool) : Outbound :=
      .flit p x.expected ⟨x.nextSeq, .data (s.ownPacket kind x.neigh [BitVec.ofNat 8 roost.toNat])⟩
    let sends (kind : Nat) (roost : Bool) (q : Port → Prop) (t : State) : Prop := t.out = s.out ++ [pkt kind roost] ∧ q (t.port p)
    let sleeps (roost : Bool) (t : State) : Prop := (t.port p).lstate = if roost then 4 else 3
    let awake (t : State) : Prop := (t.port p).sleep = .none ∧ (t.port p).wake = false ∧ (t.port p).lstate = x.lstate
    (x.lstate = 2 → s.perchTicks p ≠ 0 → x.sleep = .none → quiet →
        Gives (exec (.perchIdle p) s) (sends 0xC false (fun y => y.sleep = .requested ∧ y.sleepRoost = false ∧ y.lstate = 2)))
    ∧ (x.lstate = 3 → s.roostTicks p ≠ 0 → x.sleep = .none → quiet → s.parentPort ≠ some p →
        Gives (exec (.roostIdle p) s) (fun t => (t.port p).lstate = 2 ∧ (t.port p).sleep = .requested ∧ (t.port p).sleepRoost = true
          ∧ pkt 0xC true ∈ t.out))
    ∧ (∀ r, s.receives p = true → x.sleep = .requested → s.fabId < x.neigh → exec (.sleepReq p r) s = .next s)
    ∧ (∀ r, x.lstate = 2 → quiet → (x.sleep = .none ∨ (x.sleep = .requested ∧ ¬ s.fabId < x.neigh)) →
        Gives (exec (.sleepReq p r) s) (sends 0xD r (fun y => y.sleep = .acked ∧ y.sleepRoost = r)))
    ∧ (∀ r, x.lstate = 2 → x.sleep = .none → x.waiting = [] → x.canSend = true → x.isQuiet = false →
        Gives (exec (.sleepReq p r) s) (sends 0xF r (fun y => y.sleep = .none)))
    ∧ (∀ r, x.lstate = 2 → x.sleep = .requested → quiet → x.wake = false →
        Gives (exec (.sleepAck p r) s) (sends 0xE x.sleepRoost (fun y => y.sleep = .confirmed)))
    ∧ (∀ r, s.receives p = true → x.sleep = .requested → x.wake = true → Gives (exec (.sleepAck p r) s) awake)
    ∧ (s.receives p = true → x.sleep = .acked → Gives (exec (.sleepConfirm p) s) (fun t => sleeps x.sleepRoost t
        ∧ (x.lstate = 2 → (t.port p).agcFrozen = false)
        ∧ (t.port p).sleep = if x.wake = true ∨ x.waiting ≠ [] then .stoop else .none))
    ∧ (s.receives p = true → x.sleep = .aborted → Gives (exec (.sleepConfirm p) s) awake)
    ∧ (s.receives p = true → x.sleep = .requested → Gives (exec (.sleepAbort p) s) awake)
    ∧ (s.receives p = true → x.sleep = .none → x.lstate = 3 → Gives (exec (.wakeRequest p) s) (fun t => (t.port p).lstate = 2))
    ∧ (s.receives p = true → x.sleep = .none → x.lstate = 4 → Gives (exec (.wakeRequest p) s) (fun t => (t.port p).lstate = 1
        ∧ (t.port p).train = .lock ∧ (t.port p).roostExit = true))
    ∧ (s.receives p = true → x.sleep = .requested → Gives (exec (.wakeRequest p) s) awake)
    ∧ (x.lstate = 2 → x.sleep = .acked → quiet → Gives (exec (.wakeRequest p) s) (sends 0xF x.sleepRoost (fun y => y.sleep = .aborted)))
    ∧ (s.receives p = true → (x.sleep = .confirmed ∨ x.sleep = .stoop) → Gives (exec (.wakeRequest p) s) (fun t => (t.port p).wake = true))
    ∧ (s.receives p = true → x.sleep = .stoop → (x.lstate = 3 → Gives (exec (.stoop p) s) (fun t => (t.port p).lstate = 2))
        ∧ (x.lstate = 4 → Gives (exec (.stoop p) s) (fun t => (t.port p).lstate = 1 ∧ (t.port p).train = .lock)))

/-! ### The Evoir fabric -/

/-- FORWARD (R382, R383, R395, R396): a packet of a known kind for another device leaves on the port and with the VCB of the next hop; with no
live path another device's request is answered UNREACHABLE; an unknown kind is discarded, and nothing is sent for it. -/
def Obligations.PacketsAreForwarded : Prop :=
  ∀ (s : State) (p : PortId) (pkt : Packet), s.receives p = true →
    let k := pkt.kind.toNat
    (knownKind k = false → Gives (exec (.forward p pkt) s) (fun t => t.fabric = s.fabric ∧ t.out = s.out ∧ t.memory = s.memory))
    ∧ (knownKind k = true → linkLocal k = false → k ≠ 0xA → k ≠ 0xB → pkt.dst ≠ s.fabId →
        (∀ q v, s.hop pkt.dst pkt.vcb (s.roleDim p) = some (q, v) →
          Gives (exec (.forward p pkt) s) (fun t => SendsOn q { pkt with vcb := v } s t
            ∧ { t with out := s.out, fabric := { t.fabric with ports := s.fabric.ports } } = s))
        ∧ (∀ r, s.hop pkt.dst pkt.vcb (s.roleDim p) = none → pkt.src ≠ s.fabId → responseKind k = some r →
            Gives (exec (.forward p pkt) s) (Answers r pkt 3 [] none s)))

/-- READ, WRITE and ATOMIC from another device (R382, R385, R386, R303, R444): an access inside an enabled export window that allows it is performed on
device memory and answered OK, a read with the bytes, an atomic with the old value; outside one it is answered VIOLATION and the port is held in
Talon; from a unit under reset it is answered FENCED; a held port serves none. -/
def Obligations.PeerRequestsAreServed : Prop :=
  ∀ (s : State) (p : PortId) (pkt : Packet), s.receives p = true → pkt.dst = s.fabId →
    let pa := pkt.addr.toNat
    let n := pkt.len.toNat
    let w32 := pkt.op.getLsbD 4
    let m := if w32 then 4 else 8
    let old := s.readNum pa m
    let held := s.frozen .evoirIn p.val = true
    let stops (kind right resp : Nat) (o : Result) : Prop :=
      pkt.kind.toNat = kind → (held → o = .next s)
        ∧ (¬ held → s.exports pkt right = false → Gives o (fun t => Answers resp pkt 1 [] none s t
            ∧ t.frozen .evoirIn p.val = true ∧ t.memory = s.memory))
        ∧ (¬ held → s.exports pkt right = true → s.fencedUnit pa ≠ none → Gives o (fun t => Answers resp pkt 2 [] none s t
            ∧ t.memory = s.memory))
    stops 1 0 2 (exec (.peerRead p pkt) s) ∧ stops 3 1 4 (exec (.peerWrite p pkt) s) ∧ stops 5 2 6 (exec (.peerAtomic p pkt) s)
    ∧ (¬ held → s.fencedUnit pa = none → Mem.wf s.memory.mem = true →
        (pkt.kind.toNat = 1 → s.exports pkt 0 = true → Gives (exec (.peerRead p pkt) s) (fun t =>
          Answers 2 pkt 0 (s.readMem pa n) (if pkt.sealedBlk then some (s.storedSeal pa) else none) s t
          ∧ t.memory.mem = s.memory.mem))
        ∧ (pkt.kind.toNat = 3 → s.exports pkt 1 = true → pkt.data.length = n → Gives (exec (.peerWrite p pkt) s) (fun t =>
          Answers 4 pkt 0 [] none s t
          ∧ (pkt.sealedBlk = false → t.readMem pa n = pkt.data ∧ SameOutside s.memory.mem t.memory.mem pa n)
          ∧ (pkt.sealedBlk = true → pkt.sealValid = true → t.storedSeal pa = pkt.crc)))
        ∧ (pkt.kind.toNat = 5 → s.exports pkt 2 = true → Gives (exec (.peerAtomic p pkt) s) (fun t =>
          Answers 6 pkt 0 (toBytes 8 old) none s t ∧ SameOutside s.memory.mem t.memory.mem pa m
          ∧ t.readMem pa m = toBytes m (atomicNum (bitsAt pkt.op 0 4).toNat w32 old (ofBytes (pkt.data.take 8))
              (ofBytes ((pkt.data.drop 8).take 8))))))

/-- READ_RSP, WRITE_ACK, ATOMIC_RSP, CKPT_READ_RSP and REMOTE_REQUEST_LIMIT (R382, R384, R385, R387): each completes for every request it
answers. An OK answer closes its request and no other, a waiting Kestrel gets its value and goes on, a mover's data wait with the request; an
answer that no request waits for changes nothing. VIOLATION is the master's own violation; another status and the time limit fail the work
FENCED with the fabric as its unit. A request that is closed is gone, the stores that a violation drains apart. -/
def Obligations.PeerAnswersCloseRequests : Prop :=
  (∀ (s : State) (p : PortId) (pkt : Packet) (r : PeerReq), s.receives p = true → s.requestOf pkt = some r →
    let ok := pkt.op = 0
    let waits := (s.kestrel r.cluster).run = .remote
    let left := s.fabric.requests.filter (fun q => !(decide (q.tag = r.tag) && decide (q.dst = r.dst)))
    let closed : State := { s with fabric := { s.fabric with requests := left } }
    let answering (y : PeerReq) : State :=
      { s with fabric := { s.fabric with requests := s.fabric.requests.map (fun x => if x = r then y else x) } }
    let goes (rd : BitVec 5) (v : Word) (t : State) : Prop := OnlyCluster r.cluster closed t
      ∧ (t.kestrel r.cluster).run = .running ∧ (t.kestrel r.cluster).pc = (s.kestrel r.cluster).pc + 4
      ∧ ∀ g, (t.kestrel r.cluster).get g = if g = rd ∧ g ≠ 0 then v else (s.kestrel r.cluster).get g
    (∀ rd how, pkt.kind = 2 → ok → r.purpose = .load rd how →
        (waits → ∃ t, exec (.readRsp p pkt) s = .next t ∧ goes rd (loadExtend how (ofBytes pkt.data)) t)
        ∧ (¬ waits → exec (.readRsp p pkt) s = .next closed))
    ∧ (pkt.kind = 2 → ok → r.purpose = .moveRead →
        exec (.readRsp p pkt) s = .next (answering { r with answer := some pkt.data, crc := pkt.crc }))
    ∧ (pkt.kind = 2 → ok → (r.purpose = .store ∨ r.purpose = .moveWrite ∨ r.purpose = .ckpt) → exec (.readRsp p pkt) s = .next closed)
    ∧ (pkt.kind = 0x15 → ok → exec (.ckptReadRsp p pkt) s = .next (answering { r with answer := some pkt.data }))
    ∧ (pkt.kind = 4 → ok → exec (.writeAck p pkt) s = .next closed)
    ∧ (∀ rd w32, pkt.kind = 6 → ok → r.purpose = .atomic rd w32 →
        (waits → ∃ t, exec (.atomicRsp p pkt) s = .next t ∧ goes rd (if w32 = true
          then (BitVec.ofNat 32 (ofBytes (pkt.data.take 4))).signExtend 64 else BitVec.ofNat 64 (ofBytes (pkt.data.take 8))) t)
        ∧ (¬ waits → exec (.atomicRsp p pkt) s = .next closed))
    ∧ (2 ≤ pkt.op.toNat → ∀ i ∈ [(2, Instr.readRsp p pkt), (4, .writeAck p pkt), (6, .atomicRsp p pkt), (0x15, .ckptReadRsp p pkt)],
        pkt.kind.toNat = i.1 → (r.work = none → exec i.2 s = .next (closed.fencedFor r.cluster ukFabric 0))
          ∧ (∀ st idx, r.work = some (st, idx) →
              exec i.2 s = .next ((closed.postCause st (some idx) stFenced ukFabric).failJob r.job)))
    ∧ (pkt.op = 1 → ∀ i ∈ [(2, Instr.readRsp p pkt), (4, .writeAck p pkt), (6, .atomicRsp p pkt), (0x15, .ckptReadRsp p pkt)],
        pkt.kind.toNat = i.1 →
        ((∀ rd how, r.purpose = .load rd how → waits → exec i.2 s = .next ((closed.modK r.cluster
            (fun k => { k with run := .running })).raise r.cluster exRights r.va (s.kestrel r.cluster).pc))
        ∧ (r.purpose = .moveRead ∨ r.purpose = .moveWrite → r.work = none →
            exec i.2 s = .next (closed.freezeCluster .mover r.cluster fcRights))
        ∧ (r.purpose ≠ .store ∨ (s.cluster r.cluster).storeBuf = [] → ∃ t, exec i.2 s = .next t ∧ r ∉ t.fabric.requests))))
  ∧ (∀ (s : State) (tag : BitVec 16) (r : PeerReq), s.ready = true →
      s.fabric.requests.find? (fun q => decide (q.tag = tag) && q.answer.isNone) = some r →
      ∃ t, exec (.remoteRequestLimit tag) s = .next t ∧ r ∉ t.fabric.requests)
  ∧ (∀ (s : State) (tag : BitVec 16), (∀ q ∈ s.fabric.requests, q.tag = tag → q.answer.isSome = true) →
      exec (.remoteRequestLimit tag) s = .next s)
  ∧ (∀ (s : State) (p : PortId) (pkt : Packet), s.requestOf pkt = none →
      ∀ i ∈ [Instr.readRsp p pkt, .writeAck p pkt, .atomicRsp p pkt, .ckptReadRsp p pkt], exec i s = .next s)
  ∧ ∀ (s : State) (pkt : Packet) (r : PeerReq), s.fabric.requests = [r] → r.tag = pkt.tag → r.dst = pkt.src → r.answer = none →
      pkt.dst = s.fabId → s.requestOf pkt = some r

/-- TIME_EXCHANGE, TIME, RING_CUT and RING_JOIN (R388, R395): the root shows SYNC with HOPS 0; another device asks its parent and counts the
exchange as missed until it ends, LOST after two misses; TIME sets OFFSET and HOPS, steps the timebase the first time and slews it later; a cut or
a join changes the mask of its dimension in the ring only, and the notice goes on until it meets a cut or its sender. Each completes with
nothing but that changed. -/
def Obligations.TimeAndRingsFollowTheFabric : Prop :=
  ∀ s : State, s.ready = true →
    let missed (n : Nat) (lost : Bool) : State := { s with fabric := { s.fabric with
      tbMissed := n, tbState := if lost = true ∧ s.fabric.tbState = 1 then 2 else s.fabric.tbState } }
    (s.fabValid = false → exec .timeExchange s = .next s)
    ∧ (s.isRoot = true → s.bar0Read 0x80010 = 1 ∧ s.bar0Read 0x80014 = 0)
    ∧ (s.isRoot = true → exec .timeExchange s = .next { s with fabric := { s.fabric with
        tbState := 1, tbHops := 0, tbOffset := 0, tbMissed := 0 } })
    ∧ (s.fabValid = true → s.isRoot = false → s.parentPort = none →
        exec .timeExchange s = .next (missed (s.fabric.tbMissed + 1) (decide (1 ≤ s.fabric.tbMissed))))
    ∧ (∀ q, s.parentPort = some q → ∃ t, exec .timeExchange s = .next t ∧ SendsOn q (s.ownPacket 9 0 []) s t
        ∧ { t with out := s.out, fabric := { t.fabric with ports := s.fabric.ports } }
          = missed (s.fabric.tbMissed + 1) (decide (2 ≤ s.fabric.tbMissed)))
    ∧ (∀ (p : PortId) (t1 t2 t3 t4 : Int) (hops : BitVec 5), s.receives p = true → s.parentPort = some p →
        let off : Int := ((t2 - t1) - (t4 - t3)) / 2
        let ticks : Int := (off + 128) / 256
        let fab : Fabric := { s.fabric with
          tbState := 1, tbHops := BitVec.ofNat 5 (min 31 (hops.toNat + 1)), tbOffset := BitVec.ofInt 32 off, tbMissed := 0, tbStepped := true
          tbSlew := if s.fabric.tbStepped = true then ticks else 0 }
        exec (.timePacket p t1 t2 t3 t4 hops) s = .next { s with
          fabric := fab
          tick := if s.fabric.tbStepped = true then s.tick else s.tick + BitVec.ofInt 64 ticks })
    ∧ (∀ (p : PortId) (t1 t2 t3 t4 : Int) (hops : BitVec 5), s.parentPort ≠ some p →
        exec (.timePacket p t1 t2 t3 t4 hops) s = .next s)
    ∧ (∀ (p : PortId) (dim : Fin 3) (link : BitVec 4) (src : BitVec 12), s.receives p = true → s.roleDim p = some dim.val →
        src ≠ s.fabId →
        let on := !s.rolePlus p
        let c := coord s.fabId dim.val
        let size := s.dimSize dim.val
        let back := (c + (size - 1)) % size
        let nextLink := if on = true then c else back
        let next := if on = true then (c + 1) % size else back
        let blocked := (s.cutMask dim.val).getLsbD nextLink = true ∨ setCoord s.fabId dim.val next = src ∨ size ≤ 2
        let mask (cut : Bool) (t : State) : Prop := (∀ i, i < 16 → (t.cutMask dim.val).getLsbD i =
            if i = link.toNat then cut else (s.cutMask dim.val).getLsbD i)
          ∧ (∀ e, e ≠ dim.val → t.cutMask e = s.cutMask e)
          ∧ { t with out := s.out, fabric := { t.fabric with ports := s.fabric.ports, cuts := s.fabric.cuts } } = s
        let sent (kind : Nat) (t : State) : Prop :=
          (blocked → t.out = s.out ∧ t.fabric.ports = s.fabric.ports)
          ∧ (∀ q, ¬ blocked → s.leastLoaded (allPorts.filter (fun q => s.serves q dim.val on)) = some q →
              SendsOn q { s.ownPacket kind 0 [BitVec.ofNat 8 dim.val, BitVec.ofNat 8 link.toNat] with src := src } s t)
        (∃ t, exec (.ringCut p dim link src) s = .next t ∧ mask true t ∧ sent 0xA t)
        ∧ ∃ t, exec (.ringJoin p dim link src) s = .next t ∧ mask false t ∧ sent 0xB t)

/-- CKPT_OPEN, CKPT_DATA, CKPT_SEAL, CKPT_ACK, CKPT_READ and FILLING_TIMEOUT (R400-R403): only the slot's owner is served, another is refused like a
violation; OPEN makes the half that is not the newest FILLING with the next SEQ, DATA writes into it, SEAL seals it where its CRC matches, READ gives
bytes of the newest; the timeout empties a filling half. -/
def Obligations.StandbySlotsKeepCheckpoints : Prop :=
  ∀ (s : State) (p : PortId) (pkt : Packet), s.receives p = true → pkt.dst = s.fabId → s.frozen .evoirIn p.val = false →
    Mem.wf s.memory.mem = true →
    let k := ckPacketSlot pkt
    let served := s.ownsSlot pkt.src k = true
    let refused (resp : Nat) (t : State) : Prop := Answers resp pkt 1 [] none s t ∧ t.frozen .evoirIn p.val = true ∧ t.memory = s.memory
    (∀ i ∈ [(0x10, 0x13, Instr.ckptOpen p pkt), (0x11, 4, .ckptData p pkt), (0x12, 0x13, .ckptSeal p pkt), (0x14, 0x15, .ckptRead p pkt)],
        pkt.kind.toNat = i.1 → ¬ served → Gives (exec i.2.2 s) (refused i.2.1))
    ∧ (pkt.kind = 0x10 → served → 256 ≤ s.halfBytes → Gives (exec (.ckptOpen p pkt) s) (fun t =>
        let h : Bool := match s.newest k with | some b => !b | none => false
        let n : W32 := match s.newest k with | some b => s.halfSeq k b + 1 | none => 1
        t.filling k = some h ∧ t.halfSeq k h = n ∧ t.halfState k (!h) = (if s.halfState k (!h) = 1 then 0 else s.halfState k (!h))
        ∧ Answers 0x13 pkt 0 (toBytes 8 h.toNat ++ toBytes 8 s.halfBytes) none s t))
    ∧ (∀ h, pkt.kind = 0x11 → served → s.filling k = some h → pkt.data.length = pkt.len.toNat →
        (8 ≤ pkt.addr.toNat → pkt.addr.toNat + pkt.len.toNat ≤ s.halfBytes → Gives (exec (.ckptData p pkt) s) (fun t =>
          t.readMem (s.halfBase k h + pkt.addr.toNat) pkt.len.toNat = pkt.data
          ∧ SameOutside s.memory.mem t.memory.mem (s.halfBase k h + pkt.addr.toNat) pkt.len.toNat ∧ Answers 4 pkt 0 [] none s t))
        ∧ (s.halfBytes < pkt.addr.toNat + pkt.len.toNat → Gives (exec (.ckptData p pkt) s) (refused 4)))
    ∧ (∀ h, pkt.kind = 0x12 → served → s.filling k = some h → 64 ≤ s.halfBytes →
        (s.halfCrc k h = pkt.crc → Gives (exec (.ckptSeal p pkt) s) (fun t => t.halfState k h = 2
          ∧ t.halfState k (!h) = s.halfState k (!h) ∧ Answers 0x13 pkt 0 [] none s t))
        ∧ (s.halfCrc k h ≠ pkt.crc → Gives (exec (.ckptSeal p pkt) s) (fun t => t.memory = s.memory ∧ Answers 0x13 pkt 1 [] none s t)))
    ∧ (pkt.kind = 0x14 → served → pkt.addr.toNat + pkt.len.toNat ≤ s.halfBytes → Gives (exec (.ckptRead p pkt) s) (fun t =>
        Answers 0x15 pkt 0 (s.readMem (s.halfBase k ((s.newest k).getD false) + pkt.addr.toNat) pkt.len.toNat) none s t
        ∧ t.memory = s.memory))
    ∧ (∀ r, pkt.kind = 0x13 → pkt.op = 0 → s.fabric.requests = [r] → r.tag = pkt.tag → r.dst = pkt.src → r.answer = none → r.work = none →
        exec (.ckptAck p pkt) s = .next { s with fabric := { s.fabric with requests := [] } })
    ∧ (∀ (slot : Fin 16) (h : Bool), s.filling slot.val = some h → s.halfState slot.val (!h) ≠ 1 → 64 ≤ s.halfBytes →
        Gives (exec (.fillingTimeout slot) s) (fun t => t.halfState slot.val h = 0 ∧ t.halfState slot.val (!h) = s.halfState slot.val (!h)
          ∧ SameOutside s.memory.mem t.memory.mem (s.halfBase slot.val h + 1) 1))

/-! ### BAR2 and management -/

/-- BAR2_READ, BAR2_WRITE, VF_BAR2_ACCESS and ATOMICOP (R303, R408, R411, R414, R445, R452): an access in live DRAM reads the bytes at the point
of coherence or writes exactly its bytes; outside DRAM a read is Unsupported Request and a write is discarded with KIND 6; the PF's write of a
reserved area is discarded, a VF's access of one, or outside its window, holds the VF; what a unit under reset serves waits; atomics are
Unsupported Request. Without a trained stack every access is Unsupported Request or a write discarded with KIND 6 (R22). An Unsupported
Request sets its AER bit of the function (R416). -/
def Obligations.Bar2ReachesDeviceMemory : Prop :=
  ∀ (s : State) (off : BitVec 36) (voff : BitVec 30) (f : FunctionId) (n : Nat) (bytes : List Byte), s.hostAnswers = true → f ≠ 0 →
    let live := s.card.device = .ready ∨ s.card.device = .failed
    let ur (g : FunctionId) (o : Result) : Prop := Gives o (fun t => t.out = s.out ++ [.unsupportedRequest]
      ∧ t.aerStatus g .unsupportedRequest = true ∧ (∀ e, e ≠ (g, AerError.unsupportedRequest) → (e ∈ t.host.aer ↔ e ∈ s.host.aer))
      ∧ { t with out := s.out, host := { t.host with aer := s.host.aer } } = s)
    let reads (pa : Nat) (o : Result) : Prop := Gives o (fun t => t.out = s.out ++ [.bar2Data (s.readMem pa n) (s.spanPoisoned pa n)]
      ∧ t.memory.mem = s.memory.mem)
    let writes (pa : Nat) (o : Result) : Prop := Gives o (fun t => t.readMem pa bytes.length = bytes
      ∧ SameOutside s.memory.mem t.memory.mem pa bytes.length ∧ t.out = s.out)
    let discards (g at_ : Nat) (o : Result) : Prop := Gives o (fun t => t.host.errKind = 6 ∧ t.host.errFunction.toNat = g
      ∧ t.host.errAddr = BitVec.ofNat 64 at_ ∧ t.memory = s.memory ∧ t.out = s.out)
    let waits (g at_ : Nat) (a : VfAccess) (o : Result) : Prop := Gives o (fun t => (∃ h, t.host.b2Held = s.host.b2Held ++ [h]
      ∧ h.function.val = g ∧ h.off = at_ ∧ h.access = a) ∧ t.memory = s.memory ∧ t.out = s.out)
    let pa := s.regPair 0x30080 + off.toNat
    let va := s.regPair (0x30100 + 16 * f.val) + voff.toNat
    let window := 4096 * (s.reg (0x30108 + 16 * f.val)).toNat
    let rd : Result := exec (.bar2Read off n) s
    let wr : Result := exec (.bar2Write off bytes) s
    let vr : Result := exec (.vfBar2Access f voff (.read n)) s
    let vw : Result := exec (.vfBar2Access f voff (.write bytes)) s
    let inside := voff.toNat + n ≤ window ∧ voff.toNat + bytes.length ≤ window
    ur 0 (exec .atomicop s)
    ∧ (s.card.device = .recovery → ur 0 rd ∧ ur 0 wr ∧ vr = .next s ∧ vw = .next s)
    ∧ (live → s.memory.stacksTrained = 0 → s.frozen .vf f.val = false → s.dramSpan va n = false → s.dramSpan va bytes.length = false →
        ur f vr ∧ discards f.val voff.toNat vw)
    ∧ (live → (s.dramSpan pa n = false → ur 0 rd)
        ∧ (s.dramSpan pa n = true → s.fencedUnit pa = none → reads pa rd)
        ∧ (s.dramSpan pa n = true → s.fencedUnit pa ≠ none → waits 0 off.toNat (.read n) rd)
        ∧ (s.dramSpan pa bytes.length = false → discards 0 off.toNat wr)
        ∧ (s.dramSpan pa bytes.length = true → s.fencedUnit pa = none →
            (s.meetsReserved pa bytes.length true = true → discards 0 off.toNat wr)
            ∧ (s.meetsReserved pa bytes.length true = false → Mem.wf s.memory.mem = true → writes pa wr)))
    ∧ (live → s.frozen .vf f.val = true → ur f vr ∧ ur f vw)
    ∧ (live → s.frozen .vf f.val = false → s.memory.stacksTrained ≠ 0 →
        (window < voff.toNat + n → vr = .next (s.freezeVf f) ∧ (s.freezeVf f).frozen .vf f.val = true)
        ∧ (window < voff.toNat + bytes.length → vw = .next (s.freezeVf f))
        ∧ (inside → s.dramSpan va n = true → s.meetsReserved va n true = true → vr = .next (s.freezeVf f))
        ∧ (inside → s.dramSpan va n = true → s.meetsReserved va n true = false → s.fencedUnit va = none → reads va vr)
        ∧ (inside → s.dramSpan va bytes.length = true → s.meetsReserved va bytes.length true = false → s.fencedUnit va = none →
            Mem.wf s.memory.mem = true → writes va vw))

/-- The MCTP control and PLDM base commands (R426, R427, R449; log entry 63 for the codes): the Steward, or in RECOVERY the boot ROM, answers
its EID, its TID, what it supports and that it supports no other message type; SET_ENDPOINT_ID and SET_TID change only the number they
set; a device that does not serve answers nothing.

The platform, FRU and OEM commands (R349, R428, R429; log entry 63 for the codes): the readings of the sensors in their units, the repository of
21 entries, the power cap between 150 W and the board limit, the clearing of a retirement, the identity and the log entries; a device that
does not serve answers nothing. -/
def Obligations.ManagementCommandsAnswer : Prop :=
  (∀ s : State,
    let tells (c : Byte) (b : List Byte) (o : Result) : Prop := o = .next { s with out := s.out ++ [.management c b] }
    let free (n : Nat) (b : List Byte) (o : Result) : Prop := ∃ l : List Byte, l.length = n
      ∧ o = .next { s with free := s.free + 1, out := s.out ++ [.management 0 (b ++ l)] }
    let types : List Nat := if s.card.device = .recovery then [0, 5] else [0, 2, 4, 5, 0x3F]
    (s.romServes = true →
      (∀ (op : BitVec 2) (eid : Byte), op.toNat ≤ 1 → eid ≠ 0 → eid ≠ 0xFF → exec (.setEndpointId op eid) s
          = .next { s with host := { s.host with eid := eid }, out := s.out ++ [.management 0 [0, eid]] })
      ∧ (∀ (op : BitVec 2) (eid : Byte), op = 2 ∨ (op.toNat ≤ 1 ∧ (eid = 0 ∨ eid = 0xFF)) → tells 2 [] (exec (.setEndpointId op eid) s))
      ∧ (∀ eid, tells 0 [0, s.host.eid] (exec (.setEndpointId 3 eid) s))
      ∧ tells 0 [s.host.eid] (exec .getEndpointId s)
      ∧ free 16 [] (exec .getEndpointUuid s)
      ∧ tells 0 [1, 0xF1, 0xF3, 0xF1, 0] (exec (.getMctpVersionSupport 0) s)
      ∧ tells 0 [1, 0xF1, 0xF3, 0xF1, 0] (exec (.getMctpVersionSupport 0xFF) s)
      ∧ free 4 [1] (exec (.getMctpVersionSupport 1) s)
      ∧ (∀ t : Byte, 2 ≤ t.toNat → t ≠ 0xFF → tells 0x80 [] (exec (.getMctpVersionSupport t) s))
      ∧ tells 0 [2, 0, 1] (exec .getMessageTypeSupport s)
      ∧ (∀ t : BitVec 7, 2 ≤ t.toNat → tells 5 [] (exec (.unsupportedMessageType t) s))
      ∧ tells 0 [s.host.tid] (exec .getTid s)
      ∧ (∀ tid : Byte, tid ≠ 0 → tid ≠ 0xFF → exec (.setTid tid) s
          = .next { s with host := { s.host with tid := tid }, out := s.out ++ [.management 0 []] })
      ∧ tells 2 [] (exec (.setTid 0) s)
      ∧ (∀ t : BitVec 6, t.toNat ∈ types → free 4 [] (exec (.getPldmVersion t) s)
          ∧ ∃ b : List Byte, b.length = 32 ∧ tells 0 b (exec (.getPldmCommands t) s))
      ∧ (∀ t : BitVec 6, t.toNat ∉ types → tells 0x80 [] (exec (.getPldmVersion t) s) ∧ tells 0x80 [] (exec (.getPldmCommands t) s))
      ∧ tells 0 (toBytes 8 ((types.map (fun t => 2 ^ t)).sum)) (exec .getPldmTypes s))
    ∧ (s.romServes = false → exec .getEndpointId s = .next s ∧ exec .getTid s = .next s ∧ exec .getPldmTypes s = .next s))
  ∧ (∀ s : State,
    let tells (c : Byte) (b : List Byte) (o : Result) : Prop := o = .next { s with out := s.out ++ [.management c b] }
    let value (v : Int) (o : Result) : Prop := tells 0 (toBytes 4 (BitVec.ofInt 32 v).toNat) o
    (s.stewardServes = true →
      tells 0 (toBytes 4 21) (exec .getPdrRepositoryInfo s)
      ∧ (∀ h : W32, 1 ≤ h.toNat → h.toNat ≤ 21 → tells 0 (toBytes 4 h.toNat
          ++ [if h.toNat ≤ 10 then 1 else if h.toNat ≤ 19 then 2 else 3]) (exec (.getPdr h) s))
      ∧ (∀ h : W32, h.toNat = 0 ∨ 21 < h.toNat → tells 0x82 [] (exec (.getPdr h) s))
      ∧ value (s.card.hotspot.toInt / 256) (exec (.getSensorReading 1) s)
      ∧ (∀ i : StackId, value ((Table.get 0 s.card.stackTemp i.val).toInt / 256) (exec (.getSensorReading (BitVec.ofNat 16 (2 + i.val))) s))
      ∧ value (s.card.mw.toNat / 1000 : Nat) (exec (.getSensorReading 8) s)
      ∧ value s.liveCount (exec (.getSensorReading 9) s)
      ∧ value (8 * countBits s.stackLiveBits 6 : Nat) (exec (.getSensorReading 10) s)
      ∧ (∀ id : BitVec 16, id.toNat = 0 ∨ 10 < id.toNat → tells 0x80 [] (exec (.getSensorReading id) s))
      ∧ tells 0 [if s.card.device = .ready then 1 else 2] (exec (.getStateSensorReadings 11) s)
      ∧ (∀ p : PortId, tells 0 [(s.port p).lstate] (exec (.getStateSensorReadings (BitVec.ofNat 16 (12 + p.val))) s))
      ∧ (∀ id : BitVec 16, id.toNat < 11 ∨ 19 < id.toNat → tells 0x80 [] (exec (.getStateSensorReadings id) s))
      ∧ (∀ w : W32, s.card.device = .ready → 150 ≤ w.toNat → w.toNat ≤ s.card.boardW.toNat →
          Gives (exec (.powerCap w) s) (fun t => t.capW = w.toNat ∧ t.out = s.out ++ [.management 0 []] ∧ ∀ o, o ≠ 0x20000 → t.reg o = s.reg o))
      ∧ (∀ w : W32, w.toNat < 150 ∨ s.card.boardW.toNat < w.toNat → tells 2 [] (exec (.powerCap w) s))
      ∧ (∀ c : ClusterId, s.card.device = .ready → s.integ.retired.getLsbD c.val = true →
          Gives (exec (.retireClearEffecter (BitVec.ofNat 32 c.val)) s) (fun t => t.out = s.out ++ [.management 0 []]
            ∧ ∀ d : ClusterId, t.integ.retired.getLsbD d.val = (s.integ.retired.getLsbD d.val && decide (d ≠ c))))
      ∧ tells 0 (toBytes 4 s.capW) (exec (.getNumericEffecterValue 20) s)
      ∧ (∃ b : List Byte, b.length = 4 ∧ exec (.getNumericEffecterValue 21) s
          = .next { s with free := s.free + 1, out := s.out ++ [.management 0 b] })
      ∧ (∀ (id : BitVec 16) (v : Byte), tells 0x80 [] (exec (.setStateEffecterStates id v) s))
      ∧ (∀ en eid : Byte, exec (.setEventReceiver en eid) s = .next { s with
          host := { s.host with eventReceiver := if en = 0 then none else some eid }, out := s.out ++ [.management 0 []] })
      ∧ tells 0 [2] (exec .getFruRecordTableMetadata s)
      ∧ (∃ l m : List Byte, l.length = 32 ∧ m.length = 8 ∧ exec .getFruRecordTable s
          = .next { s with free := s.free + 1, out := s.out ++ [.management 0 (l ++ fruPartNumber ++ m ++ s.identityData)] })
      ∧ tells 0 s.identityData (exec .readIdentity s)
      ∧ (∀ n : W32, s.logHeld n = true → tells 0 (Table.get LogEntry.empty s.integ.log (n.toNat % 4096)).bytes (exec (.readErrorLog n) s))
      ∧ (∀ n : W32, s.logHeld n = false → tells 0x80 [] (exec (.readErrorLog n) s)))
    ∧ (s.stewardServes = false → exec .readIdentity s = .next s ∧ exec (.getSensorReading 1) s = .next s))

/-- The firmware commands (R430, R431; log entry 63 for the codes): a component is transferred in order in pieces of at most 1,024 bytes, verified by
signature and security version, activated, or given up; nothing else of the device changes but link controllers that a self-contained
update drains. -/
def Obligations.FirmwareIsStagedAndActivated : Prop :=
  ∀ s : State, s.romServes = true →
    let tells (c : Byte) (b : List Byte) (o : Result) : Prop := o = .next { s with out := s.out ++ [.management c b] }
    let staged (c : Byte) (k : BitVec 16) (x : Option Staged) (o : Result) : Prop := Gives o (fun t => t.stagedOf k = x
      ∧ (∀ m, m ≠ k → t.stagedOf m = s.stagedOf m) ∧ t.out = s.out ++ [.management c []]
      ∧ { t with out := s.out, host := { t.host with staged := s.host.staged } } = s)
    let received (k : BitVec 16) : Option Nat := (s.stagedOf k).map (·.received)
    (∀ (k : BitVec 16) (off : W32) (b : List Byte), 1 ≤ k.toNat → k.toNat ≤ 3 → b.length ≤ 1024 →
        (off = 0 ∨ received k = some off.toNat) →
        staged 0 k (some ⟨k, off.toNat + b.length, false, 0⟩) (exec (.firmwareTransfer k off b) s))
    ∧ (∀ (k : BitVec 16) (off : W32) (b : List Byte),
        (k.toNat = 0 ∨ 3 < k.toNat ∨ 1024 < b.length ∨ (off ≠ 0 ∧ received k ≠ some off.toNat)) →
        tells 2 [] (exec (.firmwareTransfer k off b) s))
    ∧ (∀ (k : BitVec 16) (x : Staged) (svn : BitVec 16), s.stagedOf k = some x →
        staged 1 k none (exec (.verifyComplete k false svn) s)
        ∧ (svn.toNat < s.host.flashSvn.toNat → staged 5 k none (exec (.verifyComplete k true svn) s))
        ∧ (s.host.flashSvn.toNat ≤ svn.toNat →
            staged 0 k (some { x with verified := true, svn := svn }) (exec (.verifyComplete k true svn) s)))
    ∧ (∀ own : Bool, Gives (exec (.activateFirmware own) s) (fun t =>
        (s.verifiedOf 3 = true → t.stagedOf 3 = none) ∧ t.stagedOf 1 = s.stagedOf 1
        ∧ (own = false → t.stagedOf 2 = s.stagedOf 2 ∧ t.fabric = s.fabric ∧ t.out = s.out ++ [.management 0 []])
        ∧ (own = true → s.ready = true → s.verifiedOf 2 = true → t.stagedOf 2 = none
            ∧ ∀ p : PortId, (s.port p).carries = true → (t.port p).update = true ∨ (t.port p).updating = true
                ∨ (t.port p).train = .lock)))
    ∧ tells 0 (s.host.staged.flatMap (fun x => toBytes 2 x.component.toNat ++ toBytes 4 x.received ++ toBytes 1 x.verified.toNat))
        (exec .getStatus s)
    ∧ Gives (exec .cancelUpdate s) (fun t => t.host.staged = [] ∧ { t with out := s.out, host := { t.host with staged := s.host.staged } } = s)
    ∧ Gives (exec .cancelUpdateComponent s) (fun t => t.host.staged = s.host.staged.filter (·.verified)
        ∧ { t with out := s.out, host := { t.host with staged := s.host.staged } } = s)
end

