-- ==== Sys2Proof/Laws/Mem.lean ====
section
/-! SUPPORT. The laws of sparse tables and byte memories: a read after a write, reads elsewhere, and the canonical form. -/
namespace Sys2Proof.Machine

/-! ### Tables -/

/-- A key reads as the value just set. -/
theorem Table.get_set_self {β : Type} (d : β) (t : Table β) (k : Nat) (v : β) : Table.get d (Table.set t k v) k = v := by
  induction t with
  | nil => simp [Table.set, Table.get]
  | cons e t ih =>
    obtain ⟨k', v'⟩ := e
    simp only [Table.set]
    split
    · simp [Table.get]
    · split
      · simp [Table.get]
      · simp [Table.get, *]

/-- Setting one key leaves every other key's value. -/
theorem Table.get_set_ne {β : Type} (d : β) (t : Table β) (k k2 : Nat) (v : β) (h : k2 ≠ k) :
    Table.get d (Table.set t k v) k2 = Table.get d t k2 := by
  induction t with
  | nil => simp [Table.set, Table.get, Ne.symm h]
  | cons e t ih =>
    obtain ⟨k', v'⟩ := e
    simp only [Table.set]
    split
    · rename_i hk
      subst hk
      simp [Table.get, Ne.symm h]
    · split
      · simp [Table.get, Ne.symm h]
      · simp [Table.get, ih]

/-- What holds of a key's value, and is kept by a function on entries that keeps the keys, holds after it is mapped over the table. -/
theorem Table.get_map_of {β : Type} {P : β → Prop} {d : β} {t : Table β} {k : Nat} {g : Nat × β → Nat × β}
    (hk : ∀ e, (g e).1 = e.1) (hf : ∀ e, P e.2 → P (g e).2) (h : P (Table.get d t k)) : P (Table.get d (t.map g) k) := by
  induction t with
  | nil => exact h
  | cons e t ih =>
    have e1 := hk e
    have e2 := hf e
    obtain ⟨k', v'⟩ := e
    simp only [List.map]
    generalize g (k', v') = x at e1 e2 ⊢
    obtain ⟨k2, v2⟩ := x
    simp only at e1 e2
    subst e1
    simp only [Table.get] at h ⊢
    split
    · rename_i hk
      rw [if_pos hk] at h
      exact e2 h
    · rename_i hk
      rw [if_neg hk] at h
      exact ih h

/-! ### Byte memories -/

/-- Writing one byte leaves every other address as it read. -/
theorem Mem.read_write_ne (m : Mem) (a b : Nat) (v : Byte) (h : b ≠ a) : Mem.read (Mem.write m a v) b = Mem.read m b := by
  have he : Mem.read (Mem.erase m a) b = Mem.read m b := by
    induction m with
    | nil => rfl
    | cons e t ih =>
      obtain ⟨k, w⟩ := e
      simp only [Mem.erase]
      split
      · rename_i hk
        subst hk
        simp [Mem.read, Ne.symm h]
      · simp [Mem.read, ih]
  have hp : Mem.read (Mem.put m a v) b = Mem.read m b := by
    induction m with
    | nil => simp [Mem.put, Mem.read, Ne.symm h]
    | cons e t ih =>
      obtain ⟨k, w⟩ := e
      simp only [Mem.put]
      split
      · rename_i hk
        subst hk
        simp [Mem.read, Ne.symm h]
      · split
        · simp [Mem.read, Ne.symm h]
        · simp only [Mem.read]
          split
          · rfl
          · exact ih (by
              simp only [Mem.erase, Mem.read] at he
              split at he
              · contradiction
              · simp only [Mem.read] at he
                split at he
                · contradiction
                · exact he)
  simp only [Mem.write]
  split
  · exact he
  · exact hp

/-- An address below the first one listed reads as unlisted. -/
theorem Mem.read_below (m : Mem) (lo a : Nat) (h : Mem.wfFrom lo m = true) (hl : a < lo) : Mem.read m a = Mem.unlisted := by
  induction m generalizing lo with
  | nil => rfl
  | cons e t ih =>
    obtain ⟨k, w⟩ := e
    simp only [Mem.wfFrom, Bool.and_eq_true, decide_eq_true_eq] at h
    have hk : k ≠ a := by omega
    simp only [Mem.read, if_neg hk]
    exact ih (k + 1) h.2.2 (by omega)

/-- A byte just written reads back. -/
theorem Mem.read_write_self (m : Mem) (a : Nat) (v : Byte) (h : Mem.wf m = true) : Mem.read (Mem.write m a v) a = v := by
  have hp : Mem.read (Mem.put m a v) a = v := by
    clear h
    induction m with
    | nil => simp [Mem.put, Mem.read]
    | cons e t ih =>
      obtain ⟨k, w⟩ := e
      simp only [Mem.put]
      split
      · simp [Mem.read]
      · split
        · simp [Mem.read]
        · simp [Mem.read, *]
  have he : ∀ lo, Mem.wfFrom lo m = true → Mem.read (Mem.erase m a) a = Mem.unlisted := by
    clear h hp
    induction m with
    | nil => intro _ _; rfl
    | cons e t ih =>
      obtain ⟨k, w⟩ := e
      intro lo h
      simp only [Mem.wfFrom, Bool.and_eq_true, decide_eq_true_eq] at h
      simp only [Mem.erase]
      split
      · rename_i hk
        exact Mem.read_below t (k + 1) a h.2.2 (by omega)
      · rename_i hk
        simp only [Mem.read, if_neg hk]
        exact ih (k + 1) h.2.2
  simp only [Mem.write]
  split
  · rename_i hv
    rw [hv]
    exact he 0 h
  · exact hp

/-- A lower bound may be lowered. -/
theorem Mem.wfFrom_mono (m : Mem) (lo lo2 : Nat) (h : Mem.wfFrom lo m = true) (hl : lo2 ≤ lo) : Mem.wfFrom lo2 m = true := by
  cases m with
  | nil => rfl
  | cons e t =>
    obtain ⟨k, w⟩ := e
    simp only [Mem.wfFrom, Bool.and_eq_true, decide_eq_true_eq] at h ⊢
    exact ⟨by omega, h.2⟩

theorem Mem.wfFrom_erase (m : Mem) (lo a : Nat) (h : Mem.wfFrom lo m = true) : Mem.wfFrom lo (Mem.erase m a) = true := by
  induction m generalizing lo with
  | nil => rfl
  | cons e t ih =>
    obtain ⟨k, w⟩ := e
    simp only [Mem.wfFrom, Bool.and_eq_true, decide_eq_true_eq] at h
    simp only [Mem.erase]
    split
    · exact Mem.wfFrom_mono t (k + 1) lo h.2.2 (by omega)
    · simp only [Mem.wfFrom, Bool.and_eq_true, decide_eq_true_eq]
      exact ⟨h.1, h.2.1, ih (k + 1) h.2.2⟩

theorem Mem.wfFrom_put (m : Mem) (lo a : Nat) (v : Byte) (h : Mem.wfFrom lo m = true) (hl : lo ≤ a) (hv : v ≠ Mem.unlisted) :
    Mem.wfFrom lo (Mem.put m a v) = true := by
  induction m generalizing lo with
  | nil => simp [Mem.put, Mem.wfFrom, hl, hv]
  | cons e t ih =>
    obtain ⟨k, w⟩ := e
    simp only [Mem.wfFrom, Bool.and_eq_true, decide_eq_true_eq] at h
    simp only [Mem.put]
    split
    · rename_i hk
      subst hk
      simp only [Mem.wfFrom, Bool.and_eq_true, decide_eq_true_eq]
      exact ⟨hl, hv, h.2.2⟩
    · split
      · simp only [Mem.wfFrom, Bool.and_eq_true, decide_eq_true_eq]
        exact ⟨hl, hv, by omega, h.2.1, h.2.2⟩
      · simp only [Mem.wfFrom, Bool.and_eq_true, decide_eq_true_eq]
        exact ⟨h.1, h.2.1, ih (k + 1) h.2.2 (by omega)⟩

/-- A write keeps the canonical form. -/
theorem Mem.wf_write (m : Mem) (a : Nat) (v : Byte) (h : Mem.wf m = true) : Mem.wf (Mem.write m a v) = true := by
  simp only [Mem.write]
  split
  · exact Mem.wfFrom_erase m 0 a h
  · exact Mem.wfFrom_put m 0 a v h (by omega) (by assumption)

/-- A write of bytes keeps the canonical form. -/
theorem Mem.wf_writeBytes (m : Mem) (a : Nat) (bs : List Byte) (h : Mem.wf m = true) : Mem.wf (Mem.writeBytes m a bs) = true := by
  induction bs generalizing m a with
  | nil => exact h
  | cons b bs ih => exact ih _ _ (Mem.wf_write m a b h)

theorem Mem.wfFrom_filter (m : Mem) (lo : Nat) (p : Nat × Byte → Bool) (h : Mem.wfFrom lo m = true) :
    Mem.wfFrom lo (m.filter p) = true := by
  induction m generalizing lo with
  | nil => rfl
  | cons e t ih =>
    obtain ⟨k, w⟩ := e
    simp only [Mem.wfFrom, Bool.and_eq_true, decide_eq_true_eq] at h
    simp only [List.filter]
    split
    · simp only [Mem.wfFrom, Bool.and_eq_true, decide_eq_true_eq]
      exact ⟨h.1, h.2.1, ih (k + 1) h.2.2⟩
    · exact Mem.wfFrom_mono _ (k + 1) lo (ih (k + 1) h.2.2) (by omega)

/-- Clearing a span keeps the canonical form. -/
theorem Mem.wf_clear (m : Mem) (a n : Nat) (h : Mem.wf m = true) : Mem.wf (Mem.clear m a n) = true :=
  Mem.wfFrom_filter m 0 _ h

/-- A write of bytes leaves every address outside them. -/
theorem Mem.read_writeBytes_out (m : Mem) (a b : Nat) (bs : List Byte) (h : b < a ∨ a + bs.length ≤ b) :
    Mem.read (Mem.writeBytes m a bs) b = Mem.read m b := by
  induction bs generalizing m a with
  | nil => rfl
  | cons x bs ih =>
    simp only [List.length_cons] at h
    simp only [Mem.writeBytes]
    rw [ih (Mem.write m a x) (a + 1) (by omega), Mem.read_write_ne m a b x (by omega)]

/-- A read of the bytes just written gives them. -/
theorem Mem.readBytes_writeBytes (m : Mem) (a : Nat) (bs : List Byte) (h : Mem.wf m = true) :
    Mem.readBytes (Mem.writeBytes m a bs) a bs.length = bs := by
  induction bs generalizing m a with
  | nil => rfl
  | cons x bs ih =>
    simp only [Mem.writeBytes, List.length_cons, Mem.readBytes]
    rw [Mem.read_writeBytes_out (Mem.write m a x) (a + 1) a bs (by omega), Mem.read_write_self m a x h,
      ih (Mem.write m a x) (a + 1) (Mem.wf_write m a x h)]

end Sys2Proof.Machine
end

