-- ==== Sys2Proof/Laws/State.lean ====
section
/-! SUPPORT. What each update of the state leaves as it was, and what a unit reads as after it is set. -/
namespace Sys2Proof.Machine

/-! ### Fields that an update leaves -/

@[simp] theorem State.setCluster_pending (s : State) (c : ClusterId) (x : Cluster) : (s.setCluster c x).pending = s.pending := rfl
@[simp] theorem State.setCluster_out (s : State) (c : ClusterId) (x : Cluster) : (s.setCluster c x).out = s.out := rfl
@[simp] theorem State.setCluster_free (s : State) (c : ClusterId) (x : Cluster) : (s.setCluster c x).free = s.free := rfl
@[simp] theorem State.setCluster_tick (s : State) (c : ClusterId) (x : Cluster) : (s.setCluster c x).tick = s.tick := rfl
@[simp] theorem State.setCluster_sched (s : State) (c : ClusterId) (x : Cluster) : (s.setCluster c x).sched = s.sched := rfl
@[simp] theorem State.setCluster_memory (s : State) (c : ClusterId) (x : Cluster) : (s.setCluster c x).memory = s.memory := rfl
@[simp] theorem State.setCluster_integ (s : State) (c : ClusterId) (x : Cluster) : (s.setCluster c x).integ = s.integ := rfl
@[simp] theorem State.setCluster_fabric (s : State) (c : ClusterId) (x : Cluster) : (s.setCluster c x).fabric = s.fabric := rfl
@[simp] theorem State.setCluster_host (s : State) (c : ClusterId) (x : Cluster) : (s.setCluster c x).host = s.host := rfl
@[simp] theorem State.setCluster_card (s : State) (c : ClusterId) (x : Cluster) : (s.setCluster c x).card = s.card := rfl
@[simp] theorem State.setCluster_setup (s : State) (c : ClusterId) (x : Cluster) : (s.setCluster c x).setup = s.setup := rfl
@[simp] theorem State.modCluster_pending (s : State) (c : ClusterId) (f : Cluster → Cluster) : (s.modCluster c f).pending = s.pending := rfl
@[simp] theorem State.modCluster_out (s : State) (c : ClusterId) (f : Cluster → Cluster) : (s.modCluster c f).out = s.out := rfl
@[simp] theorem State.modCluster_free (s : State) (c : ClusterId) (f : Cluster → Cluster) : (s.modCluster c f).free = s.free := rfl
@[simp] theorem State.modCluster_tick (s : State) (c : ClusterId) (f : Cluster → Cluster) : (s.modCluster c f).tick = s.tick := rfl
@[simp] theorem State.modCluster_sched (s : State) (c : ClusterId) (f : Cluster → Cluster) : (s.modCluster c f).sched = s.sched := rfl
@[simp] theorem State.modCluster_memory (s : State) (c : ClusterId) (f : Cluster → Cluster) : (s.modCluster c f).memory = s.memory := rfl
@[simp] theorem State.modCluster_integ (s : State) (c : ClusterId) (f : Cluster → Cluster) : (s.modCluster c f).integ = s.integ := rfl
@[simp] theorem State.modCluster_fabric (s : State) (c : ClusterId) (f : Cluster → Cluster) : (s.modCluster c f).fabric = s.fabric := rfl
@[simp] theorem State.modCluster_host (s : State) (c : ClusterId) (f : Cluster → Cluster) : (s.modCluster c f).host = s.host := rfl
@[simp] theorem State.modCluster_card (s : State) (c : ClusterId) (f : Cluster → Cluster) : (s.modCluster c f).card = s.card := rfl
@[simp] theorem State.modCluster_setup (s : State) (c : ClusterId) (f : Cluster → Cluster) : (s.modCluster c f).setup = s.setup := rfl
@[simp] theorem State.setStream_pending (s : State) (st : StreamId) (x : Stream) : (s.setStream st x).pending = s.pending := rfl
@[simp] theorem State.setStream_out (s : State) (st : StreamId) (x : Stream) : (s.setStream st x).out = s.out := rfl
@[simp] theorem State.setStream_free (s : State) (st : StreamId) (x : Stream) : (s.setStream st x).free = s.free := rfl
@[simp] theorem State.setStream_tick (s : State) (st : StreamId) (x : Stream) : (s.setStream st x).tick = s.tick := rfl
@[simp] theorem State.setStream_clusters (s : State) (st : StreamId) (x : Stream) : (s.setStream st x).clusters = s.clusters := rfl
@[simp] theorem State.setStream_memory (s : State) (st : StreamId) (x : Stream) : (s.setStream st x).memory = s.memory := rfl
@[simp] theorem State.setStream_integ (s : State) (st : StreamId) (x : Stream) : (s.setStream st x).integ = s.integ := rfl
@[simp] theorem State.setStream_fabric (s : State) (st : StreamId) (x : Stream) : (s.setStream st x).fabric = s.fabric := rfl
@[simp] theorem State.setStream_host (s : State) (st : StreamId) (x : Stream) : (s.setStream st x).host = s.host := rfl
@[simp] theorem State.setStream_card (s : State) (st : StreamId) (x : Stream) : (s.setStream st x).card = s.card := rfl
@[simp] theorem State.setStream_setup (s : State) (st : StreamId) (x : Stream) : (s.setStream st x).setup = s.setup := rfl
@[simp] theorem State.setJob_pending (s : State) (j : JobId) (x : Option Job) : (s.setJob j x).pending = s.pending := rfl
@[simp] theorem State.setJob_out (s : State) (j : JobId) (x : Option Job) : (s.setJob j x).out = s.out := rfl
@[simp] theorem State.setJob_free (s : State) (j : JobId) (x : Option Job) : (s.setJob j x).free = s.free := rfl
@[simp] theorem State.setJob_tick (s : State) (j : JobId) (x : Option Job) : (s.setJob j x).tick = s.tick := rfl
@[simp] theorem State.setJob_clusters (s : State) (j : JobId) (x : Option Job) : (s.setJob j x).clusters = s.clusters := rfl
@[simp] theorem State.setJob_memory (s : State) (j : JobId) (x : Option Job) : (s.setJob j x).memory = s.memory := rfl
@[simp] theorem State.setJob_integ (s : State) (j : JobId) (x : Option Job) : (s.setJob j x).integ = s.integ := rfl
@[simp] theorem State.setJob_fabric (s : State) (j : JobId) (x : Option Job) : (s.setJob j x).fabric = s.fabric := rfl
@[simp] theorem State.setJob_host (s : State) (j : JobId) (x : Option Job) : (s.setJob j x).host = s.host := rfl
@[simp] theorem State.setJob_card (s : State) (j : JobId) (x : Option Job) : (s.setJob j x).card = s.card := rfl
@[simp] theorem State.setJob_setup (s : State) (j : JobId) (x : Option Job) : (s.setJob j x).setup = s.setup := rfl
@[simp] theorem State.setRing_pending (s : State) (r : RingId) (x : Ring) : (s.setRing r x).pending = s.pending := rfl
@[simp] theorem State.setRing_out (s : State) (r : RingId) (x : Ring) : (s.setRing r x).out = s.out := rfl
@[simp] theorem State.setRing_free (s : State) (r : RingId) (x : Ring) : (s.setRing r x).free = s.free := rfl
@[simp] theorem State.setRing_tick (s : State) (r : RingId) (x : Ring) : (s.setRing r x).tick = s.tick := rfl
@[simp] theorem State.setRing_clusters (s : State) (r : RingId) (x : Ring) : (s.setRing r x).clusters = s.clusters := rfl
@[simp] theorem State.setRing_memory (s : State) (r : RingId) (x : Ring) : (s.setRing r x).memory = s.memory := rfl
@[simp] theorem State.setRing_integ (s : State) (r : RingId) (x : Ring) : (s.setRing r x).integ = s.integ := rfl
@[simp] theorem State.setRing_fabric (s : State) (r : RingId) (x : Ring) : (s.setRing r x).fabric = s.fabric := rfl
@[simp] theorem State.setRing_host (s : State) (r : RingId) (x : Ring) : (s.setRing r x).host = s.host := rfl
@[simp] theorem State.setRing_card (s : State) (r : RingId) (x : Ring) : (s.setRing r x).card = s.card := rfl
@[simp] theorem State.setRing_setup (s : State) (r : RingId) (x : Ring) : (s.setRing r x).setup = s.setup := rfl
@[simp] theorem State.setSpace_pending (s : State) (a : Fin 1024) (x : Space) : (s.setSpace a x).pending = s.pending := rfl
@[simp] theorem State.setSpace_out (s : State) (a : Fin 1024) (x : Space) : (s.setSpace a x).out = s.out := rfl
@[simp] theorem State.setSpace_free (s : State) (a : Fin 1024) (x : Space) : (s.setSpace a x).free = s.free := rfl
@[simp] theorem State.setSpace_tick (s : State) (a : Fin 1024) (x : Space) : (s.setSpace a x).tick = s.tick := rfl
@[simp] theorem State.setSpace_clusters (s : State) (a : Fin 1024) (x : Space) : (s.setSpace a x).clusters = s.clusters := rfl
@[simp] theorem State.setSpace_sched (s : State) (a : Fin 1024) (x : Space) : (s.setSpace a x).sched = s.sched := rfl
@[simp] theorem State.setSpace_integ (s : State) (a : Fin 1024) (x : Space) : (s.setSpace a x).integ = s.integ := rfl
@[simp] theorem State.setSpace_fabric (s : State) (a : Fin 1024) (x : Space) : (s.setSpace a x).fabric = s.fabric := rfl
@[simp] theorem State.setSpace_host (s : State) (a : Fin 1024) (x : Space) : (s.setSpace a x).host = s.host := rfl
@[simp] theorem State.setSpace_card (s : State) (a : Fin 1024) (x : Space) : (s.setSpace a x).card = s.card := rfl
@[simp] theorem State.setSpace_setup (s : State) (a : Fin 1024) (x : Space) : (s.setSpace a x).setup = s.setup := rfl
@[simp] theorem State.setQuad_pending (s : State) (q : QuadId) (x : Quad) : (s.setQuad q x).pending = s.pending := rfl
@[simp] theorem State.setQuad_out (s : State) (q : QuadId) (x : Quad) : (s.setQuad q x).out = s.out := rfl
@[simp] theorem State.setQuad_free (s : State) (q : QuadId) (x : Quad) : (s.setQuad q x).free = s.free := rfl
@[simp] theorem State.setQuad_tick (s : State) (q : QuadId) (x : Quad) : (s.setQuad q x).tick = s.tick := rfl
@[simp] theorem State.setQuad_clusters (s : State) (q : QuadId) (x : Quad) : (s.setQuad q x).clusters = s.clusters := rfl
@[simp] theorem State.setQuad_sched (s : State) (q : QuadId) (x : Quad) : (s.setQuad q x).sched = s.sched := rfl
@[simp] theorem State.setQuad_integ (s : State) (q : QuadId) (x : Quad) : (s.setQuad q x).integ = s.integ := rfl
@[simp] theorem State.setQuad_fabric (s : State) (q : QuadId) (x : Quad) : (s.setQuad q x).fabric = s.fabric := rfl
@[simp] theorem State.setQuad_host (s : State) (q : QuadId) (x : Quad) : (s.setQuad q x).host = s.host := rfl
@[simp] theorem State.setQuad_card (s : State) (q : QuadId) (x : Quad) : (s.setQuad q x).card = s.card := rfl
@[simp] theorem State.setQuad_setup (s : State) (q : QuadId) (x : Quad) : (s.setQuad q x).setup = s.setup := rfl
@[simp] theorem State.setPort_pending (s : State) (p : PortId) (x : Port) : (s.setPort p x).pending = s.pending := rfl
@[simp] theorem State.setPort_out (s : State) (p : PortId) (x : Port) : (s.setPort p x).out = s.out := rfl
@[simp] theorem State.setPort_free (s : State) (p : PortId) (x : Port) : (s.setPort p x).free = s.free := rfl
@[simp] theorem State.setPort_tick (s : State) (p : PortId) (x : Port) : (s.setPort p x).tick = s.tick := rfl
@[simp] theorem State.setPort_clusters (s : State) (p : PortId) (x : Port) : (s.setPort p x).clusters = s.clusters := rfl
@[simp] theorem State.setPort_sched (s : State) (p : PortId) (x : Port) : (s.setPort p x).sched = s.sched := rfl
@[simp] theorem State.setPort_memory (s : State) (p : PortId) (x : Port) : (s.setPort p x).memory = s.memory := rfl
@[simp] theorem State.setPort_integ (s : State) (p : PortId) (x : Port) : (s.setPort p x).integ = s.integ := rfl
@[simp] theorem State.setPort_host (s : State) (p : PortId) (x : Port) : (s.setPort p x).host = s.host := rfl
@[simp] theorem State.setPort_card (s : State) (p : PortId) (x : Port) : (s.setPort p x).card = s.card := rfl
@[simp] theorem State.setPort_setup (s : State) (p : PortId) (x : Port) : (s.setPort p x).setup = s.setup := rfl
@[simp] theorem State.setUnit_pending (s : State) (k n : Nat) (x : UnitReset) : (s.setUnit k n x).pending = s.pending := rfl
@[simp] theorem State.setUnit_out (s : State) (k n : Nat) (x : UnitReset) : (s.setUnit k n x).out = s.out := rfl
@[simp] theorem State.setUnit_free (s : State) (k n : Nat) (x : UnitReset) : (s.setUnit k n x).free = s.free := rfl
@[simp] theorem State.setUnit_tick (s : State) (k n : Nat) (x : UnitReset) : (s.setUnit k n x).tick = s.tick := rfl
@[simp] theorem State.setUnit_clusters (s : State) (k n : Nat) (x : UnitReset) : (s.setUnit k n x).clusters = s.clusters := rfl
@[simp] theorem State.setUnit_sched (s : State) (k n : Nat) (x : UnitReset) : (s.setUnit k n x).sched = s.sched := rfl
@[simp] theorem State.setUnit_memory (s : State) (k n : Nat) (x : UnitReset) : (s.setUnit k n x).memory = s.memory := rfl
@[simp] theorem State.setUnit_fabric (s : State) (k n : Nat) (x : UnitReset) : (s.setUnit k n x).fabric = s.fabric := rfl
@[simp] theorem State.setUnit_host (s : State) (k n : Nat) (x : UnitReset) : (s.setUnit k n x).host = s.host := rfl
@[simp] theorem State.setUnit_card (s : State) (k n : Nat) (x : UnitReset) : (s.setUnit k n x).card = s.card := rfl
@[simp] theorem State.setUnit_setup (s : State) (k n : Nat) (x : UnitReset) : (s.setUnit k n x).setup = s.setup := rfl
@[simp] theorem State.setMsix_pending (s : State) (f v : Nat) (x : Msix) : (s.setMsix f v x).pending = s.pending := rfl
@[simp] theorem State.setMsix_out (s : State) (f v : Nat) (x : Msix) : (s.setMsix f v x).out = s.out := rfl
@[simp] theorem State.setMsix_free (s : State) (f v : Nat) (x : Msix) : (s.setMsix f v x).free = s.free := rfl
@[simp] theorem State.setMsix_tick (s : State) (f v : Nat) (x : Msix) : (s.setMsix f v x).tick = s.tick := rfl
@[simp] theorem State.setMsix_clusters (s : State) (f v : Nat) (x : Msix) : (s.setMsix f v x).clusters = s.clusters := rfl
@[simp] theorem State.setMsix_sched (s : State) (f v : Nat) (x : Msix) : (s.setMsix f v x).sched = s.sched := rfl
@[simp] theorem State.setMsix_memory (s : State) (f v : Nat) (x : Msix) : (s.setMsix f v x).memory = s.memory := rfl
@[simp] theorem State.setMsix_integ (s : State) (f v : Nat) (x : Msix) : (s.setMsix f v x).integ = s.integ := rfl
@[simp] theorem State.setMsix_fabric (s : State) (f v : Nat) (x : Msix) : (s.setMsix f v x).fabric = s.fabric := rfl
@[simp] theorem State.setMsix_card (s : State) (f v : Nat) (x : Msix) : (s.setMsix f v x).card = s.card := rfl
@[simp] theorem State.setMsix_setup (s : State) (f v : Nat) (x : Msix) : (s.setMsix f v x).setup = s.setup := rfl
@[simp] theorem State.setReg_pending (s : State) (off : Nat) (v : W32) : (s.setReg off v).pending = s.pending := rfl
@[simp] theorem State.setReg_out (s : State) (off : Nat) (v : W32) : (s.setReg off v).out = s.out := rfl
@[simp] theorem State.setReg_free (s : State) (off : Nat) (v : W32) : (s.setReg off v).free = s.free := rfl
@[simp] theorem State.setReg_tick (s : State) (off : Nat) (v : W32) : (s.setReg off v).tick = s.tick := rfl
@[simp] theorem State.setReg_clusters (s : State) (off : Nat) (v : W32) : (s.setReg off v).clusters = s.clusters := rfl
@[simp] theorem State.setReg_sched (s : State) (off : Nat) (v : W32) : (s.setReg off v).sched = s.sched := rfl
@[simp] theorem State.setReg_memory (s : State) (off : Nat) (v : W32) : (s.setReg off v).memory = s.memory := rfl
@[simp] theorem State.setReg_integ (s : State) (off : Nat) (v : W32) : (s.setReg off v).integ = s.integ := rfl
@[simp] theorem State.setReg_fabric (s : State) (off : Nat) (v : W32) : (s.setReg off v).fabric = s.fabric := rfl
@[simp] theorem State.setReg_host (s : State) (off : Nat) (v : W32) : (s.setReg off v).host = s.host := rfl
@[simp] theorem State.setReg_card (s : State) (off : Nat) (v : W32) : (s.setReg off v).card = s.card := rfl
@[simp] theorem State.emit_pending (s : State) (o : Outbound) : (s.emit o).pending = s.pending := rfl
@[simp] theorem State.emit_free (s : State) (o : Outbound) : (s.emit o).free = s.free := rfl
@[simp] theorem State.emit_tick (s : State) (o : Outbound) : (s.emit o).tick = s.tick := rfl
@[simp] theorem State.emit_clusters (s : State) (o : Outbound) : (s.emit o).clusters = s.clusters := rfl
@[simp] theorem State.emit_sched (s : State) (o : Outbound) : (s.emit o).sched = s.sched := rfl
@[simp] theorem State.emit_memory (s : State) (o : Outbound) : (s.emit o).memory = s.memory := rfl
@[simp] theorem State.emit_integ (s : State) (o : Outbound) : (s.emit o).integ = s.integ := rfl
@[simp] theorem State.emit_fabric (s : State) (o : Outbound) : (s.emit o).fabric = s.fabric := rfl
@[simp] theorem State.emit_host (s : State) (o : Outbound) : (s.emit o).host = s.host := rfl
@[simp] theorem State.emit_card (s : State) (o : Outbound) : (s.emit o).card = s.card := rfl
@[simp] theorem State.emit_setup (s : State) (o : Outbound) : (s.emit o).setup = s.setup := rfl
@[simp] theorem State.withMem_pending (s : State) (m : Mem) : (s.withMem m).pending = s.pending := rfl
@[simp] theorem State.withMem_out (s : State) (m : Mem) : (s.withMem m).out = s.out := rfl
@[simp] theorem State.withMem_free (s : State) (m : Mem) : (s.withMem m).free = s.free := rfl
@[simp] theorem State.withMem_tick (s : State) (m : Mem) : (s.withMem m).tick = s.tick := rfl
@[simp] theorem State.withMem_clusters (s : State) (m : Mem) : (s.withMem m).clusters = s.clusters := rfl
@[simp] theorem State.withMem_sched (s : State) (m : Mem) : (s.withMem m).sched = s.sched := rfl
@[simp] theorem State.withMem_integ (s : State) (m : Mem) : (s.withMem m).integ = s.integ := rfl
@[simp] theorem State.withMem_fabric (s : State) (m : Mem) : (s.withMem m).fabric = s.fabric := rfl
@[simp] theorem State.withMem_host (s : State) (m : Mem) : (s.withMem m).host = s.host := rfl
@[simp] theorem State.withMem_card (s : State) (m : Mem) : (s.withMem m).card = s.card := rfl
@[simp] theorem State.withMem_setup (s : State) (m : Mem) : (s.withMem m).setup = s.setup := rfl
@[simp] theorem State.withL2_pending (s : State) (l : List L2Line) : (s.withL2 l).pending = s.pending := rfl
@[simp] theorem State.withL2_out (s : State) (l : List L2Line) : (s.withL2 l).out = s.out := rfl
@[simp] theorem State.withL2_free (s : State) (l : List L2Line) : (s.withL2 l).free = s.free := rfl
@[simp] theorem State.withL2_tick (s : State) (l : List L2Line) : (s.withL2 l).tick = s.tick := rfl
@[simp] theorem State.withL2_clusters (s : State) (l : List L2Line) : (s.withL2 l).clusters = s.clusters := rfl
@[simp] theorem State.withL2_sched (s : State) (l : List L2Line) : (s.withL2 l).sched = s.sched := rfl
@[simp] theorem State.withL2_integ (s : State) (l : List L2Line) : (s.withL2 l).integ = s.integ := rfl
@[simp] theorem State.withL2_fabric (s : State) (l : List L2Line) : (s.withL2 l).fabric = s.fabric := rfl
@[simp] theorem State.withL2_host (s : State) (l : List L2Line) : (s.withL2 l).host = s.host := rfl
@[simp] theorem State.withL2_card (s : State) (l : List L2Line) : (s.withL2 l).card = s.card := rfl
@[simp] theorem State.withL2_setup (s : State) (l : List L2Line) : (s.withL2 l).setup = s.setup := rfl
@[simp] theorem State.addLog_pending (s : State) (e : LogEntry) : (s.addLog e).pending = s.pending := rfl
@[simp] theorem State.addLog_out (s : State) (e : LogEntry) : (s.addLog e).out = s.out := rfl
@[simp] theorem State.addLog_free (s : State) (e : LogEntry) : (s.addLog e).free = s.free := rfl
@[simp] theorem State.addLog_tick (s : State) (e : LogEntry) : (s.addLog e).tick = s.tick := rfl
@[simp] theorem State.addLog_clusters (s : State) (e : LogEntry) : (s.addLog e).clusters = s.clusters := rfl
@[simp] theorem State.addLog_sched (s : State) (e : LogEntry) : (s.addLog e).sched = s.sched := rfl
@[simp] theorem State.addLog_memory (s : State) (e : LogEntry) : (s.addLog e).memory = s.memory := rfl
@[simp] theorem State.addLog_fabric (s : State) (e : LogEntry) : (s.addLog e).fabric = s.fabric := rfl
@[simp] theorem State.addLog_host (s : State) (e : LogEntry) : (s.addLog e).host = s.host := rfl
@[simp] theorem State.addLog_card (s : State) (e : LogEntry) : (s.addLog e).card = s.card := rfl
@[simp] theorem State.addLog_setup (s : State) (e : LogEntry) : (s.addLog e).setup = s.setup := rfl
@[simp] theorem State.modK_pending (s : State) (c : ClusterId) (f : Kestrel → Kestrel) : (s.modK c f).pending = s.pending := rfl
@[simp] theorem State.modK_out (s : State) (c : ClusterId) (f : Kestrel → Kestrel) : (s.modK c f).out = s.out := rfl
@[simp] theorem State.modK_free (s : State) (c : ClusterId) (f : Kestrel → Kestrel) : (s.modK c f).free = s.free := rfl
@[simp] theorem State.modK_tick (s : State) (c : ClusterId) (f : Kestrel → Kestrel) : (s.modK c f).tick = s.tick := rfl
@[simp] theorem State.modK_sched (s : State) (c : ClusterId) (f : Kestrel → Kestrel) : (s.modK c f).sched = s.sched := rfl
@[simp] theorem State.modK_memory (s : State) (c : ClusterId) (f : Kestrel → Kestrel) : (s.modK c f).memory = s.memory := rfl
@[simp] theorem State.modK_integ (s : State) (c : ClusterId) (f : Kestrel → Kestrel) : (s.modK c f).integ = s.integ := rfl
@[simp] theorem State.modK_fabric (s : State) (c : ClusterId) (f : Kestrel → Kestrel) : (s.modK c f).fabric = s.fabric := rfl
@[simp] theorem State.modK_host (s : State) (c : ClusterId) (f : Kestrel → Kestrel) : (s.modK c f).host = s.host := rfl
@[simp] theorem State.modK_card (s : State) (c : ClusterId) (f : Kestrel → Kestrel) : (s.modK c f).card = s.card := rfl
@[simp] theorem State.modK_setup (s : State) (c : ClusterId) (f : Kestrel → Kestrel) : (s.modK c f).setup = s.setup := rfl

/-! ### Units that an update leaves -/

@[simp] theorem State.setCluster_stream (s : State) (c : ClusterId) (x : Cluster) (d : StreamId) : (s.setCluster c x).stream d = s.stream d := rfl
@[simp] theorem State.setCluster_job (s : State) (c : ClusterId) (x : Cluster) (d : JobId) : (s.setCluster c x).job d = s.job d := rfl
@[simp] theorem State.setCluster_ring (s : State) (c : ClusterId) (x : Cluster) (d : RingId) : (s.setCluster c x).ring d = s.ring d := rfl
@[simp] theorem State.setCluster_space (s : State) (c : ClusterId) (x : Cluster) (d : Fin 1024) : (s.setCluster c x).space d = s.space d := rfl
@[simp] theorem State.setCluster_quad (s : State) (c : ClusterId) (x : Cluster) (d : QuadId) : (s.setCluster c x).quad d = s.quad d := rfl
@[simp] theorem State.setCluster_port (s : State) (c : ClusterId) (x : Cluster) (d : PortId) : (s.setCluster c x).port d = s.port d := rfl
@[simp] theorem State.setCluster_unit (s : State) (c : ClusterId) (x : Cluster) (d d2 : Nat) : (s.setCluster c x).unit d d2 = s.unit d d2 := rfl
@[simp] theorem State.setCluster_msix (s : State) (c : ClusterId) (x : Cluster) (d d2 : Nat) : (s.setCluster c x).msix d d2 = s.msix d d2 := rfl
@[simp] theorem State.setCluster_reg (s : State) (c : ClusterId) (x : Cluster) (d : Nat) : (s.setCluster c x).reg d = s.reg d := rfl
@[simp] theorem State.modCluster_stream (s : State) (c : ClusterId) (f : Cluster → Cluster) (d : StreamId) : (s.modCluster c f).stream d = s.stream d := rfl
@[simp] theorem State.modCluster_job (s : State) (c : ClusterId) (f : Cluster → Cluster) (d : JobId) : (s.modCluster c f).job d = s.job d := rfl
@[simp] theorem State.modCluster_ring (s : State) (c : ClusterId) (f : Cluster → Cluster) (d : RingId) : (s.modCluster c f).ring d = s.ring d := rfl
@[simp] theorem State.modCluster_space (s : State) (c : ClusterId) (f : Cluster → Cluster) (d : Fin 1024) : (s.modCluster c f).space d = s.space d := rfl
@[simp] theorem State.modCluster_quad (s : State) (c : ClusterId) (f : Cluster → Cluster) (d : QuadId) : (s.modCluster c f).quad d = s.quad d := rfl
@[simp] theorem State.modCluster_port (s : State) (c : ClusterId) (f : Cluster → Cluster) (d : PortId) : (s.modCluster c f).port d = s.port d := rfl
@[simp] theorem State.modCluster_unit (s : State) (c : ClusterId) (f : Cluster → Cluster) (d d2 : Nat) : (s.modCluster c f).unit d d2 = s.unit d d2 := rfl
@[simp] theorem State.modCluster_msix (s : State) (c : ClusterId) (f : Cluster → Cluster) (d d2 : Nat) : (s.modCluster c f).msix d d2 = s.msix d d2 := rfl
@[simp] theorem State.modCluster_reg (s : State) (c : ClusterId) (f : Cluster → Cluster) (d : Nat) : (s.modCluster c f).reg d = s.reg d := rfl
@[simp] theorem State.setStream_cluster (s : State) (st : StreamId) (x : Stream) (d : ClusterId) : (s.setStream st x).cluster d = s.cluster d := rfl
@[simp] theorem State.setStream_job (s : State) (st : StreamId) (x : Stream) (d : JobId) : (s.setStream st x).job d = s.job d := rfl
@[simp] theorem State.setStream_ring (s : State) (st : StreamId) (x : Stream) (d : RingId) : (s.setStream st x).ring d = s.ring d := rfl
@[simp] theorem State.setStream_space (s : State) (st : StreamId) (x : Stream) (d : Fin 1024) : (s.setStream st x).space d = s.space d := rfl
@[simp] theorem State.setStream_quad (s : State) (st : StreamId) (x : Stream) (d : QuadId) : (s.setStream st x).quad d = s.quad d := rfl
@[simp] theorem State.setStream_port (s : State) (st : StreamId) (x : Stream) (d : PortId) : (s.setStream st x).port d = s.port d := rfl
@[simp] theorem State.setStream_unit (s : State) (st : StreamId) (x : Stream) (d d2 : Nat) : (s.setStream st x).unit d d2 = s.unit d d2 := rfl
@[simp] theorem State.setStream_msix (s : State) (st : StreamId) (x : Stream) (d d2 : Nat) : (s.setStream st x).msix d d2 = s.msix d d2 := rfl
@[simp] theorem State.setStream_reg (s : State) (st : StreamId) (x : Stream) (d : Nat) : (s.setStream st x).reg d = s.reg d := rfl
@[simp] theorem State.setJob_cluster (s : State) (j : JobId) (x : Option Job) (d : ClusterId) : (s.setJob j x).cluster d = s.cluster d := rfl
@[simp] theorem State.setJob_stream (s : State) (j : JobId) (x : Option Job) (d : StreamId) : (s.setJob j x).stream d = s.stream d := rfl
@[simp] theorem State.setJob_ring (s : State) (j : JobId) (x : Option Job) (d : RingId) : (s.setJob j x).ring d = s.ring d := rfl
@[simp] theorem State.setJob_space (s : State) (j : JobId) (x : Option Job) (d : Fin 1024) : (s.setJob j x).space d = s.space d := rfl
@[simp] theorem State.setJob_quad (s : State) (j : JobId) (x : Option Job) (d : QuadId) : (s.setJob j x).quad d = s.quad d := rfl
@[simp] theorem State.setJob_port (s : State) (j : JobId) (x : Option Job) (d : PortId) : (s.setJob j x).port d = s.port d := rfl
@[simp] theorem State.setJob_unit (s : State) (j : JobId) (x : Option Job) (d d2 : Nat) : (s.setJob j x).unit d d2 = s.unit d d2 := rfl
@[simp] theorem State.setJob_msix (s : State) (j : JobId) (x : Option Job) (d d2 : Nat) : (s.setJob j x).msix d d2 = s.msix d d2 := rfl
@[simp] theorem State.setJob_reg (s : State) (j : JobId) (x : Option Job) (d : Nat) : (s.setJob j x).reg d = s.reg d := rfl
@[simp] theorem State.setRing_cluster (s : State) (r : RingId) (x : Ring) (d : ClusterId) : (s.setRing r x).cluster d = s.cluster d := rfl
@[simp] theorem State.setRing_stream (s : State) (r : RingId) (x : Ring) (d : StreamId) : (s.setRing r x).stream d = s.stream d := rfl
@[simp] theorem State.setRing_job (s : State) (r : RingId) (x : Ring) (d : JobId) : (s.setRing r x).job d = s.job d := rfl
@[simp] theorem State.setRing_space (s : State) (r : RingId) (x : Ring) (d : Fin 1024) : (s.setRing r x).space d = s.space d := rfl
@[simp] theorem State.setRing_quad (s : State) (r : RingId) (x : Ring) (d : QuadId) : (s.setRing r x).quad d = s.quad d := rfl
@[simp] theorem State.setRing_port (s : State) (r : RingId) (x : Ring) (d : PortId) : (s.setRing r x).port d = s.port d := rfl
@[simp] theorem State.setRing_unit (s : State) (r : RingId) (x : Ring) (d d2 : Nat) : (s.setRing r x).unit d d2 = s.unit d d2 := rfl
@[simp] theorem State.setRing_msix (s : State) (r : RingId) (x : Ring) (d d2 : Nat) : (s.setRing r x).msix d d2 = s.msix d d2 := rfl
@[simp] theorem State.setRing_reg (s : State) (r : RingId) (x : Ring) (d : Nat) : (s.setRing r x).reg d = s.reg d := rfl
@[simp] theorem State.setSpace_cluster (s : State) (a : Fin 1024) (x : Space) (d : ClusterId) : (s.setSpace a x).cluster d = s.cluster d := rfl
@[simp] theorem State.setSpace_stream (s : State) (a : Fin 1024) (x : Space) (d : StreamId) : (s.setSpace a x).stream d = s.stream d := rfl
@[simp] theorem State.setSpace_job (s : State) (a : Fin 1024) (x : Space) (d : JobId) : (s.setSpace a x).job d = s.job d := rfl
@[simp] theorem State.setSpace_ring (s : State) (a : Fin 1024) (x : Space) (d : RingId) : (s.setSpace a x).ring d = s.ring d := rfl
@[simp] theorem State.setSpace_quad (s : State) (a : Fin 1024) (x : Space) (d : QuadId) : (s.setSpace a x).quad d = s.quad d := rfl
@[simp] theorem State.setSpace_port (s : State) (a : Fin 1024) (x : Space) (d : PortId) : (s.setSpace a x).port d = s.port d := rfl
@[simp] theorem State.setSpace_unit (s : State) (a : Fin 1024) (x : Space) (d d2 : Nat) : (s.setSpace a x).unit d d2 = s.unit d d2 := rfl
@[simp] theorem State.setSpace_msix (s : State) (a : Fin 1024) (x : Space) (d d2 : Nat) : (s.setSpace a x).msix d d2 = s.msix d d2 := rfl
@[simp] theorem State.setSpace_reg (s : State) (a : Fin 1024) (x : Space) (d : Nat) : (s.setSpace a x).reg d = s.reg d := rfl
@[simp] theorem State.setQuad_cluster (s : State) (q : QuadId) (x : Quad) (d : ClusterId) : (s.setQuad q x).cluster d = s.cluster d := rfl
@[simp] theorem State.setQuad_stream (s : State) (q : QuadId) (x : Quad) (d : StreamId) : (s.setQuad q x).stream d = s.stream d := rfl
@[simp] theorem State.setQuad_job (s : State) (q : QuadId) (x : Quad) (d : JobId) : (s.setQuad q x).job d = s.job d := rfl
@[simp] theorem State.setQuad_ring (s : State) (q : QuadId) (x : Quad) (d : RingId) : (s.setQuad q x).ring d = s.ring d := rfl
@[simp] theorem State.setQuad_space (s : State) (q : QuadId) (x : Quad) (d : Fin 1024) : (s.setQuad q x).space d = s.space d := rfl
@[simp] theorem State.setQuad_port (s : State) (q : QuadId) (x : Quad) (d : PortId) : (s.setQuad q x).port d = s.port d := rfl
@[simp] theorem State.setQuad_unit (s : State) (q : QuadId) (x : Quad) (d d2 : Nat) : (s.setQuad q x).unit d d2 = s.unit d d2 := rfl
@[simp] theorem State.setQuad_msix (s : State) (q : QuadId) (x : Quad) (d d2 : Nat) : (s.setQuad q x).msix d d2 = s.msix d d2 := rfl
@[simp] theorem State.setQuad_reg (s : State) (q : QuadId) (x : Quad) (d : Nat) : (s.setQuad q x).reg d = s.reg d := rfl
@[simp] theorem State.setPort_cluster (s : State) (p : PortId) (x : Port) (d : ClusterId) : (s.setPort p x).cluster d = s.cluster d := rfl
@[simp] theorem State.setPort_stream (s : State) (p : PortId) (x : Port) (d : StreamId) : (s.setPort p x).stream d = s.stream d := rfl
@[simp] theorem State.setPort_job (s : State) (p : PortId) (x : Port) (d : JobId) : (s.setPort p x).job d = s.job d := rfl
@[simp] theorem State.setPort_ring (s : State) (p : PortId) (x : Port) (d : RingId) : (s.setPort p x).ring d = s.ring d := rfl
@[simp] theorem State.setPort_space (s : State) (p : PortId) (x : Port) (d : Fin 1024) : (s.setPort p x).space d = s.space d := rfl
@[simp] theorem State.setPort_quad (s : State) (p : PortId) (x : Port) (d : QuadId) : (s.setPort p x).quad d = s.quad d := rfl
@[simp] theorem State.setPort_unit (s : State) (p : PortId) (x : Port) (d d2 : Nat) : (s.setPort p x).unit d d2 = s.unit d d2 := rfl
@[simp] theorem State.setPort_msix (s : State) (p : PortId) (x : Port) (d d2 : Nat) : (s.setPort p x).msix d d2 = s.msix d d2 := rfl
@[simp] theorem State.setPort_reg (s : State) (p : PortId) (x : Port) (d : Nat) : (s.setPort p x).reg d = s.reg d := rfl
@[simp] theorem State.setUnit_cluster (s : State) (k n : Nat) (x : UnitReset) (d : ClusterId) : (s.setUnit k n x).cluster d = s.cluster d := rfl
@[simp] theorem State.setUnit_stream (s : State) (k n : Nat) (x : UnitReset) (d : StreamId) : (s.setUnit k n x).stream d = s.stream d := rfl
@[simp] theorem State.setUnit_job (s : State) (k n : Nat) (x : UnitReset) (d : JobId) : (s.setUnit k n x).job d = s.job d := rfl
@[simp] theorem State.setUnit_ring (s : State) (k n : Nat) (x : UnitReset) (d : RingId) : (s.setUnit k n x).ring d = s.ring d := rfl
@[simp] theorem State.setUnit_space (s : State) (k n : Nat) (x : UnitReset) (d : Fin 1024) : (s.setUnit k n x).space d = s.space d := rfl
@[simp] theorem State.setUnit_quad (s : State) (k n : Nat) (x : UnitReset) (d : QuadId) : (s.setUnit k n x).quad d = s.quad d := rfl
@[simp] theorem State.setUnit_port (s : State) (k n : Nat) (x : UnitReset) (d : PortId) : (s.setUnit k n x).port d = s.port d := rfl
@[simp] theorem State.setUnit_msix (s : State) (k n : Nat) (x : UnitReset) (d d2 : Nat) : (s.setUnit k n x).msix d d2 = s.msix d d2 := rfl
@[simp] theorem State.setUnit_reg (s : State) (k n : Nat) (x : UnitReset) (d : Nat) : (s.setUnit k n x).reg d = s.reg d := rfl
@[simp] theorem State.setMsix_cluster (s : State) (f v : Nat) (x : Msix) (d : ClusterId) : (s.setMsix f v x).cluster d = s.cluster d := rfl
@[simp] theorem State.setMsix_stream (s : State) (f v : Nat) (x : Msix) (d : StreamId) : (s.setMsix f v x).stream d = s.stream d := rfl
@[simp] theorem State.setMsix_job (s : State) (f v : Nat) (x : Msix) (d : JobId) : (s.setMsix f v x).job d = s.job d := rfl
@[simp] theorem State.setMsix_ring (s : State) (f v : Nat) (x : Msix) (d : RingId) : (s.setMsix f v x).ring d = s.ring d := rfl
@[simp] theorem State.setMsix_space (s : State) (f v : Nat) (x : Msix) (d : Fin 1024) : (s.setMsix f v x).space d = s.space d := rfl
@[simp] theorem State.setMsix_quad (s : State) (f v : Nat) (x : Msix) (d : QuadId) : (s.setMsix f v x).quad d = s.quad d := rfl
@[simp] theorem State.setMsix_port (s : State) (f v : Nat) (x : Msix) (d : PortId) : (s.setMsix f v x).port d = s.port d := rfl
@[simp] theorem State.setMsix_unit (s : State) (f v : Nat) (x : Msix) (d d2 : Nat) : (s.setMsix f v x).unit d d2 = s.unit d d2 := rfl
@[simp] theorem State.setMsix_reg (s : State) (f v : Nat) (x : Msix) (d : Nat) : (s.setMsix f v x).reg d = s.reg d := rfl
@[simp] theorem State.setReg_cluster (s : State) (off : Nat) (v : W32) (d : ClusterId) : (s.setReg off v).cluster d = s.cluster d := rfl
@[simp] theorem State.setReg_stream (s : State) (off : Nat) (v : W32) (d : StreamId) : (s.setReg off v).stream d = s.stream d := rfl
@[simp] theorem State.setReg_job (s : State) (off : Nat) (v : W32) (d : JobId) : (s.setReg off v).job d = s.job d := rfl
@[simp] theorem State.setReg_ring (s : State) (off : Nat) (v : W32) (d : RingId) : (s.setReg off v).ring d = s.ring d := rfl
@[simp] theorem State.setReg_space (s : State) (off : Nat) (v : W32) (d : Fin 1024) : (s.setReg off v).space d = s.space d := rfl
@[simp] theorem State.setReg_quad (s : State) (off : Nat) (v : W32) (d : QuadId) : (s.setReg off v).quad d = s.quad d := rfl
@[simp] theorem State.setReg_port (s : State) (off : Nat) (v : W32) (d : PortId) : (s.setReg off v).port d = s.port d := rfl
@[simp] theorem State.setReg_unit (s : State) (off : Nat) (v : W32) (d d2 : Nat) : (s.setReg off v).unit d d2 = s.unit d d2 := rfl
@[simp] theorem State.setReg_msix (s : State) (off : Nat) (v : W32) (d d2 : Nat) : (s.setReg off v).msix d d2 = s.msix d d2 := rfl
@[simp] theorem State.emit_cluster (s : State) (o : Outbound) (d : ClusterId) : (s.emit o).cluster d = s.cluster d := rfl
@[simp] theorem State.emit_stream (s : State) (o : Outbound) (d : StreamId) : (s.emit o).stream d = s.stream d := rfl
@[simp] theorem State.emit_job (s : State) (o : Outbound) (d : JobId) : (s.emit o).job d = s.job d := rfl
@[simp] theorem State.emit_ring (s : State) (o : Outbound) (d : RingId) : (s.emit o).ring d = s.ring d := rfl
@[simp] theorem State.emit_space (s : State) (o : Outbound) (d : Fin 1024) : (s.emit o).space d = s.space d := rfl
@[simp] theorem State.emit_quad (s : State) (o : Outbound) (d : QuadId) : (s.emit o).quad d = s.quad d := rfl
@[simp] theorem State.emit_port (s : State) (o : Outbound) (d : PortId) : (s.emit o).port d = s.port d := rfl
@[simp] theorem State.emit_unit (s : State) (o : Outbound) (d d2 : Nat) : (s.emit o).unit d d2 = s.unit d d2 := rfl
@[simp] theorem State.emit_msix (s : State) (o : Outbound) (d d2 : Nat) : (s.emit o).msix d d2 = s.msix d d2 := rfl
@[simp] theorem State.emit_reg (s : State) (o : Outbound) (d : Nat) : (s.emit o).reg d = s.reg d := rfl
@[simp] theorem State.withMem_cluster (s : State) (m : Mem) (d : ClusterId) : (s.withMem m).cluster d = s.cluster d := rfl
@[simp] theorem State.withMem_stream (s : State) (m : Mem) (d : StreamId) : (s.withMem m).stream d = s.stream d := rfl
@[simp] theorem State.withMem_job (s : State) (m : Mem) (d : JobId) : (s.withMem m).job d = s.job d := rfl
@[simp] theorem State.withMem_ring (s : State) (m : Mem) (d : RingId) : (s.withMem m).ring d = s.ring d := rfl
@[simp] theorem State.withMem_space (s : State) (m : Mem) (d : Fin 1024) : (s.withMem m).space d = s.space d := rfl
@[simp] theorem State.withMem_quad (s : State) (m : Mem) (d : QuadId) : (s.withMem m).quad d = s.quad d := rfl
@[simp] theorem State.withMem_port (s : State) (m : Mem) (d : PortId) : (s.withMem m).port d = s.port d := rfl
@[simp] theorem State.withMem_unit (s : State) (m : Mem) (d d2 : Nat) : (s.withMem m).unit d d2 = s.unit d d2 := rfl
@[simp] theorem State.withMem_msix (s : State) (m : Mem) (d d2 : Nat) : (s.withMem m).msix d d2 = s.msix d d2 := rfl
@[simp] theorem State.withMem_reg (s : State) (m : Mem) (d : Nat) : (s.withMem m).reg d = s.reg d := rfl
@[simp] theorem State.withL2_cluster (s : State) (l : List L2Line) (d : ClusterId) : (s.withL2 l).cluster d = s.cluster d := rfl
@[simp] theorem State.withL2_stream (s : State) (l : List L2Line) (d : StreamId) : (s.withL2 l).stream d = s.stream d := rfl
@[simp] theorem State.withL2_job (s : State) (l : List L2Line) (d : JobId) : (s.withL2 l).job d = s.job d := rfl
@[simp] theorem State.withL2_ring (s : State) (l : List L2Line) (d : RingId) : (s.withL2 l).ring d = s.ring d := rfl
@[simp] theorem State.withL2_space (s : State) (l : List L2Line) (d : Fin 1024) : (s.withL2 l).space d = s.space d := rfl
@[simp] theorem State.withL2_quad (s : State) (l : List L2Line) (d : QuadId) : (s.withL2 l).quad d = s.quad d := rfl
@[simp] theorem State.withL2_port (s : State) (l : List L2Line) (d : PortId) : (s.withL2 l).port d = s.port d := rfl
@[simp] theorem State.withL2_unit (s : State) (l : List L2Line) (d d2 : Nat) : (s.withL2 l).unit d d2 = s.unit d d2 := rfl
@[simp] theorem State.withL2_msix (s : State) (l : List L2Line) (d d2 : Nat) : (s.withL2 l).msix d d2 = s.msix d d2 := rfl
@[simp] theorem State.withL2_reg (s : State) (l : List L2Line) (d : Nat) : (s.withL2 l).reg d = s.reg d := rfl
@[simp] theorem State.addLog_cluster (s : State) (e : LogEntry) (d : ClusterId) : (s.addLog e).cluster d = s.cluster d := rfl
@[simp] theorem State.addLog_stream (s : State) (e : LogEntry) (d : StreamId) : (s.addLog e).stream d = s.stream d := rfl
@[simp] theorem State.addLog_job (s : State) (e : LogEntry) (d : JobId) : (s.addLog e).job d = s.job d := rfl
@[simp] theorem State.addLog_ring (s : State) (e : LogEntry) (d : RingId) : (s.addLog e).ring d = s.ring d := rfl
@[simp] theorem State.addLog_space (s : State) (e : LogEntry) (d : Fin 1024) : (s.addLog e).space d = s.space d := rfl
@[simp] theorem State.addLog_quad (s : State) (e : LogEntry) (d : QuadId) : (s.addLog e).quad d = s.quad d := rfl
@[simp] theorem State.addLog_port (s : State) (e : LogEntry) (d : PortId) : (s.addLog e).port d = s.port d := rfl
@[simp] theorem State.addLog_unit (s : State) (e : LogEntry) (d d2 : Nat) : (s.addLog e).unit d d2 = s.unit d d2 := rfl
@[simp] theorem State.addLog_msix (s : State) (e : LogEntry) (d d2 : Nat) : (s.addLog e).msix d d2 = s.msix d d2 := rfl
@[simp] theorem State.addLog_reg (s : State) (e : LogEntry) (d : Nat) : (s.addLog e).reg d = s.reg d := rfl
@[simp] theorem State.modK_stream (s : State) (c : ClusterId) (f : Kestrel → Kestrel) (d : StreamId) : (s.modK c f).stream d = s.stream d := rfl
@[simp] theorem State.modK_job (s : State) (c : ClusterId) (f : Kestrel → Kestrel) (d : JobId) : (s.modK c f).job d = s.job d := rfl
@[simp] theorem State.modK_ring (s : State) (c : ClusterId) (f : Kestrel → Kestrel) (d : RingId) : (s.modK c f).ring d = s.ring d := rfl
@[simp] theorem State.modK_space (s : State) (c : ClusterId) (f : Kestrel → Kestrel) (d : Fin 1024) : (s.modK c f).space d = s.space d := rfl
@[simp] theorem State.modK_quad (s : State) (c : ClusterId) (f : Kestrel → Kestrel) (d : QuadId) : (s.modK c f).quad d = s.quad d := rfl
@[simp] theorem State.modK_port (s : State) (c : ClusterId) (f : Kestrel → Kestrel) (d : PortId) : (s.modK c f).port d = s.port d := rfl
@[simp] theorem State.modK_unit (s : State) (c : ClusterId) (f : Kestrel → Kestrel) (d d2 : Nat) : (s.modK c f).unit d d2 = s.unit d d2 := rfl
@[simp] theorem State.modK_msix (s : State) (c : ClusterId) (f : Kestrel → Kestrel) (d d2 : Nat) : (s.modK c f).msix d d2 = s.msix d d2 := rfl
@[simp] theorem State.modK_reg (s : State) (c : ClusterId) (f : Kestrel → Kestrel) (d : Nat) : (s.modK c f).reg d = s.reg d := rfl

/-! ### The unit just set, and the others -/

@[simp] theorem State.setCluster_cluster_self (s : State) (c : ClusterId) (x : Cluster) : (s.setCluster c x).cluster c = x :=
  Table.get_set_self _ _ _ _
theorem State.setCluster_cluster_ne (s : State) (c : ClusterId) (x : Cluster) (d : ClusterId) (h : d ≠ c) : (s.setCluster c x).cluster d = s.cluster d :=
  Table.get_set_ne _ _ _ _ _ (fun e => h (Fin.ext e))
@[simp] theorem State.setStream_stream_self (s : State) (st : StreamId) (x : Stream) : (s.setStream st x).stream st = x :=
  Table.get_set_self _ _ _ _
theorem State.setStream_stream_ne (s : State) (st : StreamId) (x : Stream) (d : StreamId) (h : d ≠ st) : (s.setStream st x).stream d = s.stream d :=
  Table.get_set_ne _ _ _ _ _ (fun e => h (Fin.ext e))
@[simp] theorem State.setJob_job_self (s : State) (j : JobId) (x : Option Job) : (s.setJob j x).job j = x :=
  Table.get_set_self _ _ _ _
theorem State.setJob_job_ne (s : State) (j : JobId) (x : Option Job) (d : JobId) (h : d ≠ j) : (s.setJob j x).job d = s.job d :=
  Table.get_set_ne _ _ _ _ _ (fun e => h (Fin.ext e))
@[simp] theorem State.setRing_ring_self (s : State) (r : RingId) (x : Ring) : (s.setRing r x).ring r = x :=
  Table.get_set_self _ _ _ _
theorem State.setRing_ring_ne (s : State) (r : RingId) (x : Ring) (d : RingId) (h : d ≠ r) : (s.setRing r x).ring d = s.ring d :=
  Table.get_set_ne _ _ _ _ _ (fun e => h (Fin.ext e))
@[simp] theorem State.setSpace_space_self (s : State) (a : Fin 1024) (x : Space) : (s.setSpace a x).space a = x :=
  Table.get_set_self _ _ _ _
theorem State.setSpace_space_ne (s : State) (a : Fin 1024) (x : Space) (d : Fin 1024) (h : d ≠ a) : (s.setSpace a x).space d = s.space d :=
  Table.get_set_ne _ _ _ _ _ (fun e => h (Fin.ext e))
@[simp] theorem State.setQuad_quad_self (s : State) (q : QuadId) (x : Quad) : (s.setQuad q x).quad q = x :=
  Table.get_set_self _ _ _ _
theorem State.setQuad_quad_ne (s : State) (q : QuadId) (x : Quad) (d : QuadId) (h : d ≠ q) : (s.setQuad q x).quad d = s.quad d :=
  Table.get_set_ne _ _ _ _ _ (fun e => h (Fin.ext e))
@[simp] theorem State.setPort_port_self (s : State) (p : PortId) (x : Port) : (s.setPort p x).port p = x :=
  Table.get_set_self _ _ _ _
theorem State.setPort_port_ne (s : State) (p : PortId) (x : Port) (d : PortId) (h : d ≠ p) : (s.setPort p x).port d = s.port d :=
  Table.get_set_ne _ _ _ _ _ (fun e => h (Fin.ext e))
@[simp] theorem State.setReg_reg_self (s : State) (off : Nat) (v : W32) : (s.setReg off v).reg off = v :=
  Table.get_set_self _ _ _ _
theorem State.setReg_reg_ne (s : State) (off : Nat) (v : W32) (d : Nat) (h : d ≠ off) : (s.setReg off v).reg d = s.reg d :=
  Table.get_set_ne _ _ _ _ _ h
@[simp] theorem State.setUnit_unit_self (s : State) (k n : Nat) (x : UnitReset) : (s.setUnit k n x).unit k n = x :=
  Table.get_set_self _ _ _ _
@[simp] theorem State.setMsix_msix_self (s : State) (f v : Nat) (x : Msix) : (s.setMsix f v x).msix f v = x :=
  Table.get_set_self _ _ _ _
@[simp] theorem State.modCluster_cluster_self (s : State) (c : ClusterId) (f : Cluster → Cluster) :
    (s.modCluster c f).cluster c = f (s.cluster c) := State.setCluster_cluster_self _ _ _
theorem State.modCluster_cluster_ne (s : State) (c d : ClusterId) (f : Cluster → Cluster) (h : d ≠ c) :
    (s.modCluster c f).cluster d = s.cluster d := State.setCluster_cluster_ne _ _ _ _ h
@[simp] theorem State.modK_cluster_self (s : State) (c : ClusterId) (f : Kestrel → Kestrel) :
    (s.modK c f).cluster c = { s.cluster c with k := f (s.cluster c).k } := State.setCluster_cluster_self _ _ _
theorem State.modK_cluster_ne (s : State) (c d : ClusterId) (f : Kestrel → Kestrel) (h : d ≠ c) :
    (s.modK c f).cluster d = s.cluster d := State.setCluster_cluster_ne _ _ _ _ h
@[simp] theorem State.modK_kestrel_self (s : State) (c : ClusterId) (f : Kestrel → Kestrel) :
    (s.modK c f).kestrel c = f (s.kestrel c) := by
  simp [State.kestrel]
theorem State.modK_kestrel_ne (s : State) (c d : ClusterId) (f : Kestrel → Kestrel) (h : d ≠ c) :
    (s.modK c f).kestrel d = s.kestrel d := by
  simp [State.kestrel, State.modK_cluster_ne _ _ _ _ h]

/-! ### Registers of a cluster -/

/-- g0 reads as zero (R96). -/
@[simp] theorem Kestrel.get_zero (k : Kestrel) : k.get 0 = 0 := rfl
/-- What a scalar register reads as after a write of one: g0 discards it (R96). -/
theorem Kestrel.get_set (k : Kestrel) (r q : BitVec 5) (v : Word) :
    (k.set r v).get q = if q = r ∧ r ≠ 0 then v else k.get q := by
  by_cases hr : r = 0
  · simp [Kestrel.set, hr]
  · unfold Kestrel.set Kestrel.get
    rw [if_neg hr]
    by_cases e : q = r
    · subst e
      rw [if_neg hr, if_pos ⟨rfl, hr⟩]
      exact Table.get_set_self _ _ _ _
    · have hn : q.toNat ≠ r.toNat := fun x => e (BitVec.eq_of_toNat_eq x)
      simp [e, Table.get_set_ne _ _ _ _ _ hn]
/-- A write of a scalar register changes nothing else of the Kestrel. -/
theorem Kestrel.set_rest (k : Kestrel) (r : BitVec 5) (v : Word) : { k.set r v with g := k.g } = k := by
  unfold Kestrel.set
  split <;> rfl
@[simp] theorem Kestrel.set_pc (k : Kestrel) (r : BitVec 5) (v : Word) : (k.set r v).pc = k.pc := by
  unfold Kestrel.set
  split <;> rfl
@[simp] theorem Harrier.setReg_reg_self (h : Harrier) (n : Nat) (x : BitVec 16384) : (h.setReg n x).reg n = x :=
  Table.get_set_self _ _ _ _
theorem Harrier.setReg_reg_ne (h : Harrier) (n m : Nat) (x : BitVec 16384) (e : m ≠ n) : (h.setReg n x).reg m = h.reg m :=
  Table.get_set_ne _ _ _ _ _ e
@[simp] theorem Harrier.setPred_pred_self (h : Harrier) (n : Nat) (x : BitVec 2048) : (h.setPred n x).pred n = x :=
  Table.get_set_self _ _ _ _
theorem Harrier.setPred_pred_ne (h : Harrier) (n m : Nat) (x : BitVec 2048) (e : m ≠ n) : (h.setPred n x).pred m = h.pred m :=
  Table.get_set_ne _ _ _ _ _ e
@[simp] theorem Harrier.setSlot_slot_self (h : Harrier) (n : Nat) (x : AmaxSlot) : (h.setSlot n x).slot n = x :=
  Table.get_set_self _ _ _ _
theorem Harrier.setSlot_slot_ne (h : Harrier) (n m : Nat) (x : AmaxSlot) (e : m ≠ n) : (h.setSlot n x).slot m = h.slot m :=
  Table.get_set_ne _ _ _ _ _ e
@[simp] theorem Hearth.setTile_tile_self (m : Hearth) (n : Nat) (x : BitVec 131072) : (m.setTile n x).tile n = x :=
  Table.get_set_self _ _ _ _
theorem Hearth.setTile_tile_ne (m : Hearth) (n k : Nat) (x : BitVec 131072) (e : k ≠ n) : (m.setTile n x).tile k = m.tile k :=
  Table.get_set_ne _ _ _ _ _ e

end Sys2Proof.Machine
end

