-- ==== Sys2Proof/Laws/Issue.lean ====
section
/-! SUPPORT. The shared operations under a Kestrel's instructions: issue and fetch, the register write, the PC, whole-word writes of
the cluster store, and the shadow-stack push. -/
namespace Sys2Proof.Machine

/-- Setting a key twice is setting it once. -/
theorem Table.set_set {β : Type} (t : Table β) (k : Nat) (a b : β) : Table.set (Table.set t k a) k b = Table.set t k b := by
  induction t with
  | nil => simp [Table.set]
  | cons e t ih =>
    obtain ⟨k', v'⟩ := e
    simp only [Table.set]
    split
    · rename_i h
      simp [Table.set]
    · split
      · simp [Table.set]
      · rename_i h1 h2
        simp [Table.set, h1, h2, ih]

/-- The later of two writes of a cluster stands. -/
theorem State.setCluster_set (s : State) (c : ClusterId) (x y : Cluster) :
    (s.setCluster c x).setCluster c y = s.setCluster c y := by
  simp [State.setCluster, Table.set_set]

/-- A cluster in which no fault waits holds no marks and no upsets. -/
theorem Cluster.sound_parts {x : Cluster} (h : x.sound = true) : x.marks = [] ∧ x.upsets = [] := by
  simpa [Cluster.sound] using h

/-- A read of a sound cluster's structures meets no error (R344). -/
theorem State.readMarks_sound {s : State} {c : ClusterId} (h : (s.cluster c).sound = true) (p : EccMark → Bool) :
    s.readMarks c p = (none, s) := by
  simp [State.readMarks, (Cluster.sound_parts h).1]

/-- A sound cluster has no marks to clear. -/
theorem State.clearMarks_sound {s : State} {c : ClusterId} (h : (s.cluster c).sound = true) (p : EccMark → Bool) :
    s.clearMarks c p = s := by
  simp [State.clearMarks, (Cluster.sound_parts h).1]

/-- A sound cluster's datapaths give their results as they are (R343). -/
theorem State.strike_sound {s : State} {c : ClusterId} (h : (s.cluster c).sound = true) (rows : List Nat) (v : Nat)
    (holds : Nat → Nat → Bool) : s.strike c rows v holds = (v, false, s) := by
  simp [State.strike, State.upset, (Cluster.sound_parts h).2]

/-- A checked result of a sound cluster goes on as it is. -/
theorem State.checked_sound {s : State} {c : ClusterId} (h : (s.cluster c).sound = true) (rows : List Nat) (v : Word)
    (holds : Nat → Nat → Bool) (f : Word → State → State) : s.checked c rows v holds f = f v s := by
  simp [State.checked, State.strike_sound h]

/-- What an instruction does once its fetch has answered. -/
theorem State.issue_of {s s1 : State} {c : ClusterId} {n : Nat} (h : Issues s c n s1) (f : State → State)
    (reads : List (BitVec 5) := []) : s.issue c n f reads = f s1 := by
  simp [State.issue, State.withRegs, h.1, h.2.1, State.readMarks_sound h.2.2]

/-- A Kestrel that cannot issue does nothing. -/
theorem State.issue_not {s : State} {c : ClusterId} (h : s.canIssue c = false) (n : Nat) (f : State → State) :
    s.issue c n f = s := by
  simp [State.issue, h]

/-- A fetch from the vector window leaves the state. -/
theorem State.fetch_window {s : State} {c : ClusterId} {n : Nat} (hw : windowBase ≤ (s.kestrel c).pc.toNat)
    (ha : (s.kestrel c).pc.toNat % n = 0)
    (hf : (s.cluster c).windowFails ((s.kestrel c).pc.toNat - windowBase) n = none) (hs : (s.cluster c).sound = true) :
    s.fetch c n = (true, s) := by
  simp [State.fetch, hw, ha, hf, State.readMarks_sound hs]

/-- A change of one cluster's Kestrel is that. -/
theorem State.modK_only (s : State) (c : ClusterId) (f : Kestrel → Kestrel) : OnlyKestrel c s (s.modK c f) := by
  refine ⟨⟨rfl, fun d h => State.modK_cluster_ne _ _ _ _ h⟩, ?_⟩
  simp [State.kestrel]

/-- The register write: everything it does. -/
theorem State.writeReg_writes {s : State} {c : ClusterId} (hs : (s.cluster c).sound = true) (rd : BitVec 5) (v : Word) (n : Nat) :
    WritesReg c rd v n s (s.writeReg c rd v n) := by
  rw [State.writeReg, State.clearMarks_sound hs]
  refine ⟨?_, ?_, ?_, ?_⟩
  · exact State.modK_only _ _ _
  · simp only [State.modK_kestrel_self]
    unfold Kestrel.set
    split <;> rfl
  · simp
  · intro r
    simp only [State.modK_kestrel_self]
    exact (Kestrel.get_set _ _ _ _).trans (by by_cases h : r = rd <;> simp [h])

/-- The PC write: everything it does. -/
theorem State.setPc_jumps (s : State) (c : ClusterId) (pc : Word) : Jumps c pc s (s.setPc c pc) := by
  refine ⟨?_, ?_⟩
  · exact State.modK_only _ _ _
  · simp [State.setPc]

/-- Moving past an instruction: everything it does. -/
theorem State.advance_jumps (s : State) (c : ClusterId) (n : Nat) :
    Jumps c ((s.kestrel c).pc + BitVec.ofNat 64 n) s (s.advance c n) := by
  refine ⟨?_, ?_⟩
  · exact State.modK_only _ _ _
  · simp [State.advance]

/-- Writing a run of bytes is writing its first bytes and then its rest. -/
theorem Mem.writeBytes_append (m : Mem) (a : Nat) (xs ys : List Byte) :
    Mem.writeBytes m a (xs ++ ys) = Mem.writeBytes (Mem.writeBytes m a xs) (a + xs.length) ys := by
  induction xs generalizing m a with
  | nil => rfl
  | cons x xs ih =>
    simp only [List.cons_append, Mem.writeBytes, ih, List.length_cons]
    congr 1
    omega

/-- A span inside one without uncorrectable words has none, whatever words have been corrected since (R344). -/
theorem Cluster.storeFails_sub {x y : Cluster} {off n off' n' : Nat} (h : x.storeFails off n = false)
    (hb : ∀ k ∈ y.storeBad, k ∈ x.storeBad) (h1 : off ≤ off') (h2 : off' + n' ≤ off + n) : y.storeFails off' n' = false := by
  simp only [Cluster.storeFails, List.any_eq_false, List.mem_range, List.contains_eq_mem, decide_eq_true_eq] at h ⊢
  intro k hk hm
  by_cases hn : n' = 0
  · simp [hn] at hk
  · have hn2 : n ≠ 0 := by omega
    rw [if_neg hn] at hk
    rw [if_neg hn2] at h
    refine h (off' / 8 + k - off / 8) (by omega) ?_
    have e : off / 8 + (off' / 8 + k - off / 8) = off' / 8 + k := by omega
    rw [e]
    exact hb _ hm

/-- A frame over a span without uncorrectable words has no bad beat. -/
theorem Cluster.badBeat_none {x y : Cluster} {off : Nat} (h : x.storeFails off 160 = false)
    (hb : ∀ k ∈ y.storeBad, k ∈ x.storeBad) : y.badBeat off = none := by
  simp only [Cluster.badBeat, List.find?_eq_none, List.mem_range]
  intro i hi
  rw [Cluster.storeFails_sub h hb (by omega) (by omega)]
  simp

/-- Part of a window span without errors has none (R133, R344). -/
theorem Cluster.windowFails_sub {x y : Cluster} {off n d m : Nat} (h : x.windowFails off n = none)
    (hb : y.windowBad = x.windowBad) (hd : d % 4 = 0) (hm : m % 4 = 0) (hn : d + m ≤ n) : y.windowFails (off + d) m = none := by
  simp only [Cluster.windowFails, List.find?_eq_none, List.mem_range] at h ⊢
  intro k hk
  rw [hb]
  have e : (off + d) / 4 + k = off / 4 + (d / 4 + k) := by omega
  rw [e]
  exact h _ (by omega)

/-- The vector window's errors decide its fetches. -/
theorem Cluster.windowFails_same {x y : Cluster} (h : y.windowBad = x.windowBad) (off n : Nat) :
    y.windowFails off n = x.windowFails off n := by
  simp only [Cluster.windowFails, h]

/-- An entry whose frame and vector hold no errors meets none (R146). -/
theorem Cluster.entryFails_none {x : Cluster} {frame vector : Nat} (hb : x.badBeat frame = none)
    (h1 : x.windowFails vector 16 = none) (h2 : x.windowFails (vector + 16) 16 = none) : x.entryFails frame vector = none := by
  simp only [Cluster.entryFails, hb, h1, h2, Option.map_none]

/-- Whole words at an aligned offset: the bytes land, and only the errors of those words clear (R344). -/
theorem State.storeFuel_words (n : Nat) (s : State) (c : ClusterId) (off : Nat) (bs : List Byte) (h : off % 8 = 0)
    (hl : bs.length % 8 = 0) (hn : bs.length / 8 ≤ n) (h0 : bs ≠ []) :
    ∃ bad, (∀ k ∈ bad, k ∈ (s.cluster c).storeBad) ∧ s.storeFuel n c off bs = s.setCluster c { s.cluster c with
      store := Mem.writeBytes (s.cluster c).store off bs
      storeBad := bad } := by
  induction n generalizing s off bs with
  | zero =>
    match bs with
    | [] => contradiction
    | b :: t => simp at hn hl; omega
  | succ n ih =>
    match bs with
    | [] => contradiction
    | b :: t =>
      have hk : 8 ≤ (b :: t).length := by simp at hl ⊢; omega
      have ht : ((b :: t).take 8).length = 8 := by simp at hk ⊢; omega
      have hw := Mem.writeBytes_append (s.cluster c).store off ((b :: t).take 8) ((b :: t).drop 8)
      rw [List.take_append_drop, ht] at hw
      simp only [State.storeFuel, h, Nat.sub_zero]
      by_cases hd : (b :: t).drop 8 = []
      · rw [hd] at hw ⊢
        replace hw : (s.cluster c).store.writeBytes off (b :: t) = (s.cluster c).store.writeBytes off ((b :: t).take 8) := hw
        refine ⟨(s.cluster c).storeBad.filter (fun k => decide (k ≠ off / 8)), fun k h => (List.mem_filter.mp h).1, ?_⟩
        have hf : ∀ s', State.storeFuel n s' c (off + 8) [] = s' := fun s' => by cases n <;> rfl
        rw [hf]
        rw [hw]
        simp only [State.storeWord, ht, Nat.lt_irrefl, and_false, if_false, if_true]
      · obtain ⟨bad, hb, e⟩ := ih (s.storeWord c off ((b :: t).take 8)) (off + 8) ((b :: t).drop 8) (by omega)
          (by rw [List.length_drop]; omega) (by rw [List.length_drop]; omega) hd
        refine ⟨bad, fun k h => ?_, ?_⟩
        · have := hb k h
          simp only [State.storeWord, ht, Nat.lt_irrefl, and_false, if_false, if_true, State.setCluster_cluster_self] at this
          exact (List.mem_filter.mp this).1
        rw [e]
        rw [hw]
        simp only [State.storeWord, ht, Nat.lt_irrefl, and_false, if_false, State.setCluster_cluster_self, State.setCluster_set]

/-- The stacking write of whole words. -/
theorem State.storeWrite_words (s : State) (c : ClusterId) (off : Nat) (bs : List Byte) (h : off % 8 = 0)
    (hl : bs.length % 8 = 0) (h0 : bs ≠ []) :
    ∃ bad, (∀ k ∈ bad, k ∈ (s.cluster c).storeBad) ∧ s.storeWrite c off bs = s.setCluster c { s.cluster c with
      store := Mem.writeBytes (s.cluster c).store off bs
      storeBad := bad } :=
  State.storeFuel_words _ s c off bs h hl (by omega) h0

/-- The bytes of a number. -/
@[simp] theorem toBytes_length (n x : Nat) : (toBytes n x).length = n := by
  induction n generalizing x with
  | zero => rfl
  | succ n ih => simp [toBytes, ih]

/-- The shadow-stack push: the entry and SSP, nothing else. -/
theorem State.shadowPush_spec (s : State) (c : ClusterId) (v : Word) :
    ∃ bad, (∀ k ∈ bad, k ∈ (s.cluster c).storeBad) ∧ s.shadowPush c v = s.setCluster c { s.cluster c with
      store := Mem.writeBytes (s.cluster c).store (shadowBase + 8 * (s.kestrel c).ssp.toNat) (toBytes 8 v.toNat)
      storeBad := bad
      k := { s.kestrel c with ssp := (s.kestrel c).ssp + 1 } } := by
  obtain ⟨bad, hb, e⟩ := s.storeWrite_words c (shadowBase + 8 * (s.kestrel c).ssp.toNat) (toBytes 8 v.toNat)
    (by simp only [shadowBase]; omega) (by simp) (by simp [toBytes])
  refine ⟨bad, hb, ?_⟩
  rw [State.shadowPush, e, State.modK, State.modCluster, State.setCluster_set, State.setCluster_cluster_self]
  rfl

end Sys2Proof.Machine
end

