-- ==== Sys2Proof/Laws/Entry.lean ====
section
/-! SUPPORT. The S entry and the Owl entry: everything they do. -/
namespace Sys2Proof.Machine

/-- An entry frame is 160 bytes (R112). -/
@[simp] theorem frameBytes_length (k : Kestrel) (pc st : Word) : (frameBytes k pc st).length = 160 := by
  simp [frameBytes, toBytes_length] <;> decide

/-- A read apart from a write reads as before. -/
theorem Mem.readBytes_writeBytes_out (m : Mem) (a n b : Nat) (bs : List Byte) (h : a + n ≤ b ∨ b + bs.length ≤ a) :
    Mem.readBytes (Mem.writeBytes m b bs) a n = Mem.readBytes m a n := by
  induction n generalizing a with
  | zero => rfl
  | succ n ih =>
    simp only [Mem.readBytes]
    rw [ih (a + 1) (by omega), Mem.read_writeBytes_out _ _ _ _ (by omega)]

/-- The S entry that runs through: everything it does. -/
theorem State.sEntry_spec (s : State) (c : ClusterId) (cause : Nat) (tval savedPc : Word) (vector : Nat)
    (h : SEntryOk (s.drainStores c) c vector) :
    SEntered c cause tval savedPc vector (s.drainStores c) (s.sEntry c cause tval savedPc vector) := by
  generalize hs : s.drainStores c = s1 at h ⊢
  obtain ⟨h1, h2, h3, h4, h7, h5, h6⟩ := h
  have hsp : (s1.kestrel c).ssp ≠ 4096 := fun x => by rw [x] at h4; simp at h4
  have e0 : ¬((s1.kestrel c).esp.toNat < 160 ∨ shadowBase < (s1.kestrel c).esp.toNat) := by omega
  obtain ⟨b1, hb1, e1⟩ := (s1.modK c (fun k => { k.setCause cause tval with run := .running })).shadowPush_spec c (savedPc ||| 1)
  obtain ⟨b2, -, e2⟩ := ((s1.modK c (fun k => { k.setCause cause tval with run := .running })).shadowPush c
    (savedPc ||| 1)).storeWrite_words c ((s1.kestrel c).esp.toNat - 160)
    (frameBytes (s1.kestrel c) savedPc (s1.kestrel c).status) (by omega) (by simp)
    (fun x => by have := congrArg List.length x; simp at this)
  have hl := frameBytes_length (s1.kestrel c) savedPc (s1.kestrel c).status
  have ef : (((s1.modK c (fun k => { k.setCause cause tval with run := .running })).shadowPush c (savedPc ||| 1)).cluster c).entryFails
      ((s1.kestrel c).esp.toNat - 160) vector = none := by
    rw [e1, State.setCluster_cluster_self]
    rw [State.modK_cluster_self] at hb1
    have w1 := Cluster.windowFails_sub (y := s1.cluster c) (d := 0) (m := 16) h5 rfl (by omega) (by omega) (by omega)
    have w2 := Cluster.windowFails_sub (y := s1.cluster c) (d := 16) (m := 16) h5 rfl (by omega) (by omega) (by omega)
    rw [Nat.add_zero] at w1
    exact Cluster.entryFails_none (Cluster.badBeat_none h7 hb1) ((Cluster.windowFails_same (x := s1.cluster c) (by simp) _ _).trans w1)
      ((Cluster.windowFails_same (x := s1.cluster c) (by simp) _ _).trans w2)
  have et : (frameBytes (s1.kestrel c) savedPc (s1.kestrel c).status).take (32 * 5) = frameBytes (s1.kestrel c) savedPc (s1.kestrel c).status :=
    List.take_of_length_le (by omega)
  simp only [State.sEntry, hs, if_neg e0, if_neg hsp]
  rw [ef]
  simp only [State.stackBeats, et, e2]
  rw [e1]
  simp only [State.setCluster_cluster_self, State.setCluster_set, State.modK_cluster_self, State.modK_kestrel_self, Kestrel.setCause]
  clear e1 e2 ef
  refine ⟨⟨rfl, fun d hd => ?_⟩, ?_, ?_, ?_, ?_, ?_⟩
  · rw [State.modK_cluster_ne _ _ _ _ hd, State.setCluster_cluster_ne _ _ _ _ hd, State.modK_cluster_ne _ _ _ _ hd]
  · simp [State.kestrel]
  · simp [State.kestrel]
  · simp only [State.modK_cluster_self, State.setCluster_cluster_self]
    conv => lhs; rw [← hl]
    rw [Mem.readBytes_writeBytes _ _ _ (Mem.wf_writeBytes _ _ _ h6)]
  · simp only [State.modK_cluster_self, State.setCluster_cluster_self]
    rw [Mem.readBytes_writeBytes_out _ _ _ _ _ (by rw [hl]; omega)]
    have := Mem.readBytes_writeBytes (s1.cluster c).store (shadowBase + 8 * (s1.kestrel c).ssp.toNat) (toBytes 8 (savedPc ||| 1).toNat) h6
    rwa [toBytes_length] at this
  · intro a ha hb
    simp only [State.modK_cluster_self, State.setCluster_cluster_self]
    rw [Mem.read_writeBytes_out _ _ _ _ (by rw [hl]; omega), Mem.read_writeBytes_out _ _ _ _ (by rw [toBytes_length]; exact hb)]

/-- The Owl entry: everything it does. -/
theorem State.owlEntry_spec (s : State) (c : ClusterId) (code orig entry : Nat) (otval oepc : Word)
    (h : Mem.wf ((s.drainStores c).cluster c).store = true)
    (hg : ((s.drainStores c).cluster c).storeFails 0x7FFF60 160 = false) :
    OwlEntered c (code + 2 ^ 8 * orig + 2 ^ 16 * entry + 2 ^ 24 * ((s.drainStores c).kestrel c).level.toNat) otval oepc
      (s.drainStores c) (s.owlEntry c code orig entry otval oepc) := by
  generalize hs : s.drainStores c = s1 at h hg ⊢
  obtain ⟨b2, -, e2⟩ := s1.storeWrite_words c 0x7FFF60 (frameBytes (s1.kestrel c) oepc (s1.kestrel c).status) (by omega) (by simp)
    (fun x => by have := congrArg List.length x; simp at this)
  have hl := frameBytes_length (s1.kestrel c) oepc (s1.kestrel c).status
  have et : (frameBytes (s1.kestrel c) oepc (s1.kestrel c).status).take (32 * 5) = frameBytes (s1.kestrel c) oepc (s1.kestrel c).status :=
    List.take_of_length_le (by omega)
  simp only [State.owlEntry, hs, Cluster.badBeat_none hg (fun k h => h), State.stackBeats, et, e2]
  refine ⟨⟨rfl, fun d hd => ?_⟩, ?_, ?_, ?_, ?_⟩
  · rw [State.modK_cluster_ne _ _ _ _ hd, State.setCluster_cluster_ne _ _ _ _ hd]
  · simp [State.kestrel]
  · simp [State.kestrel]
  · simp only [State.modK_cluster_self, State.setCluster_cluster_self]
    conv => lhs; rw [← hl]
    rw [Mem.readBytes_writeBytes _ _ _ h]
  · intro a ha
    simp only [State.modK_cluster_self, State.setCluster_cluster_self]
    rw [Mem.read_writeBytes_out _ _ _ _ (by rw [hl]; omega)]

end Sys2Proof.Machine
end

