-- ==== Sys2Proof/Laws/Keeps.lean ====
section
/-! SUPPORT. What keeps the queue and the invariant: the rules from which the law of each shared operation follows. -/
namespace Sys2Proof.Machine

theorem Keeps.refl (s : State) : Keeps s s := ⟨rfl, fun h => h⟩

theorem Keeps.trans {s t u : State} (h : Keeps s t) (k : Keeps t u) : Keeps s u :=
  ⟨k.queue.trans h.queue, fun x => k.inv (h.inv x)⟩

theorem Keeps.store {s0 s : State} (h : Keeps s0 s) (c : ClusterId) (i : s0.Inv) : Mem.wf (s.cluster c).store = true :=
  (h.inv i).2 c

/-- An update outside the queue, the clusters and memory. -/
theorem Keeps.mkA {s0 s : State} (h : Keeps s0 s) {out free tick sched integ fabric host card setup} :
    Keeps s0 (State.mk s.pending out free tick s.clusters sched s.memory integ fabric host card setup) :=
  ⟨h.queue, fun i => h.inv i⟩

/-- An update outside the queue, the clusters and the bytes of memory. -/
theorem Keeps.mkB {s0 s : State} (h : Keeps s0 s) {out free tick sched poison l2 quads a b c d e integ fabric host card setup} :
    Keeps s0 (State.mk s.pending out free tick s.clusters sched (Memory.mk s.memory.mem poison l2 quads a b c d e) integ fabric
      host card setup) :=
  ⟨h.queue, fun i => h.inv i⟩

/-- New bytes of memory in canonical form. -/
theorem Keeps.mkM {s0 s : State} (h : Keeps s0 s) {out free tick sched mem poison l2 quads a b c d e integ fabric host card setup}
    (hm : s0.Inv → Mem.wf mem = true) :
    Keeps s0 (State.mk s.pending out free tick s.clusters sched (Memory.mk mem poison l2 quads a b c d e) integ fabric
      host card setup) :=
  ⟨h.queue, fun i => ⟨hm i, (h.inv i).2⟩⟩

/-- A whole new state of the work model, memory and clusters with the queue kept and everything in canonical form. -/
theorem Keeps.mkR {s0 s : State} (h : Keeps s0 s) {out free tick clusters sched memory integ fabric host card setup}
    (hm : s0.Inv → Mem.wf memory.mem = true)
    (hc : s0.Inv → ∀ c : ClusterId, Mem.wf (Table.get Cluster.reset clusters c.val).store = true) :
    Keeps s0 (State.mk s.pending out free tick clusters sched memory integ fabric host card setup) :=
  ⟨h.queue, fun i => ⟨hm i, hc i⟩⟩

theorem keeps_foldl {α : Type} {s0 s : State} {l : List α} {f : State → α → State} (h : Keeps s0 s)
    (hf : ∀ s x, Keeps s0 s → Keeps s0 (f s x)) : Keeps s0 (l.foldl f s) := by
  induction l generalizing s with
  | nil => exact h
  | cons a l ih => exact ih (hf s a h)

theorem keeps_foldlM {α β : Type} {s0 : State} {b : β} {l : List α} {g : β → State} {f : β → α → β} (h : Keeps s0 (g b))
    (hf : ∀ b x, Keeps s0 (g b) → Keeps s0 (g (f b x))) : Keeps s0 (g (l.foldl f b)) := by
  induction l generalizing b with
  | nil => exact h
  | cons a l ih => exact ih (hf b a h)

theorem keeps_forBelow {s0 s : State} {n : Nat} {f : Nat → State → State} (h : Keeps s0 s)
    (hf : ∀ s x, Keeps s0 s → Keeps s0 (f x s)) : Keeps s0 (forBelow f n s) :=
  keeps_foldl h (fun s x k => hf s x k)

theorem keeps_snd {α : Type} {s0 : State} {p : α × State} {r : α} {t : State} (k : Keeps s0 p.2) (e : p = (r, t)) : Keeps s0 t := by
  rw [e] at k
  exact k

theorem keeps_ite {s0 a b : State} {p : Prop} [Decidable p] (ha : Keeps s0 a) (hb : Keeps s0 b) : Keeps s0 (if p then a else b) := by
  split <;> assumption

theorem keeps_iteP {α : Type} {s0 : State} {a b : α × State} {p : Prop} [Decidable p] (ha : Keeps s0 a.2) (hb : Keeps s0 b.2) :
    Keeps s0 (if p then a else b).2 := by
  split <;> assumption

theorem keeps_write {s0 s : State} (h : Keeps s0 s) {a : Nat} {b : Byte} (i : s0.Inv) :
    Mem.wf (Mem.write s.memory.mem a b) = true := Mem.wf_write _ _ _ (h.inv i).1

theorem keeps_writeBytes {s0 s : State} (h : Keeps s0 s) {a : Nat} {bs : List Byte} (i : s0.Inv) :
    Mem.wf (Mem.writeBytes s.memory.mem a bs) = true := Mem.wf_writeBytes _ _ _ (h.inv i).1

theorem keeps_clear {s0 s : State} (h : Keeps s0 s) {a n : Nat} (i : s0.Inv) :
    Mem.wf (Mem.clear s.memory.mem a n) = true := Mem.wf_clear _ _ _ (h.inv i).1

theorem State.setCluster_keeps {s0 s : State} (h : Keeps s0 s) (c : ClusterId) (x : Cluster)
    (hx : s0.Inv → Mem.wf x.store = true) : Keeps s0 (s.setCluster c x) := by
  refine ⟨h.queue, fun i => ⟨(h.inv i).1, fun d => ?_⟩⟩
  show Mem.wf (Table.get Cluster.reset (Table.set s.clusters c.val x) d.val).store = true
  by_cases e : d.val = c.val
  · rw [e, Table.get_set_self]
    exact hx i
  · rw [Table.get_set_ne _ _ _ _ _ e]
    exact (h.inv i).2 d

theorem State.modCluster_keeps {s0 s : State} (h : Keeps s0 s) (c : ClusterId) (f : Cluster → Cluster)
    (hf : ∀ x, Mem.wf x.store = true → Mem.wf (f x).store = true) : Keeps s0 (s.modCluster c f) :=
  State.setCluster_keeps h c _ (fun i => hf _ (h.store c i))

theorem keeps_storeBytes {s0 s : State} (h : Keeps s0 s) {c : ClusterId} {a : Nat} {bs : List Byte} (i : s0.Inv) :
    Mem.wf (Mem.writeBytes (s.cluster c).store a bs) = true := Mem.wf_writeBytes _ _ _ (h.store c i)

theorem keeps_rangeCache {s0 s : State} (h : Keeps s0 s) (c : ClusterId) (p : CachePort) (l : List (Nat × RangeEntry)) (i : s0.Inv) :
    Mem.wf ((s.cluster c).setRangeCache p l).store = true := by
  cases p <;> exact h.store c i

end Sys2Proof.Machine
end

