-- ==== Sys2Proof/Laws/KeepsOps.lean ====
section
/-! SUPPORT. The shared operations of Machine/Ops.lean keep the queue and the invariant. -/
namespace Sys2Proof.Machine

theorem State.setStream_keeps {s0 s : State} (hk : Keeps s0 s) (st : StreamId) (x : Stream) : Keeps s0 (State.setStream s st x) := by
  unfold State.setStream
  try dsimp only
  repeat' (first
    | with_reducible assumption
    | with_reducible apply keeps_ite
    | split
    | (apply Keeps.mkA; first | with_reducible assumption))

theorem State.modStream_keeps {s0 s : State} (hk : Keeps s0 s) (st : StreamId) (f : Stream → Stream) : Keeps s0 (State.modStream s st f) := by
  unfold State.modStream
  try dsimp only
  repeat' (first
    | with_reducible assumption
    | with_reducible apply State.setStream_keeps)

theorem State.setJob_keeps {s0 s : State} (hk : Keeps s0 s) (j : JobId) (x : Option Job) : Keeps s0 (State.setJob s j x) := by
  unfold State.setJob
  try dsimp only
  repeat' (first
    | with_reducible assumption
    | with_reducible apply keeps_ite
    | split
    | (apply Keeps.mkA; first | with_reducible assumption))

theorem State.modJob_keeps {s0 s : State} (hk : Keeps s0 s) (j : JobId) (f : Job → Job) : Keeps s0 (State.modJob s j f) := by
  unfold State.modJob
  try dsimp only
  repeat' (first
    | with_reducible assumption
    | with_reducible apply State.setJob_keeps)

theorem State.setRing_keeps {s0 s : State} (hk : Keeps s0 s) (r : RingId) (x : Ring) : Keeps s0 (State.setRing s r x) := by
  unfold State.setRing
  try dsimp only
  repeat' (first
    | with_reducible assumption
    | with_reducible apply keeps_ite
    | split
    | (apply Keeps.mkA; first | with_reducible assumption))

theorem State.setSpace_keeps {s0 s : State} (hk : Keeps s0 s) (a : Fin 1024) (x : Space) : Keeps s0 (State.setSpace s a x) := by
  unfold State.setSpace
  try dsimp only
  repeat' (first
    | with_reducible assumption
    | with_reducible apply keeps_ite
    | split
    | (apply Keeps.mkB; first | with_reducible assumption))

theorem State.setQuad_keeps {s0 s : State} (hk : Keeps s0 s) (q : QuadId) (x : Quad) : Keeps s0 (State.setQuad s q x) := by
  unfold State.setQuad
  try dsimp only
  repeat' (first
    | with_reducible assumption
    | with_reducible apply keeps_ite
    | split
    | (apply Keeps.mkB; first | with_reducible assumption))

theorem State.setPort_keeps {s0 s : State} (hk : Keeps s0 s) (p : PortId) (x : Port) : Keeps s0 (State.setPort s p x) := by
  unfold State.setPort
  try dsimp only
  repeat' (first
    | with_reducible assumption
    | with_reducible apply keeps_ite
    | split
    | (apply Keeps.mkA; first | with_reducible assumption))

theorem State.modPort_keeps {s0 s : State} (hk : Keeps s0 s) (p : PortId) (f : Port → Port) : Keeps s0 (State.modPort s p f) := by
  unfold State.modPort
  try dsimp only
  repeat' (first
    | with_reducible assumption
    | with_reducible apply State.setPort_keeps)

theorem State.setUnit_keeps {s0 s : State} (hk : Keeps s0 s) (kind : Nat) (number : Nat) (x : UnitReset) : Keeps s0 (State.setUnit s kind number x) := by
  unfold State.setUnit
  try dsimp only
  repeat' (first
    | with_reducible assumption
    | with_reducible apply keeps_ite
    | split
    | (apply Keeps.mkA; first | with_reducible assumption))

theorem State.setMsix_keeps {s0 s : State} (hk : Keeps s0 s) (f : Nat) (v : Nat) (x : Msix) : Keeps s0 (State.setMsix s f v x) := by
  unfold State.setMsix
  try dsimp only
  repeat' (first
    | with_reducible assumption
    | with_reducible apply keeps_ite
    | split
    | (apply Keeps.mkA; first | with_reducible assumption))

theorem State.emit_keeps {s0 s : State} (hk : Keeps s0 s) (o : Outbound) : Keeps s0 (State.emit s o) := by
  unfold State.emit
  try dsimp only
  repeat' (first
    | with_reducible assumption
    | with_reducible apply keeps_ite
    | split
    | (apply Keeps.mkA; first | with_reducible assumption))

theorem State.sensorEvent_keeps {s0 s : State} (hk : Keeps s0 s) (sensor : Nat) (state : Nat) : Keeps s0 (State.sensorEvent s sensor state) := by
  unfold State.sensorEvent
  try dsimp only
  repeat' (first
    | with_reducible assumption
    | with_reducible apply State.emit_keeps
    | with_reducible apply keeps_ite
    | split)

theorem State.setReg_keeps {s0 s : State} (hk : Keeps s0 s) (off : Nat) (v : W32) : Keeps s0 (State.setReg s off v) := by
  unfold State.setReg
  try dsimp only
  repeat' (first
    | with_reducible assumption
    | with_reducible apply keeps_ite
    | split
    | (apply Keeps.mkA; first | with_reducible assumption))

theorem State.setupErr_keeps {s0 s : State} (hk : Keeps s0 s) (reason : Nat) (f : Nat) (off : Nat) (data : Word) : Keeps s0 (State.setupErr s reason f off data) := by
  unfold State.setupErr
  try dsimp only
  repeat' (first
    | with_reducible assumption
    | with_reducible apply keeps_ite
    | split
    | (apply Keeps.mkA; first | with_reducible assumption))

theorem State.addLog_keeps {s0 s : State} (hk : Keeps s0 s) (e : LogEntry) : Keeps s0 (State.addLog s e) := by
  unfold State.addLog
  try dsimp only
  repeat' (first
    | with_reducible assumption
    | with_reducible apply keeps_ite
    | split
    | (apply Keeps.mkA; first | with_reducible assumption))

theorem State.logCorrected_keeps {s0 s : State} (hk : Keeps s0 s) (e : LogEntry) : Keeps s0 (State.logCorrected s e) := by
  unfold State.logCorrected
  try dsimp only
  repeat' (first
    | with_reducible assumption
    | with_reducible apply State.addLog_keeps
    | with_reducible apply keeps_ite
    | split
    | (apply Keeps.mkA; first | with_reducible assumption))

theorem State.setLine_keeps {s0 s : State} (hk : Keeps s0 s) (n : Fin 512) (x : LinePoll) : Keeps s0 (State.setLine s n x) := by
  unfold State.setLine
  try dsimp only
  repeat' (first
    | with_reducible assumption
    | with_reducible apply keeps_ite
    | split
    | (apply Keeps.mkA; first | with_reducible assumption))

theorem State.askLine_keeps {s0 s : State} (hk : Keeps s0 s) (n : Fin 512) : Keeps s0 (State.askLine s n) := by
  unfold State.askLine
  try dsimp only
  repeat' (first
    | with_reducible assumption
    | with_reducible apply State.emit_keeps
    | with_reducible apply State.setLine_keeps
    | with_reducible apply keeps_ite)

theorem State.sendMsix_keeps {s0 s : State} (hk : Keeps s0 s) (f : Nat) (v : Nat) : Keeps s0 (State.sendMsix s f v) := by
  unfold State.sendMsix
  try dsimp only
  repeat' (first
    | with_reducible assumption
    | with_reducible apply State.setMsix_keeps
    | with_reducible apply State.emit_keeps
    | with_reducible apply keeps_ite)

theorem State.signalRing_keeps {s0 s : State} (hk : Keeps s0 s) (r : RingId) : Keeps s0 (State.signalRing s r) := by
  unfold State.signalRing
  try dsimp only
  repeat' (first
    | with_reducible assumption
    | with_reducible apply State.setRing_keeps
    | with_reducible apply State.sendMsix_keeps)

theorem State.putRecord_keeps {s0 s : State} (hk : Keeps s0 s) (n : JobId) (x : Record) : Keeps s0 (State.putRecord s n x) := by
  unfold State.putRecord
  try dsimp only
  repeat' (first
    | with_reducible assumption
    | with_reducible apply State.setRing_keeps
    | with_reducible apply State.emit_keeps
    | with_reducible apply State.signalRing_keeps
    | with_reducible apply keeps_ite)

theorem State.freeEndedJob_keeps {s0 s : State} (hk : Keeps s0 s) (e : Event) : Keeps s0 (State.freeEndedJob s e) := by
  unfold State.freeEndedJob
  try dsimp only
  repeat' (first
    | with_reducible assumption
    | with_reducible apply State.setJob_keeps
    | with_reducible apply keeps_ite)

theorem State.drainEvents_keeps (n : Nat) {s0 s : State} (h : Keeps s0 s)  : Keeps s0 (State.drainEvents n s ) := by
  induction n generalizing s with
  | zero => exact h
  | succ n ih =>
    unfold State.drainEvents
    try dsimp only
    repeat' (first
      | with_reducible assumption
      | with_reducible apply ih
      | with_reducible apply State.setRing_keeps
      | with_reducible apply State.emit_keeps
      | with_reducible apply State.signalRing_keeps
      | with_reducible apply State.freeEndedJob_keeps
      | with_reducible apply keeps_ite
      | split
      | (apply Keeps.mkA; first | with_reducible assumption | with_reducible apply ih | with_reducible apply State.setRing_keeps))

theorem State.flushEvents_keeps {s0 s : State} (hk : Keeps s0 s)  : Keeps s0 (State.flushEvents s) := by
  unfold State.flushEvents
  try dsimp only
  repeat' (first
    | with_reducible assumption
    | with_reducible apply State.drainEvents_keeps)

theorem State.postEvent_keeps {s0 s : State} (hk : Keeps s0 s) (e : Event) : Keeps s0 (State.postEvent s e) := by
  unfold State.postEvent
  try dsimp only
  repeat' (first
    | with_reducible assumption
    | with_reducible apply State.flushEvents_keeps
    | with_reducible apply keeps_ite
    | split
    | (apply Keeps.mkA; first | with_reducible assumption))

theorem State.postCapacity_keeps {s0 s : State} (hk : Keeps s0 s) (unit : Nat) (number : Nat) (stop : Nat × Nat) : Keeps s0 (State.postCapacity s unit number stop) := by
  unfold State.postCapacity
  try dsimp only
  repeat' (first
    | with_reducible assumption
    | with_reducible apply State.postEvent_keeps)

theorem State.postJobState_keeps {s0 s : State} (hk : Keeps s0 s) (j : JobId) (p : JobPhase) (attempt : BitVec 4) : Keeps s0 (State.postJobState s j p attempt) := by
  unfold State.postJobState
  try dsimp only
  repeat' (first
    | with_reducible assumption
    | with_reducible apply State.postEvent_keeps)

theorem State.postLink_keeps {s0 s : State} (hk : Keeps s0 s) (p : PortId) : Keeps s0 (State.postLink s p) := by
  unfold State.postLink
  try dsimp only
  repeat' (first
    | with_reducible assumption
    | with_reducible apply State.postEvent_keeps)

theorem State.postHalted_keeps {s0 s : State} (hk : Keeps s0 s) (st : StreamId) (reason : Nat) (idx : W32) : Keeps s0 (State.postHalted s st reason idx) := by
  unfold State.postHalted
  try dsimp only
  repeat' (first
    | with_reducible assumption
    | with_reducible apply State.postEvent_keeps)

theorem State.fresh_keeps {s0 s : State} (hk : Keeps s0 s)  : Keeps s0 (State.fresh s).2 := by
  unfold State.fresh
  try dsimp only
  repeat' (first
    | with_reducible assumption
    | with_reducible apply keeps_ite
    | split
    | (apply Keeps.mkA; first | with_reducible assumption))
theorem State.fresh_keepsE {s0 s s9 : State} (hk : Keeps s0 s)  {r0 : Nat} (eq9 : State.fresh s = (r0, s9)) : Keeps s0 s9 := by
  have k := State.fresh_keeps hk  
  rw [eq9] at k
  exact k

end Sys2Proof.Machine
end

