-- ==== Sys2Proof/Laws/KeepsRoute.lean ====
section
/-! SUPPORT. The shared operations of Machine/Route.lean keep the queue and the invariant. -/
namespace Sys2Proof.Machine

theorem State.sendFlit_keeps {s0 s : State} (hk : Keeps s0 s) (p : PortId) (f : Flit) : Keeps s0 (State.sendFlit s p f) := by
  unfold State.sendFlit
  try dsimp only
  repeat' (first
    | with_reducible assumption
    | with_reducible apply State.modPort_keeps
    | with_reducible apply State.emit_keeps)

theorem State.pumpPort_keeps (n : Nat) {s0 s : State} (h : Keeps s0 s) (p : PortId) : Keeps s0 (State.pumpPort n s p) := by
  induction n generalizing s p with
  | zero => exact h
  | succ n ih =>
    unfold State.pumpPort
    try dsimp only
    repeat' (first
      | with_reducible assumption
      | with_reducible apply ih
      | with_reducible apply State.setPort_keeps
      | with_reducible apply State.sendFlit_keeps
      | with_reducible apply keeps_ite
      | split)

theorem State.pump_keeps {s0 s : State} (hk : Keeps s0 s) (p : PortId) : Keeps s0 (State.pump s p) := by
  unfold State.pump
  try dsimp only
  repeat' (first
    | with_reducible assumption
    | with_reducible apply State.pumpPort_keeps)

theorem State.sendBody_keeps {s0 s : State} (hk : Keeps s0 s) (p : PortId) (b : FlitBody) : Keeps s0 (State.sendBody s p b) := by
  unfold State.sendBody
  try dsimp only
  repeat' (first
    | with_reducible assumption
    | with_reducible apply State.modPort_keeps
    | with_reducible apply State.pump_keeps)

theorem State.sendFrames_keeps (n : Nat) {s0 s : State} (h : Keeps s0 s) (p : PortId) : Keeps s0 (State.sendFrames n s p) := by
  induction n generalizing s p with
  | zero => exact h
  | succ n ih =>
    unfold State.sendFrames
    try dsimp only
    repeat' (first
      | with_reducible assumption
      | with_reducible apply ih
      | with_reducible apply State.setPort_keeps
      | with_reducible apply State.modPort_keeps
      | with_reducible apply State.emit_keeps
      | with_reducible apply keeps_foldl
      | intro _ _ _ _ _
      | intro _ _ _ _
      | (intro _ _ _; try dsimp only))

theorem State.openBurst_keeps {s0 s : State} (hk : Keeps s0 s) (p : PortId) : Keeps s0 (State.openBurst s p) := by
  unfold State.openBurst
  try dsimp only
  repeat' (first
    | with_reducible assumption
    | with_reducible apply State.modPort_keeps
    | with_reducible apply State.emit_keeps
    | with_reducible apply keeps_foldl
    | intro _ _ _ _ _
    | intro _ _ _ _
    | (intro _ _ _; try dsimp only))

theorem State.sendPacket_keeps {s0 s : State} (hk : Keeps s0 s) (p : PortId) (pkt : Packet) : Keeps s0 (State.sendPacket s p pkt) := by
  unfold State.sendPacket
  try dsimp only
  repeat' (first
    | with_reducible assumption
    | with_reducible apply State.sendBody_keeps)

end Sys2Proof.Machine
end

