-- ==== Sys2Proof/Laws/KeepsStreams.lean ====
section
/-! SUPPORT. The shared operations of Machine/Streams.lean keep the queue and the invariant. -/
namespace Sys2Proof.Machine

theorem State.modDesc_keeps {s0 s : State} (hk : Keeps s0 s) (st : StreamId) (idx : W32) (f : Desc → Desc) : Keeps s0 (State.modDesc s st idx f) := by
  unfold State.modDesc
  try dsimp only
  repeat' (first
    | with_reducible assumption
    | with_reducible apply State.modStream_keeps)

theorem State.flushFuel_keeps (n : Nat) {s0 s : State} (h : Keeps s0 s) (st : StreamId) : Keeps s0 (State.flushFuel n s st) := by
  induction n generalizing s st with
  | zero => exact h
  | succ n ih =>
    unfold State.flushFuel
    try dsimp only
    repeat' (first
      | with_reducible assumption
      | with_reducible apply ih
      | with_reducible apply State.setStream_keeps
      | with_reducible apply State.putRecord_keeps
      | with_reducible apply keeps_ite
      | split)

theorem State.flushStream_keeps {s0 s : State} (hk : Keeps s0 s) (st : StreamId) : Keeps s0 (State.flushStream s st) := by
  unfold State.flushStream
  try dsimp only
  repeat' (first
    | with_reducible assumption
    | with_reducible apply State.flushFuel_keeps)

theorem State.postNotice_keeps {s0 s : State} (hk : Keeps s0 s) (st : StreamId) (r : Record) : Keeps s0 (State.postNotice s st r) := by
  unfold State.postNotice
  try dsimp only
  repeat' (first
    | with_reducible assumption
    | with_reducible apply State.modStream_keeps
    | with_reducible apply State.flushStream_keeps)

theorem State.postCause_keeps {s0 s : State} (hk : Keeps s0 s) (st : StreamId) (idx : Option W32) (status : Nat) (detail : Nat) : Keeps s0 (State.postCause s st idx status detail) := by
  unfold State.postCause
  try dsimp only
  repeat' (first
    | with_reducible assumption
    | with_reducible apply State.postNotice_keeps
    | with_reducible apply keeps_ite
    | split)

theorem State.markFinished_keeps {s0 s : State} (hk : Keeps s0 s) (st : StreamId) (idx : W32) (status : Nat) (detail : Nat) (tick : Option Word) : Keeps s0 (State.markFinished s st idx status detail tick) := by
  unfold State.markFinished
  try dsimp only
  repeat' (first
    | with_reducible assumption
    | with_reducible apply State.modDesc_keeps)

theorem State.settleStream_keeps {s0 s : State} (hk : Keeps s0 s) (st : StreamId) : Keeps s0 (State.settleStream s st) := by
  unfold State.settleStream
  try dsimp only
  repeat' (first
    | with_reducible assumption
    | with_reducible apply State.setStream_keeps
    | with_reducible apply keeps_ite
    | split)

theorem State.settleJob_keeps {s0 s : State} (hk : Keeps s0 s) (j : JobId) : Keeps s0 (State.settleJob s j) := by
  unfold State.settleJob
  try dsimp only
  repeat' (first
    | with_reducible assumption
    | with_reducible apply State.setJob_keeps
    | with_reducible apply State.settleStream_keeps
    | with_reducible apply keeps_foldl
    | intro _ _ _ _ _
    | intro _ _ _ _
    | (intro _ _ _; try dsimp only)
    | with_reducible apply keeps_ite
    | split)

theorem State.settle_keeps {s0 s : State} (hk : Keeps s0 s) (st : StreamId) : Keeps s0 (State.settle s st) := by
  unfold State.settle
  try dsimp only
  repeat' (first
    | with_reducible assumption
    | with_reducible apply State.settleStream_keeps
    | with_reducible apply State.settleJob_keeps)

theorem State.finishAt_keeps {s0 s : State} (hk : Keeps s0 s) (st : StreamId) (idx : W32) (status : Nat) (detail : Nat) (tick : Option Word) : Keeps s0 (State.finishAt s st idx status detail tick) := by
  unfold State.finishAt
  try dsimp only
  repeat' (first
    | with_reducible assumption
    | with_reducible apply State.flushStream_keeps
    | with_reducible apply State.markFinished_keeps
    | with_reducible apply State.settle_keeps)

theorem State.finish_keeps {s0 s : State} (hk : Keeps s0 s) (st : StreamId) (idx : W32) (status : Nat) (detail : Nat) : Keeps s0 (State.finish s st idx status detail) := by
  unfold State.finish
  try dsimp only
  repeat' (first
    | with_reducible assumption
    | with_reducible apply State.finishAt_keeps)

theorem State.begin_keeps {s0 s : State} (hk : Keeps s0 s) (st : StreamId) (idx : W32) (op : Nat) (f : Desc → State → State) (hf : ∀ (x0 : Desc) (x1 : State), Keeps s0 x1 → Keeps s0 (f x0 x1)) : Keeps s0 (State.begin s st idx op f) := by
  unfold State.begin
  try dsimp only
  repeat' (first
    | with_reducible assumption
    | with_reducible apply State.modDesc_keeps
    | with_reducible apply State.settle_keeps
    | with_reducible apply State.finish_keeps
    | with_reducible apply hf
    | with_reducible apply keeps_ite
    | split)

theorem State.opAdd_keeps {s0 s : State} (hk : Keeps s0 s) (a : Fin 1024) (o : StreamId × W32) : Keeps s0 (State.opAdd s a o) := by
  unfold State.opAdd
  try dsimp only
  repeat' (first
    | with_reducible assumption
    | with_reducible apply State.setSpace_keeps)

theorem State.opHold_keeps {s0 s : State} (hk : Keeps s0 s) (a : Fin 1024) (o : StreamId × W32) : Keeps s0 (State.opHold s a o) := by
  unfold State.opHold
  try dsimp only
  repeat' (first
    | with_reducible assumption
    | with_reducible apply State.setSpace_keeps)

theorem State.opEnd_keeps {s0 s : State} (hk : Keeps s0 s) (a : Fin 1024) (o : StreamId × W32) : Keeps s0 (State.opEnd s a o) := by
  unfold State.opEnd
  try dsimp only
  repeat' (first
    | with_reducible assumption
    | with_reducible apply State.setSpace_keeps)

theorem State.continuing_keeps {s0 s : State} (hk : Keeps s0 s) (st : StreamId) (idx : W32) (op : Nat) (f : Desc → State → State) (hf : ∀ (x0 : Desc) (x1 : State), Keeps s0 x1 → Keeps s0 (f x0 x1)) : Keeps s0 (State.continuing s st idx op f) := by
  unfold State.continuing
  try dsimp only
  repeat' (first
    | with_reducible assumption
    | with_reducible apply hf
    | with_reducible apply keeps_ite
    | split)

end Sys2Proof.Machine
end

