-- ==== Sys2Proof/Laws/KeepsMemory.lean ====
section
/-! SUPPORT. The shared operations of Machine/Memory.lean keep the queue and the invariant. -/
namespace Sys2Proof.Machine

theorem State.withMem_keeps {s0 s : State} (h : Keeps s0 s) (m : Mem) (hm : s0.Inv → Mem.wf m = true) :
    Keeps s0 (s.withMem m) := Keeps.mkM h hm

theorem State.writeMem_keeps {s0 s : State} (h : Keeps s0 s) (pa : Nat) (bytes : List Byte) : Keeps s0 (s.writeMem pa bytes) :=
  Keeps.mkM h (fun i => Mem.wf_writeBytes _ _ _ (h.inv i).1)

theorem State.poisonLine_keeps {s0 s : State} (hk : Keeps s0 s) (line : Nat) : Keeps s0 (State.poisonLine s line) := by
  unfold State.poisonLine
  try dsimp only
  repeat' (first
    | with_reducible assumption
    | with_reducible apply keeps_ite
    | split
    | (apply Keeps.mkB; first | with_reducible assumption))

theorem State.withL2_keeps {s0 s : State} (hk : Keeps s0 s) (l : List L2Line) : Keeps s0 (State.withL2 s l) := by
  unfold State.withL2
  try dsimp only
  repeat' (first
    | with_reducible assumption
    | with_reducible apply keeps_ite
    | split
    | (apply Keeps.mkB; first | with_reducible assumption))

theorem State.l2Drop_keeps {s0 s : State} (hk : Keeps s0 s) (host : Option Nat) (line : Nat) : Keeps s0 (State.l2Drop s host line) := by
  unfold State.l2Drop
  try dsimp only
  repeat' (first
    | with_reducible assumption
    | with_reducible apply State.withL2_keeps)

theorem State.l2Touch_keeps {s0 s : State} (hk : Keeps s0 s) (x : L2Line) : Keeps s0 (State.l2Touch s x) := by
  unfold State.l2Touch
  try dsimp only
  repeat' (first
    | with_reducible assumption
    | with_reducible apply State.withL2_keeps
    | with_reducible apply State.l2Drop_keeps)

theorem State.l2Alloc_keeps {s0 s : State} (hk : Keeps s0 s) (host : Option Nat) (line : Nat) (dirty : Bool) (bytes : Line) : Keeps s0 (State.l2Alloc s host line dirty bytes) := by
  unfold State.l2Alloc
  try dsimp only
  repeat' (first
    | with_reducible assumption
    | with_reducible apply State.withL2_keeps
    | with_reducible apply State.l2Drop_keeps
    | with_reducible apply keeps_ite
    | split)

theorem State.wakeStack_keeps {s0 s : State} (hk : Keeps s0 s) (line : Nat) : Keeps s0 (State.wakeStack s line) := by
  unfold State.wakeStack
  try dsimp only
  repeat' (first
    | with_reducible assumption
    | with_reducible apply keeps_ite
    | split
    | (apply Keeps.mkA; first | with_reducible assumption))

theorem State.l2Fill_keeps {s0 s : State} (hk : Keeps s0 s) (host : Option Nat) (line : Nat) (bytes : Line) : Keeps s0 (State.l2Fill s host line bytes) := by
  unfold State.l2Fill
  try dsimp only
  repeat' (first
    | with_reducible assumption
    | with_reducible apply State.l2Alloc_keeps
    | with_reducible apply keeps_ite)

theorem State.correctLine_keeps {s0 s : State} (hk : Keeps s0 s) (line : Nat) : Keeps s0 (State.correctLine s line) := by
  unfold State.correctLine
  try dsimp only
  repeat' (first
    | with_reducible assumption
    | with_reducible apply State.logCorrected_keeps
    | with_reducible apply keeps_foldl
    | intro _ _ _ _ _
    | intro _ _ _ _
    | (intro _ _ _; try dsimp only)
    | with_reducible apply keeps_ite
    | split
    | (apply Keeps.mkB; first | with_reducible assumption))

theorem State.l2Read_keeps {s0 s : State} (hk : Keeps s0 s) (line : Nat) (cacheable : Bool) : Keeps s0 (State.l2Read s line cacheable) := by
  unfold State.l2Read
  try dsimp only
  repeat' (first
    | with_reducible assumption
    | with_reducible apply State.l2Touch_keeps
    | with_reducible apply State.wakeStack_keeps
    | with_reducible apply State.l2Fill_keeps
    | with_reducible apply State.correctLine_keeps
    | with_reducible apply keeps_ite
    | split)

theorem State.l2Write_keeps {s0 s : State} (hk : Keeps s0 s) (line : Nat) (cacheable : Bool) : Keeps s0 (State.l2Write s line cacheable) := by
  unfold State.l2Write
  try dsimp only
  repeat' (first
    | with_reducible assumption
    | with_reducible apply State.l2Drop_keeps
    | with_reducible apply State.l2Touch_keeps
    | with_reducible apply State.l2Alloc_keeps
    | with_reducible apply State.wakeStack_keeps
    | with_reducible apply keeps_ite
    | split)

theorem State.storeTable_keeps {s0 s : State} (hk : Keeps s0 s) (a : Fin 1024) : Keeps s0 (State.storeTable s a) := by
  unfold State.storeTable
  try dsimp only
  repeat' (first
    | with_reducible assumption
    | with_reducible apply keeps_ite
    | split
    | refine State.withMem_keeps ?_ _ (keeps_writeBytes ?_))

theorem State.setEntries_keeps {s0 s : State} (hk : Keeps s0 s) (a : Fin 1024) (es : List RangeEntry) : Keeps s0 (State.setEntries s a es) := by
  unfold State.setEntries
  try dsimp only
  repeat' (first
    | with_reducible assumption
    | with_reducible apply State.setSpace_keeps
    | with_reducible apply State.storeTable_keeps)

theorem State.nextGen_keeps {s0 s : State} (hk : Keeps s0 s) (a : Fin 1024) : Keeps s0 (State.nextGen s a).2 := by
  unfold State.nextGen
  try dsimp only
  repeat' (first
    | with_reducible assumption
    | with_reducible apply State.setSpace_keeps)
theorem State.nextGen_keepsE {s0 s s9 : State} (hk : Keeps s0 s) {a : Fin 1024} {r0 : BitVec 16} (eq9 : State.nextGen s a = (r0, s9)) : Keeps s0 s9 := by
  have k := State.nextGen_keeps hk a 
  rw [eq9] at k
  exact k

theorem State.flushRanges_keeps {s0 s : State} (h : Keeps s0 s) (a : Fin 1024) : Keeps s0 (s.flushRanges a) := by
  refine Keeps.mkR h (fun i => (h.inv i).1) (fun i c => ?_)
  refine Table.get_map_of (P := fun x : Cluster => Mem.wf x.store = true) (fun _ => rfl) ?_ ((h.inv i).2 c)
  exact fun _ k => k

theorem State.walk_keeps {s0 s : State} (hk : Keeps s0 s) (a : Fin 1024) (va : Nat) : Keeps s0 (State.walk s a va).2 := by
  unfold State.walk
  try dsimp only
  repeat' (first
    | with_reducible assumption
    | with_reducible apply State.l2Read_keeps
    | with_reducible apply keeps_foldl
    | intro _ _ _ _ _
    | intro _ _ _ _
    | (intro _ _ _; try dsimp only))
theorem State.walk_keepsE {s0 s s9 : State} (hk : Keeps s0 s) {a : Fin 1024} {va : Nat} {r0 : Option RangeEntry} (eq9 : State.walk s a va = (r0, s9)) : Keeps s0 s9 := by
  have k := State.walk_keeps hk a va 
  rw [eq9] at k
  exact k

theorem State.lookup_keeps {s0 s : State} (hk : Keeps s0 s) (c : ClusterId) (port : CachePort) (a : Fin 1024) (va : Nat) : Keeps s0 (State.lookup s c port a va).2 := by
  unfold State.lookup
  try dsimp only
  repeat' (first
    | with_reducible assumption
    | with_reducible apply State.walk_keeps
    | refine State.walk_keepsE ?_ (by with_reducible assumption)
    | refine State.setCluster_keeps ?_ _ _ (keeps_rangeCache ?_ _ _ _)
    | refine State.setCluster_keeps ?_ _ _ (Keeps.store ?_ _)
    | with_reducible apply keeps_ite
    | split)
theorem State.lookup_keepsE {s0 s s9 : State} (hk : Keeps s0 s) {c : ClusterId} {port : CachePort} {a : Fin 1024} {va : Nat} {r0 : Option RangeEntry} (eq9 : State.lookup s c port a va = (r0, s9)) : Keeps s0 s9 := by
  have k := State.lookup_keeps hk c port a va 
  rw [eq9] at k
  exact k

theorem State.count_keeps {s0 s : State} (hk : Keeps s0 s) (a : Fin 1024) (e : RangeEntry) (va : Nat) : Keeps s0 (State.count s a e va) := by
  unfold State.count
  try dsimp only
  repeat' (first
    | with_reducible assumption
    | with_reducible apply State.postEvent_keeps
    | with_reducible apply keeps_ite
    | split
    | refine State.withMem_keeps ?_ _ (keeps_writeBytes ?_))

theorem State.countSpan_keeps {s0 s : State} (hk : Keeps s0 s) (a : Fin 1024) (e : RangeEntry) (va : Nat) (n : Nat) : Keeps s0 (State.countSpan s a e va n) := by
  unfold State.countSpan
  try dsimp only
  repeat' (first
    | with_reducible assumption
    | with_reducible apply State.count_keeps
    | with_reducible apply keeps_forBelow
    | intro _ _ _ _ _
    | intro _ _ _ _
    | (intro _ _ _; try dsimp only))

theorem State.clearCounters_keeps {s0 s : State} (hk : Keeps s0 s) (a : Fin 1024) (e : RangeEntry) : Keeps s0 (State.clearCounters s a e) := by
  unfold State.clearCounters
  try dsimp only
  repeat' (first
    | with_reducible assumption
    | with_reducible apply keeps_ite
    | split
    | refine State.withMem_keeps ?_ _ (keeps_writeBytes ?_)
    | refine State.withMem_keeps ?_ _ (keeps_clear ?_))

theorem State.deviceWrite_keeps {s0 s : State} (hk : Keeps s0 s) (pa : Nat) (bytes : List Byte) (cacheable : Bool) : Keeps s0 (State.deviceWrite s pa bytes cacheable) := by
  unfold State.deviceWrite
  try dsimp only
  repeat' (first
    | with_reducible assumption
    | with_reducible apply State.writeMem_keeps
    | with_reducible apply State.l2Write_keeps
    | with_reducible apply keeps_foldl
    | intro _ _ _ _ _
    | intro _ _ _ _
    | (intro _ _ _; try dsimp only))

theorem State.writeSeal_keeps {s0 s : State} (hk : Keeps s0 s) (pa : Nat) : Keeps s0 (State.writeSeal s pa) := by
  unfold State.writeSeal
  try dsimp only
  repeat' (first
    | with_reducible assumption
    | with_reducible apply State.writeMem_keeps)

end Sys2Proof.Machine
end

