-- ==== Sys2Proof/Laws/KeepsJobOps.lean ====
section
/-! SUPPORT. The shared operations of Machine/JobOps.lean keep the queue and the invariant. -/
namespace Sys2Proof.Machine

theorem State.bumpEpoch_keeps {s0 s : State} (hk : Keeps s0 s) (kind : Nat) (number : Nat) (inReset : Bool) : Keeps s0 (State.bumpEpoch s kind number inReset) := by
  unfold State.bumpEpoch
  try dsimp only
  repeat' (first
    | with_reducible assumption
    | with_reducible apply State.setUnit_keeps)

theorem State.startReset_keeps {s0 s : State} (hk : Keeps s0 s) (kind : Nat) (number : Nat) : Keeps s0 (State.startReset s kind number) := by
  unfold State.startReset
  try dsimp only
  repeat' (first
    | with_reducible assumption
    | with_reducible apply State.setUnit_keeps
    | with_reducible apply State.bumpEpoch_keeps
    | with_reducible apply keeps_ite
    | split)

theorem State.unfreeze_keeps {s0 s : State} (hk : Keeps s0 s) (k : MasterKind) (n : Nat) : Keeps s0 (State.unfreeze s k n) := by
  unfold State.unfreeze
  try dsimp only
  repeat' (first
    | with_reducible assumption
    | with_reducible apply State.startReset_keeps
    | with_reducible apply keeps_ite
    | split
    | (apply Keeps.mkA; first | with_reducible assumption))

theorem State.drainFaults_keeps (n : Nat) {s0 s : State} (h : Keeps s0 s)  : Keeps s0 (State.drainFaults n s ) := by
  induction n generalizing s with
  | zero => exact h
  | succ n ih =>
    unfold State.drainFaults
    try dsimp only
    repeat' (first
      | with_reducible assumption
      | with_reducible apply ih
      | with_reducible apply State.setRing_keeps
      | with_reducible apply State.emit_keeps
      | with_reducible apply State.signalRing_keeps
      | with_reducible apply keeps_ite
      | split
      | (apply Keeps.mkA; first | with_reducible assumption | with_reducible apply ih | with_reducible apply State.setRing_keeps))

theorem State.flushFaults_keeps {s0 s : State} (hk : Keeps s0 s)  : Keeps s0 (State.flushFaults s) := by
  unfold State.flushFaults
  try dsimp only
  repeat' (first
    | with_reducible assumption
    | with_reducible apply State.drainFaults_keeps)

theorem State.suspendNotices_keeps {s0 s : State} (hk : Keeps s0 s) (st : StreamId) (id : W32) : Keeps s0 (State.suspendNotices s st id) := by
  unfold State.suspendNotices
  try dsimp only
  repeat' (first
    | with_reducible assumption
    | with_reducible apply State.modStream_keeps
    | with_reducible apply State.flushStream_keeps)

theorem State.postFault_keeps {s0 s : State} (hk : Keeps s0 s) (st : StreamId) (master : Nat) (c : Option ClusterId) (access : BitVec 4) (va : Word) (len : Nat) (idx : Option W32) : Keeps s0 (State.postFault s st master c access va len idx) := by
  unfold State.postFault
  try dsimp only
  repeat' (first
    | with_reducible assumption
    | with_reducible apply State.modStream_keeps
    | with_reducible apply State.settleJob_keeps
    | with_reducible apply State.flushFaults_keeps
    | with_reducible apply State.suspendNotices_keeps
    | with_reducible apply keeps_ite
    | split
    | (apply Keeps.mkA; first | with_reducible assumption))

theorem State.voidFaults_keeps {s0 s : State} (hk : Keeps s0 s) (p : FaultInfo → Bool) : Keeps s0 (State.voidFaults s p) := by
  unfold State.voidFaults
  try dsimp only
  repeat' (first
    | with_reducible assumption
    | with_reducible apply keeps_ite
    | split
    | (apply Keeps.mkA; first | with_reducible assumption))

theorem State.suspect_keeps {s0 s : State} (hk : Keeps s0 s) (c : ClusterId) : Keeps s0 (State.suspect s c) := by
  unfold State.suspect
  try dsimp only
  repeat' (first
    | with_reducible assumption
    | with_reducible apply keeps_ite
    | split
    | (apply Keeps.mkA; first | with_reducible assumption))

theorem State.suspectLog_keeps {s0 s : State} (hk : Keeps s0 s) (c : ClusterId) (e : LogEntry) : Keeps s0 (State.suspectLog s c e) := by
  unfold State.suspectLog
  try dsimp only
  repeat' (first
    | with_reducible assumption
    | with_reducible apply State.addLog_keeps
    | with_reducible apply State.suspect_keeps)

theorem State.forget_keeps {s0 s : State} (hk : Keeps s0 s) (p : PeerReq → Bool) : Keeps s0 (State.forget s p) := by
  unfold State.forget
  try dsimp only
  repeat' (first
    | with_reducible assumption
    | with_reducible apply keeps_ite
    | split
    | (apply Keeps.mkA; first | with_reducible assumption))

theorem State.chargeWaiting_keeps {s0 s : State} (hk : Keeps s0 s) (c : ClusterId) : Keeps s0 (State.chargeWaiting s c) := by
  unfold State.chargeWaiting
  try dsimp only
  repeat' (first
    | with_reducible assumption
    | with_reducible apply State.suspectLog_keeps
    | with_reducible apply keeps_foldl
    | intro _ _ _ _ _
    | intro _ _ _ _
    | (intro _ _ _; try dsimp only)
    | with_reducible apply keeps_ite
    | split)

theorem State.releaseCluster_keeps {s0 s : State} (hk : Keeps s0 s) (c : ClusterId) : Keeps s0 (State.releaseCluster s c) := by
  unfold State.releaseCluster
  try dsimp only
  repeat' (first
    | with_reducible assumption
    | with_reducible apply State.chargeWaiting_keeps
    | (refine State.modCluster_keeps ?_ _ _ ?_; rotate_left; intro _ k; first | exact k))

theorem State.revertMigrate_keeps {s0 s : State} (hk : Keeps s0 s) (a : Fin 1024) (st : StreamId) (d : Desc) : Keeps s0 (State.revertMigrate s a st d) := by
  unfold State.revertMigrate
  try dsimp only
  repeat' (first
    | with_reducible assumption
    | with_reducible apply State.opEnd_keeps
    | with_reducible apply State.setEntries_keeps
    | with_reducible apply State.nextGen_keeps
    | refine State.nextGen_keepsE ?_ (by with_reducible assumption)
    | with_reducible apply State.flushRanges_keeps
    | with_reducible apply keeps_ite
    | split)

theorem State.kvClear_keeps {s0 s : State} (hk : Keeps s0 s) (a : Fin 1024) (d : Desc) : Keeps s0 (State.kvClear s a d) := by
  unfold State.kvClear
  try dsimp only
  repeat' (first
    | with_reducible assumption
    | with_reducible apply State.writeMem_keeps
    | with_reducible apply State.deviceWrite_keeps
    | with_reducible apply State.writeSeal_keeps
    | with_reducible apply keeps_ite
    | split)

theorem State.revertDesc_keeps {s0 s : State} (hk : Keeps s0 s) (a : Fin 1024) (st : StreamId) (d : Desc) : Keeps s0 (State.revertDesc s a st d) := by
  unfold State.revertDesc
  try dsimp only
  repeat' (first
    | with_reducible assumption
    | with_reducible apply State.revertMigrate_keeps
    | with_reducible apply State.kvClear_keeps
    | with_reducible apply keeps_ite)

theorem State.discardContext_keeps {s0 s : State} (hk : Keeps s0 s) (c : ClusterId) : Keeps s0 (State.discardContext s c) := by
  unfold State.discardContext
  try dsimp only
  repeat' (first
    | with_reducible assumption
    | with_reducible apply State.begin_keeps
    | with_reducible apply State.releaseCluster_keeps
    | (refine State.modCluster_keeps ?_ _ _ ?_; rotate_left; intro _ k; first | exact k)
    | with_reducible apply keeps_ite)

theorem State.cancelDesc_keeps {s0 s : State} (hk : Keeps s0 s) (st : StreamId) (d : Desc) : Keeps s0 (State.cancelDesc s st d) := by
  unfold State.cancelDesc
  try dsimp only
  repeat' (first
    | with_reducible assumption
    | with_reducible apply State.modJob_keeps
    | with_reducible apply State.forget_keeps
    | with_reducible apply State.revertDesc_keeps
    | with_reducible apply State.discardContext_keeps
    | with_reducible apply keeps_foldl
    | intro _ _ _ _ _
    | intro _ _ _ _
    | (intro _ _ _; try dsimp only)
    | with_reducible apply keeps_ite)

theorem State.haltStream_keeps {s0 s : State} (hk : Keeps s0 s) (st : StreamId) (reason : Nat) (idx : W32) : Keeps s0 (State.haltStream s st reason idx) := by
  unfold State.haltStream
  try dsimp only
  repeat' (first
    | with_reducible assumption
    | with_reducible apply State.modStream_keeps
    | with_reducible apply State.postHalted_keeps
    | with_reducible apply State.cancelDesc_keeps
    | with_reducible apply keeps_foldl
    | intro _ _ _ _ _
    | intro _ _ _ _
    | (intro _ _ _; try dsimp only)
    | with_reducible apply keeps_ite)

theorem State.badDescriptor_keeps {s0 s : State} (hk : Keeps s0 s) (st : StreamId) (idx : W32) (detail : Nat) : Keeps s0 (State.badDescriptor s st idx detail) := by
  unfold State.badDescriptor
  try dsimp only
  repeat' (first
    | with_reducible assumption
    | with_reducible apply State.flushStream_keeps
    | with_reducible apply State.markFinished_keeps
    | with_reducible apply State.settle_keeps
    | with_reducible apply State.haltStream_keeps)

theorem State.abortStream_keeps {s0 s : State} (hk : Keeps s0 s) (j : JobId) (st : StreamId) : Keeps s0 (State.abortStream s j st) := by
  unfold State.abortStream
  try dsimp only
  repeat' (first
    | with_reducible assumption
    | with_reducible apply State.modStream_keeps
    | with_reducible apply State.flushStream_keeps
    | with_reducible apply State.revertDesc_keeps
    | with_reducible apply keeps_foldl
    | intro _ _ _ _ _
    | intro _ _ _ _
    | (intro _ _ _; try dsimp only))

theorem State.restartStream_keeps {s0 s : State} (hk : Keeps s0 s) (x : Job) (st : StreamId) : Keeps s0 (State.restartStream s x st) := by
  unfold State.restartStream
  try dsimp only
  repeat' (first
    | with_reducible assumption
    | with_reducible apply State.setStream_keeps
    | with_reducible apply State.flushStream_keeps)

theorem State.endJob_keeps {s0 s : State} (hk : Keeps s0 s) (j : JobId) (p : JobPhase) : Keeps s0 (State.endJob s j p) := by
  unfold State.endJob
  try dsimp only
  repeat' (first
    | with_reducible assumption
    | with_reducible apply State.modStream_keeps
    | with_reducible apply State.setJob_keeps
    | with_reducible apply State.postJobState_keeps
    | with_reducible apply State.finish_keeps
    | with_reducible apply State.unfreeze_keeps
    | with_reducible apply keeps_foldl
    | intro _ _ _ _ _
    | intro _ _ _ _
    | (intro _ _ _; try dsimp only)
    | with_reducible apply keeps_ite
    | split
    | (apply Keeps.mkA; first | with_reducible assumption | with_reducible apply State.modStream_keeps | with_reducible apply State.setJob_keeps))

theorem State.continueAbort_keeps {s0 s : State} (hk : Keeps s0 s) (j : JobId) : Keeps s0 (State.continueAbort s j) := by
  unfold State.continueAbort
  try dsimp only
  repeat' (first
    | with_reducible assumption
    | with_reducible apply State.setJob_keeps
    | with_reducible apply State.voidFaults_keeps
    | with_reducible apply State.forget_keeps
    | with_reducible apply State.releaseCluster_keeps
    | with_reducible apply State.abortStream_keeps
    | with_reducible apply State.restartStream_keeps
    | with_reducible apply State.endJob_keeps
    | with_reducible apply keeps_foldl
    | intro _ _ _ _ _
    | intro _ _ _ _
    | (intro _ _ _; try dsimp only)
    | with_reducible apply keeps_ite
    | split)

theorem State.goOnAborts_keeps {s0 s : State} (hk : Keeps s0 s)  : Keeps s0 (State.goOnAborts s) := by
  unfold State.goOnAborts
  try dsimp only
  repeat' (first
    | with_reducible assumption
    | with_reducible apply State.continueAbort_keeps
    | with_reducible apply keeps_foldl
    | intro _ _ _ _ _
    | intro _ _ _ _
    | (intro _ _ _; try dsimp only)
    | with_reducible apply keeps_ite)

theorem State.failJob_keeps {s0 s : State} (hk : Keeps s0 s) (j : JobId) : Keeps s0 (State.failJob s j) := by
  unfold State.failJob
  try dsimp only
  repeat' (first
    | with_reducible assumption
    | with_reducible apply State.setJob_keeps
    | with_reducible apply State.continueAbort_keeps
    | with_reducible apply keeps_ite
    | split)

theorem State.abortJob_keeps {s0 s : State} (hk : Keeps s0 s) (j : JobId) : Keeps s0 (State.abortJob s j) := by
  unfold State.abortJob
  try dsimp only
  repeat' (first
    | with_reducible assumption
    | with_reducible apply State.setJob_keeps
    | with_reducible apply State.continueAbort_keeps
    | with_reducible apply keeps_ite
    | split)

theorem State.requestAbort_keeps {s0 s : State} (hk : Keeps s0 s) (j : JobId) : Keeps s0 (State.requestAbort s j) := by
  unfold State.requestAbort
  try dsimp only
  repeat' (first
    | with_reducible assumption
    | with_reducible apply State.setJob_keeps
    | with_reducible apply State.continueAbort_keeps
    | with_reducible apply keeps_ite
    | split)

theorem State.causeOf_keeps {s0 s : State} (hk : Keeps s0 s) (c : ClusterId) (status : Nat) (detail : Nat) : Keeps s0 (State.causeOf s c status detail) := by
  unfold State.causeOf
  try dsimp only
  repeat' (first
    | with_reducible assumption
    | with_reducible apply State.postCause_keeps
    | with_reducible apply keeps_ite
    | split)

theorem State.failCluster_keeps {s0 s : State} (hk : Keeps s0 s) (c : ClusterId) : Keeps s0 (State.failCluster s c) := by
  unfold State.failCluster
  try dsimp only
  repeat' (first
    | with_reducible assumption
    | with_reducible apply State.failJob_keeps
    | with_reducible apply keeps_ite
    | split)

theorem State.holdMaster_keeps {s0 s : State} (hk : Keeps s0 s) (k : MasterKind) (n : Nat) (job : Option JobId) (cause : Nat) : Keeps s0 (State.holdMaster s k n job cause) := by
  unfold State.holdMaster
  try dsimp only
  repeat' (first
    | with_reducible assumption
    | with_reducible apply State.postEvent_keeps
    | with_reducible apply keeps_ite
    | split
    | (apply Keeps.mkA; first | with_reducible assumption))

theorem State.freezeCluster_keeps {s0 s : State} (hk : Keeps s0 s) (k : MasterKind) (c : ClusterId) (cause : Nat) : Keeps s0 (State.freezeCluster s k c cause) := by
  unfold State.freezeCluster
  try dsimp only
  repeat' (first
    | with_reducible assumption
    | with_reducible apply State.causeOf_keeps
    | with_reducible apply State.failCluster_keeps
    | with_reducible apply State.holdMaster_keeps
    | (refine State.modCluster_keeps ?_ _ _ ?_; rotate_left; intro _ k; first | exact k)
    | with_reducible apply keeps_ite)

theorem State.abortStreams_keeps {s0 s : State} (hk : Keeps s0 s) (p : Stream → Bool) (status : Nat) (detail : Nat) : Keeps s0 (State.abortStreams s p status detail) := by
  unfold State.abortStreams
  try dsimp only
  repeat' (first
    | with_reducible assumption
    | with_reducible apply State.postCause_keeps
    | with_reducible apply State.abortJob_keeps
    | with_reducible apply keeps_foldl
    | intro _ _ _ _ _
    | intro _ _ _ _
    | (intro _ _ _; try dsimp only)
    | with_reducible apply keeps_ite
    | split)

theorem State.freezeVf_keeps {s0 s : State} (hk : Keeps s0 s) (f : FunctionId) : Keeps s0 (State.freezeVf s f) := by
  unfold State.freezeVf
  try dsimp only
  repeat' (first
    | with_reducible assumption
    | with_reducible apply State.holdMaster_keeps
    | with_reducible apply State.abortStreams_keeps
    | with_reducible apply keeps_ite)

theorem State.fencedFor_keeps {s0 s : State} (hk : Keeps s0 s) (c : ClusterId) (kind : Nat) (number : Nat) : Keeps s0 (State.fencedFor s c kind number) := by
  unfold State.fencedFor
  try dsimp only
  repeat' (first
    | with_reducible assumption
    | with_reducible apply State.causeOf_keeps
    | with_reducible apply State.failCluster_keeps)

end Sys2Proof.Machine
end

