-- ==== Sys2Proof/Laws/KeepsSieve.lean ====
section
/-! SUPPORT. The shared operations of Machine/Sieve.lean keep the queue and the invariant. -/
namespace Sys2Proof.Machine

theorem State.strike_keeps {s0 s : State} (hk : Keeps s0 s) (c : ClusterId) (rows : List Nat) (v : Nat) (holds : Nat → Nat → Bool) : Keeps s0 (State.strike s c rows v holds).2.2 := by
  unfold State.strike
  try dsimp only
  repeat' (first
    | with_reducible assumption
    | with_reducible apply State.addLog_keeps
    | (refine State.modCluster_keeps ?_ _ _ ?_; rotate_left; intro _ k; first | exact k)
    | with_reducible apply keeps_ite
    | split
    | dsimp only)
theorem State.strike_keepsE {s0 s s9 : State} (hk : Keeps s0 s) {c : ClusterId} {rows : List Nat} {v : Nat} {holds : Nat → Nat → Bool} {r0 : Nat} {r1 : Bool} (eq9 : State.strike s c rows v holds = (r0, r1, s9)) : Keeps s0 s9 := by
  have k := State.strike_keeps hk c rows v holds 
  rw [eq9] at k
  exact k

theorem State.clearMarks_keeps {s0 s : State} (hk : Keeps s0 s) (c : ClusterId) (p : EccMark → Bool) : Keeps s0 (State.clearMarks s c p) := by
  unfold State.clearMarks
  try dsimp only
  repeat' (first
    | with_reducible assumption
    | (refine State.modCluster_keeps ?_ _ _ ?_; rotate_left; intro _ k; first | exact k)
    | with_reducible apply keeps_ite)

theorem State.readMarks_keeps {s0 s : State} (hk : Keeps s0 s) (c : ClusterId) (p : EccMark → Bool) : Keeps s0 (State.readMarks s c p).2 := by
  unfold State.readMarks
  try dsimp only
  repeat' (first
    | with_reducible assumption
    | with_reducible apply State.addLog_keeps
    | with_reducible apply State.logCorrected_keeps
    | with_reducible apply State.clearMarks_keeps
    | with_reducible apply keeps_foldl
    | intro _ _ _ _ _
    | intro _ _ _ _
    | (intro _ _ _; try dsimp only)
    | with_reducible apply keeps_ite
    | split)
theorem State.readMarks_keepsE {s0 s s9 : State} (hk : Keeps s0 s) {c : ClusterId} {p : EccMark → Bool} {r0 : Option EccMark} (eq9 : State.readMarks s c p = (r0, s9)) : Keeps s0 s9 := by
  have k := State.readMarks_keeps hk c p 
  rw [eq9] at k
  exact k

end Sys2Proof.Machine
end

