-- ==== Sys2Proof/Laws/KeepsAccess.lean ====
section
/-! SUPPORT. The shared operations of Machine/Access.lean keep the queue and the invariant. -/
namespace Sys2Proof.Machine

theorem State.access_keeps {s0 s : State} (hk : Keeps s0 s) (c : ClusterId) (m : MasterKind) (port : CachePort) (right : Right) (va : Word) (n : Nat) : Keeps s0 (State.access s c m port right va n).2 := by
  unfold State.access
  try dsimp only
  repeat' (first
    | with_reducible assumption
    | with_reducible apply State.lookup_keeps
    | refine State.lookup_keepsE ?_ (by with_reducible assumption)
    | with_reducible apply State.readMarks_keeps
    | refine State.readMarks_keepsE ?_ (by with_reducible assumption)
    | with_reducible apply keeps_ite
    | split)
theorem State.access_keepsE {s0 s s9 : State} (hk : Keeps s0 s) {c : ClusterId} {m : MasterKind} {port : CachePort} {right : Right} {va : Word} {n : Nat} {r0 : Access} (eq9 : State.access s c m port right va n = (r0, s9)) : Keeps s0 s9 := by
  have k := State.access_keeps hk c m port right va n 
  rw [eq9] at k
  exact k

theorem State.aerReport_keeps {s0 s : State} (hk : Keeps s0 s) (f : FunctionId) (e : AerError) : Keeps s0 (State.aerReport s f e) := by
  unfold State.aerReport
  try dsimp only
  repeat' (first
    | with_reducible assumption
    | with_reducible apply keeps_ite
    | split
    | (apply Keeps.mkA; first | with_reducible assumption))

theorem State.unsupported_keeps {s0 s : State} (hk : Keeps s0 s) (f : FunctionId) : Keeps s0 (State.unsupported s f) := by
  unfold State.unsupported
  try dsimp only
  repeat' (first
    | with_reducible assumption
    | with_reducible apply State.emit_keeps
    | with_reducible apply State.aerReport_keeps)

theorem State.hostError_keeps {s0 s : State} (hk : Keeps s0 s) (f : Nat) (addr : Nat) (kind : Nat) : Keeps s0 (State.hostError s f addr kind) := by
  unfold State.hostError
  try dsimp only
  repeat' (first
    | with_reducible assumption
    | with_reducible apply State.addLog_keeps
    | with_reducible apply State.aerReport_keeps
    | with_reducible apply keeps_ite
    | split
    | (apply Keeps.mkA; first | with_reducible assumption))

theorem State.hostRead_keeps {s0 s : State} (hk : Keeps s0 s) (f : Nat) (iova : Nat) (n : Nat) : Keeps s0 (State.hostRead s f iova n).2 := by
  unfold State.hostRead
  try dsimp only
  repeat' (first
    | with_reducible assumption
    | with_reducible apply State.emit_keeps
    | with_reducible apply State.hostError_keeps
    | with_reducible apply keeps_ite
    | split
    | (apply Keeps.mkA; first | with_reducible assumption))
theorem State.hostRead_keepsE {s0 s s9 : State} (hk : Keeps s0 s) {f : Nat} {iova : Nat} {n : Nat} {r0 : Except Nat (List Byte)} (eq9 : State.hostRead s f iova n = (r0, s9)) : Keeps s0 s9 := by
  have k := State.hostRead_keeps hk f iova n 
  rw [eq9] at k
  exact k

theorem State.hostLineWrite_keeps {s0 s : State} (hk : Keeps s0 s) (f : Nat) (iova : Nat) (bytes : List Byte) (line : Nat) : Keeps s0 (State.hostLineWrite s f iova bytes line) := by
  unfold State.hostLineWrite
  try dsimp only
  repeat' (first
    | with_reducible assumption
    | with_reducible apply State.l2Drop_keeps
    | with_reducible apply State.l2Touch_keeps
    | with_reducible apply keeps_foldl
    | with_reducible apply keeps_ite
    | split)

theorem State.hostWrite_keeps {s0 s : State} (hk : Keeps s0 s) (f : Nat) (iova : Nat) (bytes : List Byte) : Keeps s0 (State.hostWrite s f iova bytes) := by
  unfold State.hostWrite
  try dsimp only
  repeat' (first
    | with_reducible assumption
    | with_reducible apply State.emit_keeps
    | with_reducible apply State.hostLineWrite_keeps
    | with_reducible apply keeps_foldl
    | intro _ _ _ _ _
    | intro _ _ _ _
    | (intro _ _ _; try dsimp only))

theorem State.hostLoad_keeps {s0 s : State} (hk : Keeps s0 s) (f : Nat) (iova : Nat) (n : Nat) (cacheable : Bool) : Keeps s0 (State.hostLoad s f iova n cacheable).2 := by
  unfold State.hostLoad
  try dsimp only
  repeat' (first
    | with_reducible assumption
    | with_reducible apply State.l2Touch_keeps
    | with_reducible apply State.l2Fill_keeps
    | with_reducible apply State.hostRead_keeps
    | refine State.hostRead_keepsE ?_ (by with_reducible assumption)
    | with_reducible apply keeps_ite
    | split)
theorem State.hostLoad_keepsE {s0 s s9 : State} (hk : Keeps s0 s) {f : Nat} {iova : Nat} {n : Nat} {cacheable : Bool} {r0 : Except Nat (List Byte)} (eq9 : State.hostLoad s f iova n cacheable = (r0, s9)) : Keeps s0 s9 := by
  have k := State.hostLoad_keeps hk f iova n cacheable 
  rw [eq9] at k
  exact k

theorem State.sendRequest_keeps {s0 s : State} (hk : Keeps s0 s) (c : ClusterId) (m : MasterKind) (kind : Nat) (dst : BitVec 12) (addr : Nat) (len : Nat) (op : Nat) (sealedBlk : Bool) (crc : Option W32) (data : List Byte) (purpose : PeerFor) (va : Word) (work : Option (StreamId × W32)) : Keeps s0 (State.sendRequest s c m kind dst addr len op sealedBlk crc data purpose va work) := by
  unfold State.sendRequest
  try dsimp only
  repeat' (first
    | with_reducible assumption
    | with_reducible apply State.sendPacket_keeps
    | with_reducible apply State.fencedFor_keeps
    | with_reducible apply keeps_ite
    | split
    | (apply Keeps.mkA; first | with_reducible assumption))

theorem State.deviceRead_keeps {s0 s : State} (hk : Keeps s0 s) (pa : Nat) (n : Nat) (cacheable : Bool) : Keeps s0 (State.deviceRead s pa n cacheable).2 := by
  unfold State.deviceRead
  try dsimp only
  repeat' (first
    | with_reducible assumption
    | with_reducible apply State.l2Read_keeps
    | with_reducible apply keeps_foldl
    | intro _ _ _ _ _
    | intro _ _ _ _
    | (intro _ _ _; try dsimp only))
theorem State.deviceRead_keepsE {s0 s s9 : State} (hk : Keeps s0 s) {pa : Nat} {n : Nat} {cacheable : Bool} {r0 : List Byte} (eq9 : State.deviceRead s pa n cacheable = (r0, s9)) : Keeps s0 s9 := by
  have k := State.deviceRead_keeps hk pa n cacheable 
  rw [eq9] at k
  exact k

theorem State.mirrorLate_keeps {s0 s : State} (hk : Keeps s0 s) (a : Fin 1024) (va : Nat) (bytes : List Byte) : Keeps s0 (State.mirrorLate s a va bytes) := by
  unfold State.mirrorLate
  try dsimp only
  repeat' (first
    | with_reducible assumption
    | with_reducible apply State.modDesc_keeps
    | with_reducible apply keeps_ite
    | split)

theorem State.mirror_keeps {s0 s : State} (hk : Keeps s0 s) (a : Fin 1024) (va : Nat) (bytes : List Byte) : Keeps s0 (State.mirror s a va bytes) := by
  unfold State.mirror
  try dsimp only
  repeat' (first
    | with_reducible assumption
    | with_reducible apply State.writeMem_keeps
    | with_reducible apply State.hostWrite_keeps
    | with_reducible apply State.sendRequest_keeps
    | with_reducible apply State.mirrorLate_keeps
    | with_reducible apply keeps_ite
    | split)

theorem State.countBack_keeps {s0 s : State} (hk : Keeps s0 s) (l : L1Line) (pa : Nat) : Keeps s0 (State.countBack s l pa) := by
  unfold State.countBack
  try dsimp only
  repeat' (first
    | with_reducible assumption
    | with_reducible apply State.count_keeps
    | with_reducible apply keeps_ite
    | split)

theorem State.logFenced_keeps {s0 s : State} (hk : Keeps s0 s) (c : ClusterId) (addr : Nat) (size : Nat) : Keeps s0 (State.logFenced s c addr size) := by
  unfold State.logFenced
  try dsimp only
  repeat' (first
    | with_reducible assumption
    | with_reducible apply State.addLog_keeps)

theorem State.writeBack_keeps {s0 s : State} (hk : Keeps s0 s) (c : ClusterId) (l : L1Line) : Keeps s0 (State.writeBack s c l) := by
  unfold State.writeBack
  try dsimp only
  repeat' (first
    | with_reducible assumption
    | with_reducible apply State.writeMem_keeps
    | with_reducible apply State.poisonLine_keeps
    | with_reducible apply State.l2Write_keeps
    | with_reducible apply State.countBack_keeps
    | with_reducible apply State.logFenced_keeps
    | with_reducible apply keeps_foldl
    | intro _ _ _ _ _
    | intro _ _ _ _
    | (intro _ _ _; try dsimp only)
    | with_reducible apply keeps_ite
    | split
    | refine State.withMem_keeps ?_ _ (keeps_writeBytes ?_)
    | refine State.withMem_keeps ?_ _ (keeps_clear ?_)
    | refine State.withMem_keeps ?_ _ (keeps_write ?_))

theorem State.offerClean_keeps {s0 s : State} (hk : Keeps s0 s) (l : L1Line) : Keeps s0 (State.offerClean s l) := by
  unfold State.offerClean
  try dsimp only
  repeat' (first
    | with_reducible assumption
    | with_reducible apply State.l2Touch_keeps
    | with_reducible apply State.l2Fill_keeps
    | with_reducible apply keeps_ite
    | split)

theorem State.evict_keeps {s0 s : State} (hk : Keeps s0 s) (c : ClusterId) (l : L1Line) : Keeps s0 (State.evict s c l) := by
  unfold State.evict
  try dsimp only
  repeat' (first
    | with_reducible assumption
    | with_reducible apply State.writeBack_keeps
    | with_reducible apply State.offerClean_keeps
    | with_reducible apply keeps_ite)

theorem State.maintain_keeps {s0 s : State} (h : Keeps s0 s) (c : ClusterId) (l : L1Line) (op : CacheOp) : Keeps s0 (State.maintain s c l op) := by
  cases op <;> unfold State.maintain <;> (try dsimp only)
  all_goals repeat' (first
    | with_reducible assumption
    | with_reducible apply State.writeBack_keeps
    | (refine State.modCluster_keeps ?_ _ _ ?_; rotate_left; intro _ k; exact k))

theorem State.landFill_keeps {s0 s : State} (hk : Keeps s0 s) (c : ClusterId) (t : Target) : Keeps s0 (State.landFill s c t) := by
  unfold State.landFill
  try dsimp only
  repeat' (first
    | with_reducible assumption
    | with_reducible apply State.deviceRead_keeps
    | refine State.deviceRead_keepsE ?_ (by with_reducible assumption)
    | with_reducible apply State.maintain_keeps
    | with_reducible apply keeps_foldl
    | (refine State.modCluster_keeps ?_ _ _ ?_; rotate_left; intro _ k; first | exact k)
    | intro _ _ _ _ _
    | intro _ _ _ _
    | (intro _ _ _; try dsimp only)
    | with_reducible apply keeps_ite
    | split)

theorem State.l1Alloc_keeps {s0 s : State} (hk : Keeps s0 s) (c : ClusterId) (l : L1Line) : Keeps s0 (State.l1Alloc s c l) := by
  unfold State.l1Alloc
  try dsimp only
  repeat' (first
    | with_reducible assumption
    | with_reducible apply State.evict_keeps
    | with_reducible apply State.landFill_keeps
    | (refine State.modCluster_keeps ?_ _ _ ?_; rotate_left; intro _ k; exact k)
    | with_reducible apply keeps_ite
    | split)

theorem State.cleanL1_keeps {s0 s : State} (hk : Keeps s0 s) (c : ClusterId) (inval : Bool) : Keeps s0 (State.cleanL1 s c inval) := by
  unfold State.cleanL1
  try dsimp only
  repeat' (first
    | with_reducible assumption
    | with_reducible apply State.maintain_keeps
    | with_reducible apply State.landFill_keeps
    | with_reducible apply keeps_foldl
    | intro _ _ _ _ _
    | intro _ _ _ _
    | (intro _ _ _; try dsimp only))

theorem State.quiesceSpan_keeps {s0 s : State} (hk : Keeps s0 s) (a : Fin 1024) (p : L1Line → Bool) : Keeps s0 (State.quiesceSpan s a p) := by
  unfold State.quiesceSpan
  try dsimp only
  repeat' (first
    | with_reducible assumption
    | with_reducible apply State.maintain_keeps
    | with_reducible apply State.landFill_keeps
    | with_reducible apply keeps_foldl
    | intro _ _ _ _ _
    | intro _ _ _ _
    | (intro _ _ _; try dsimp only)
    | with_reducible apply keeps_ite)

theorem State.storeWord_keeps {s0 s : State} (hk : Keeps s0 s) (c : ClusterId) (off : Nat) (bytes : List Byte) : Keeps s0 (State.storeWord s c off bytes) := by
  unfold State.storeWord
  try dsimp only
  repeat' (first
    | with_reducible assumption
    | with_reducible apply State.addLog_keeps
    | refine State.setCluster_keeps ?_ _ _ (keeps_storeBytes ?_)
    | with_reducible apply keeps_ite)

theorem State.storeFuel_keeps (n : Nat) {s0 s : State} (h : Keeps s0 s) (c : ClusterId) (off : Nat) (bytes : List Byte) : Keeps s0 (State.storeFuel n s c off bytes) := by
  induction n generalizing s c off bytes with
  | zero => exact h
  | succ n ih =>
    unfold State.storeFuel
    try dsimp only
    repeat' (first
      | with_reducible assumption
      | with_reducible apply ih
      | with_reducible apply State.storeWord_keeps
      | with_reducible apply keeps_ite
      | split)

theorem State.storeWrite_keeps {s0 s : State} (hk : Keeps s0 s) (c : ClusterId) (off : Nat) (bytes : List Byte) : Keeps s0 (State.storeWrite s c off bytes) := by
  unfold State.storeWrite
  try dsimp only
  repeat' (first
    | with_reducible assumption
    | with_reducible apply State.storeFuel_keeps)

theorem State.logDiscard_keeps {s0 s : State} (hk : Keeps s0 s) (c : ClusterId) (es : List StoreEntry) : Keeps s0 (State.logDiscard s c es) := by
  unfold State.logDiscard
  try dsimp only
  repeat' (first
    | with_reducible assumption
    | with_reducible apply State.addLog_keeps)

theorem State.l1Follow_keeps {s0 s : State} (hk : Keeps s0 s) (c : ClusterId) (t : Target) (bytes : List Byte) : Keeps s0 (State.l1Follow s c t bytes) := by
  unfold State.l1Follow
  try dsimp only
  repeat' (first
    | with_reducible assumption
    | (refine State.modCluster_keeps ?_ _ _ ?_; rotate_left; intro _ k; exact k)
    | with_reducible apply keeps_ite
    | split)

theorem State.settleHeld_keeps {s0 s : State} (hk : Keeps s0 s) (c : ClusterId) (t : Target) : Keeps s0 (State.settleHeld s c t) := by
  unfold State.settleHeld
  try dsimp only
  repeat' (first
    | with_reducible assumption
    | with_reducible apply State.landFill_keeps
    | with_reducible apply keeps_ite
    | split)

theorem State.settleAllHeld_keeps {s0 s : State} (hk : Keeps s0 s) (c : ClusterId) : Keeps s0 (State.settleAllHeld s c) := by
  unfold State.settleAllHeld
  try dsimp only
  repeat' (first
    | with_reducible assumption
    | with_reducible apply State.landFill_keeps
    | with_reducible apply keeps_foldl
    | intro _ _ _ _ _
    | intro _ _ _ _
    | (intro _ _ _; try dsimp only)
    | with_reducible apply keeps_ite)

theorem State.drainEntry_keeps {s0 s : State} (hk : Keeps s0 s) (c : ClusterId) (e : StoreEntry) : Keeps s0 (State.drainEntry s c e) := by
  unfold State.drainEntry
  try dsimp only
  repeat' (first
    | with_reducible assumption
    | with_reducible apply State.fresh_keeps
    | refine State.fresh_keepsE ?_ (by with_reducible assumption)
    | with_reducible apply State.count_keeps
    | with_reducible apply State.deviceWrite_keeps
    | with_reducible apply State.fencedFor_keeps
    | with_reducible apply State.hostWrite_keeps
    | with_reducible apply State.sendRequest_keeps
    | with_reducible apply State.mirror_keeps
    | with_reducible apply State.l1Alloc_keeps
    | with_reducible apply State.storeWrite_keeps
    | with_reducible apply State.logDiscard_keeps
    | with_reducible apply State.l1Follow_keeps
    | with_reducible apply State.settleHeld_keeps
    | refine State.setCluster_keeps ?_ _ _ (Keeps.store ?_ _)
    | with_reducible apply keeps_ite
    | split)

theorem State.drainN_keeps (n : Nat) {s0 s : State} (h : Keeps s0 s) (c : ClusterId) : Keeps s0 (State.drainN n s c) := by
  induction n generalizing s c with
  | zero => exact h
  | succ n ih =>
    unfold State.drainN
    try dsimp only
    repeat' (first
      | with_reducible assumption
      | with_reducible apply ih
      | with_reducible apply State.clearMarks_keeps
      | with_reducible apply State.readMarks_keeps
      | refine State.readMarks_keepsE ?_ (by with_reducible assumption)
      | with_reducible apply State.logDiscard_keeps
      | with_reducible apply State.drainEntry_keeps
      | (refine State.modCluster_keeps ?_ _ _ ?_; rotate_left; intro _ k; exact k)
      | with_reducible apply keeps_ite
      | split)

theorem State.drainStores_keeps {s0 s : State} (hk : Keeps s0 s) (c : ClusterId) : Keeps s0 (State.drainStores s c) := by
  unfold State.drainStores
  try dsimp only
  repeat' (first
    | with_reducible assumption
    | with_reducible apply State.drainN_keeps)

theorem State.pushStore_keeps {s0 s : State} (hk : Keeps s0 s) (c : ClusterId) (e : StoreEntry) : Keeps s0 (State.pushStore s c e) := by
  unfold State.pushStore
  try dsimp only
  repeat' (first
    | with_reducible assumption
    | with_reducible apply State.drainN_keeps
    | (refine State.modCluster_keeps ?_ _ _ ?_; rotate_left; intro _ k; first | exact k)
    | with_reducible apply keeps_ite)

theorem State.logSource_keeps {s0 s : State} (hk : Keeps s0 s) (j : Option JobId) (t : Target) : Keeps s0 (State.logSource s j t) := by
  unfold State.logSource
  try dsimp only
  repeat' (first
    | with_reducible assumption
    | with_reducible apply State.addLog_keeps
    | with_reducible apply keeps_ite
    | split)

theorem State.logConsumed_keeps {s0 s : State} (hk : Keeps s0 s) (c : ClusterId) (t : Target) : Keeps s0 (State.logConsumed s c t) := by
  unfold State.logConsumed
  try dsimp only
  repeat' (first
    | with_reducible assumption
    | with_reducible apply State.addLog_keeps
    | with_reducible apply State.logSource_keeps
    | with_reducible apply keeps_ite
    | split)

theorem State.l1Hit_keeps {s0 s : State} (hk : Keeps s0 s) (c : ClusterId) (l : L1Line) (i : Nat) (n : Nat) : Keeps s0 (State.l1Hit s c l i n).2 := by
  unfold State.l1Hit
  try dsimp only
  repeat' (first
    | with_reducible assumption
    | with_reducible apply State.readMarks_keeps
    | refine State.readMarks_keepsE ?_ (by with_reducible assumption)
    | (refine State.modCluster_keeps ?_ _ _ ?_; rotate_left; intro _ k; first | exact k)
    | with_reducible apply keeps_ite
    | split
    | refine keeps_snd (keeps_iteP ?_ ?_) (by with_reducible assumption)
    | dsimp only)
theorem State.l1Hit_keepsE {s0 s s9 : State} (hk : Keeps s0 s) {c : ClusterId} {l : L1Line} {i : Nat} {n : Nat} {r0 : Got} (eq9 : State.l1Hit s c l i n = (r0, s9)) : Keeps s0 s9 := by
  have k := State.l1Hit_keeps hk c l i n 
  rw [eq9] at k
  exact k

theorem State.kestrelRead_keeps {s0 s : State} (hk : Keeps s0 s) (c : ClusterId) (a : Fin 1024) (va : Nat) (t : Target) (e : Option RangeEntry) (n : Nat) : Keeps s0 (State.kestrelRead s c a va t e n).2 := by
  unfold State.kestrelRead
  try dsimp only
  repeat' (first
    | with_reducible assumption
    | with_reducible apply State.fresh_keeps
    | refine State.fresh_keepsE ?_ (by with_reducible assumption)
    | with_reducible apply State.count_keeps
    | with_reducible apply State.hostError_keeps
    | with_reducible apply State.hostLoad_keeps
    | refine State.hostLoad_keepsE ?_ (by with_reducible assumption)
    | with_reducible apply State.deviceRead_keeps
    | refine State.deviceRead_keepsE ?_ (by with_reducible assumption)
    | with_reducible apply State.landFill_keeps
    | with_reducible apply State.l1Alloc_keeps
    | with_reducible apply State.settleHeld_keeps
    | with_reducible apply State.l1Hit_keeps
    | refine State.l1Hit_keepsE ?_ (by with_reducible assumption)
    | with_reducible apply keeps_ite
    | split)
theorem State.kestrelRead_keepsE {s0 s s9 : State} (hk : Keeps s0 s) {c : ClusterId} {a : Fin 1024} {va : Nat} {t : Target} {e : Option RangeEntry} {n : Nat} {r0 : Got} (eq9 : State.kestrelRead s c a va t e n = (r0, s9)) : Keeps s0 s9 := by
  have k := State.kestrelRead_keeps hk c a va t e n 
  rw [eq9] at k
  exact k

end Sys2Proof.Machine
end

