-- ==== Sys2Proof/Laws/KeepsContext.lean ====
section
/-! SUPPORT. The shared operations of Machine/Context.lean keep the queue and the invariant. -/
namespace Sys2Proof.Machine

theorem State.writeEntry_keeps {s0 s : State} (hk : Keeps s0 s) (x : SectionId) (cause : Nat) (status : Nat) (bytes : List Byte) : Keeps s0 (State.writeEntry s x cause status bytes) := by
  unfold State.writeEntry
  try dsimp only
  repeat' (first
    | with_reducible assumption
    | with_reducible apply State.writeMem_keeps
    | with_reducible apply keeps_ite
    | split
    | (apply Keeps.mkA; first | with_reducible assumption | with_reducible apply State.writeMem_keeps))

theorem State.writeSection_keeps {s0 s : State} (hk : Keeps s0 s) (x : SectionId) (cause : Nat) (runs : List (Nat × List Byte)) : Keeps s0 (State.writeSection s x cause runs) := by
  unfold State.writeSection
  try dsimp only
  repeat' (first
    | with_reducible assumption
    | with_reducible apply State.writeMem_keeps
    | with_reducible apply State.writeEntry_keeps
    | with_reducible apply keeps_foldl
    | intro _ _ _ _ _
    | intro _ _ _ _
    | (intro _ _ _; try dsimp only)
    | with_reducible apply keeps_ite
    | split
    | refine State.withMem_keeps ?_ _ (keeps_writeBytes ?_)
    | refine State.withMem_keeps ?_ _ (keeps_clear ?_))

theorem State.dumpCluster_keeps {s0 s : State} (hk : Keeps s0 s) (c : ClusterId) (cause : Nat) : Keeps s0 (State.dumpCluster s c cause) := by
  unfold State.dumpCluster
  try dsimp only
  repeat' (first
    | with_reducible assumption
    | with_reducible apply State.writeSection_keeps
    | with_reducible apply keeps_ite
    | split
    | (apply Keeps.mkA; first | with_reducible assumption))

end Sys2Proof.Machine
end

