-- ==== Sys2Proof/Laws/KeepsTraps.lean ====
section
/-! SUPPORT. The shared operations of Machine/Traps.lean keep the queue and the invariant. -/
namespace Sys2Proof.Machine

theorem State.modK_keeps {s0 s : State} (hk : Keeps s0 s) (c : ClusterId) (f : Kestrel → Kestrel) : Keeps s0 (State.modK s c f) := by
  unfold State.modK
  try dsimp only
  repeat' (first
    | with_reducible assumption
    | (refine State.modCluster_keeps ?_ _ _ ?_; rotate_left; intro _ k; exact k))

theorem State.faultStop_keeps {s0 s : State} (hk : Keeps s0 s) (c : ClusterId) (master : Nat) (pc : Word) (access : BitVec 4) (va : Word) (len : Nat) : Keeps s0 (State.faultStop s c master pc access va len) := by
  unfold State.faultStop
  try dsimp only
  repeat' (first
    | with_reducible assumption
    | with_reducible apply State.postFault_keeps
    | with_reducible apply State.drainStores_keeps
    | with_reducible apply State.modK_keeps
    | (refine State.modCluster_keeps ?_ _ _ ?_; rotate_left; intro _ k; exact k)
    | with_reducible apply keeps_ite
    | split)

theorem State.powerDown_keeps {s0 s : State} (hk : Keeps s0 s) (c : ClusterId) : Keeps s0 (State.powerDown s c) := by
  unfold State.powerDown
  try dsimp only
  repeat' (first
    | with_reducible assumption
    | with_reducible apply State.bumpEpoch_keeps
    | with_reducible apply State.cleanL1_keeps
    | with_reducible apply State.drainStores_keeps
    | (refine State.modCluster_keeps ?_ _ _ ?_; rotate_left; intro _ k; first | exact k | rfl))

theorem State.markDumped_keeps {s0 s : State} (hk : Keeps s0 s) (c : ClusterId) : Keeps s0 (State.markDumped s c) := by
  unfold State.markDumped
  try dsimp only
  repeat' (first
    | with_reducible assumption
    | with_reducible apply keeps_ite
    | split
    | (apply Keeps.mkA; first | with_reducible assumption))

theorem State.holdCluster_keeps {s0 s : State} (hk : Keeps s0 s) (c : ClusterId) (cause : Nat) : Keeps s0 (State.holdCluster s c cause) := by
  unfold State.holdCluster
  try dsimp only
  repeat' (first
    | with_reducible assumption
    | with_reducible apply State.holdMaster_keeps)

theorem State.takeOut_keeps {s0 s : State} (hk : Keeps s0 s) (c : ClusterId) : Keeps s0 (State.takeOut s c) := by
  unfold State.takeOut
  try dsimp only
  repeat' (first
    | with_reducible assumption
    | with_reducible apply State.postCapacity_keeps
    | with_reducible apply State.bumpEpoch_keeps
    | with_reducible apply State.cleanL1_keeps
    | with_reducible apply State.drainStores_keeps
    | with_reducible apply State.powerDown_keeps
    | with_reducible apply keeps_ite
    | split
    | (apply Keeps.mkA; first | with_reducible assumption | with_reducible apply State.postCapacity_keeps | with_reducible apply State.bumpEpoch_keeps))

theorem State.frozenRecords_keeps {s0 s : State} (hk : Keeps s0 s) (c : ClusterId) : Keeps s0 (State.frozenRecords s c) := by
  unfold State.frozenRecords
  try dsimp only
  repeat' (first
    | with_reducible assumption
    | with_reducible apply State.causeOf_keeps
    | with_reducible apply keeps_foldl
    | intro _ _ _ _ _
    | intro _ _ _ _
    | (intro _ _ _; try dsimp only))

theorem State.clusterFatal_keeps {s0 s : State} (hk : Keeps s0 s) (c : ClusterId) (code : Nat) : Keeps s0 (State.clusterFatal s c code) := by
  unfold State.clusterFatal
  try dsimp only
  repeat' (first
    | with_reducible assumption
    | with_reducible apply State.suspectLog_keeps
    | with_reducible apply State.failCluster_keeps
    | with_reducible apply State.dumpCluster_keeps
    | with_reducible apply State.modK_keeps
    | with_reducible apply State.markDumped_keeps
    | with_reducible apply State.holdCluster_keeps
    | with_reducible apply State.takeOut_keeps
    | with_reducible apply State.frozenRecords_keeps
    | (refine State.modCluster_keeps ?_ _ _ ?_; rotate_left; intro _ k; exact k))

theorem State.stackBeats_keeps {s0 s : State} (hk : Keeps s0 s) (c : ClusterId) (off : Nat) (n : Nat) (frame : List Byte) : Keeps s0 (State.stackBeats s c off n frame) := by
  unfold State.stackBeats
  try dsimp only
  repeat' (first
    | with_reducible assumption
    | with_reducible apply State.storeWrite_keeps)

theorem State.owlEntry_keeps {s0 s : State} (hk : Keeps s0 s) (c : ClusterId) (code : Nat) (orig : Nat) (entry : Nat) (otval : Word) (oepc : Word) : Keeps s0 (State.owlEntry s c code orig entry otval oepc) := by
  unfold State.owlEntry
  try dsimp only
  repeat' (first
    | with_reducible assumption
    | with_reducible apply State.drainStores_keeps
    | with_reducible apply State.modK_keeps
    | with_reducible apply State.clusterFatal_keeps
    | with_reducible apply State.stackBeats_keeps
    | with_reducible apply keeps_ite
    | split)

theorem State.shadowPush_keeps {s0 s : State} (hk : Keeps s0 s) (c : ClusterId) (v : Word) : Keeps s0 (State.shadowPush s c v) := by
  unfold State.shadowPush
  try dsimp only
  repeat' (first
    | with_reducible assumption
    | with_reducible apply State.storeWrite_keeps
    | with_reducible apply State.modK_keeps)

theorem State.logWindow_keeps {s0 s : State} (hk : Keeps s0 s) (c : ClusterId) (off : Nat) : Keeps s0 (State.logWindow s c off) := by
  unfold State.logWindow
  try dsimp only
  repeat' (first
    | with_reducible assumption
    | with_reducible apply State.addLog_keeps)

theorem State.sEntry_keeps {s0 s : State} (hk : Keeps s0 s) (c : ClusterId) (cause : Nat) (tval : Word) (savedPc : Word) (vector : Nat) : Keeps s0 (State.sEntry s c cause tval savedPc vector) := by
  unfold State.sEntry
  try dsimp only
  repeat' (first
    | with_reducible assumption
    | with_reducible apply State.drainStores_keeps
    | with_reducible apply State.modK_keeps
    | with_reducible apply State.stackBeats_keeps
    | with_reducible apply State.owlEntry_keeps
    | with_reducible apply State.shadowPush_keeps
    | with_reducible apply State.logWindow_keeps
    | with_reducible apply keeps_ite
    | split)

theorem State.raise_keeps {s0 s : State} (hk : Keeps s0 s) (c : ClusterId) (code : Nat) (tval : Word) (savedPc : Word) : Keeps s0 (State.raise s c code tval savedPc) := by
  unfold State.raise
  try dsimp only
  repeat' (first
    | with_reducible assumption
    | with_reducible apply State.modK_keeps
    | with_reducible apply State.clusterFatal_keeps
    | with_reducible apply State.owlEntry_keeps
    | with_reducible apply State.sEntry_keeps
    | with_reducible apply keeps_ite)

theorem State.xlateFault_keeps {s0 s : State} (hk : Keeps s0 s) (c : ClusterId) (access : BitVec 4) (va : Word) (len : Nat) : Keeps s0 (State.xlateFault s c access va len) := by
  unfold State.xlateFault
  try dsimp only
  repeat' (first
    | with_reducible assumption
    | with_reducible apply State.faultStop_keeps
    | with_reducible apply State.clusterFatal_keeps
    | with_reducible apply keeps_ite)

theorem State.owlLog_keeps {s0 s : State} (hk : Keeps s0 s) (c : ClusterId) : Keeps s0 (State.owlLog s c) := by
  unfold State.owlLog
  try dsimp only
  repeat' (first
    | with_reducible assumption
    | with_reducible apply State.addLog_keeps
    | with_reducible apply State.suspectLog_keeps
    | with_reducible apply keeps_ite)

theorem State.abortParked_keeps {s0 s : State} (hk : Keeps s0 s) (c : ClusterId) : Keeps s0 (State.abortParked s c) := by
  unfold State.abortParked
  try dsimp only
  repeat' (first
    | with_reducible assumption
    | with_reducible apply State.continueAbort_keeps
    | with_reducible apply State.failJob_keeps
    | with_reducible apply keeps_ite
    | split)

theorem State.park_keeps {s0 s : State} (hk : Keeps s0 s) (c : ClusterId) : Keeps s0 (State.park s c) := by
  unfold State.park
  try dsimp only
  repeat' (first
    | with_reducible assumption
    | with_reducible apply State.startReset_keeps
    | with_reducible apply State.causeOf_keeps
    | with_reducible apply State.holdMaster_keeps
    | with_reducible apply State.modK_keeps
    | with_reducible apply State.owlLog_keeps
    | with_reducible apply State.abortParked_keeps
    | with_reducible apply keeps_ite)

theorem State.fetchLine_keeps {s0 s : State} (hk : Keeps s0 s) (c : ClusterId) (va : Word) (t : Target) (e : Option RangeEntry) (n : Nat) : Keeps s0 (State.fetchLine s c va t e n).2 := by
  unfold State.fetchLine
  try dsimp only
  repeat' (first
    | with_reducible assumption
    | with_reducible apply State.l2Read_keeps
    | with_reducible apply State.count_keeps
    | with_reducible apply State.readMarks_keeps
    | refine State.readMarks_keepsE ?_ (by with_reducible assumption)
    | with_reducible apply State.hostError_keeps
    | with_reducible apply State.hostLoad_keeps
    | refine State.hostLoad_keepsE ?_ (by with_reducible assumption)
    | (refine State.modCluster_keeps ?_ _ _ ?_; rotate_left; intro _ k; first | exact k)
    | with_reducible apply keeps_ite
    | split
    | refine keeps_snd (keeps_iteP ?_ ?_) (by with_reducible assumption)
    | dsimp only)
theorem State.fetchLine_keepsE {s0 s s9 : State} (hk : Keeps s0 s) {c : ClusterId} {va : Word} {t : Target} {e : Option RangeEntry} {n : Nat} {r0 : Got} (eq9 : State.fetchLine s c va t e n = (r0, s9)) : Keeps s0 s9 := by
  have k := State.fetchLine_keeps hk c va t e n 
  rw [eq9] at k
  exact k

theorem State.fetch_keeps {s0 s : State} (hk : Keeps s0 s) (c : ClusterId) (n : Nat) : Keeps s0 (State.fetch s c n).2 := by
  unfold State.fetch
  try dsimp only
  repeat' (first
    | with_reducible assumption
    | with_reducible apply State.freezeCluster_keeps
    | with_reducible apply State.fencedFor_keeps
    | with_reducible apply State.readMarks_keeps
    | refine State.readMarks_keepsE ?_ (by with_reducible assumption)
    | with_reducible apply State.access_keeps
    | refine State.access_keepsE ?_ (by with_reducible assumption)
    | with_reducible apply State.hostError_keeps
    | with_reducible apply State.logConsumed_keeps
    | with_reducible apply State.logWindow_keeps
    | with_reducible apply State.raise_keeps
    | with_reducible apply State.xlateFault_keeps
    | with_reducible apply State.fetchLine_keeps
    | refine State.fetchLine_keepsE ?_ (by with_reducible assumption)
    | with_reducible apply keeps_ite
    | split)
theorem State.fetch_keepsE {s0 s s9 : State} (hk : Keeps s0 s) {c : ClusterId} {n : Nat} {r0 : Bool} (eq9 : State.fetch s c n = (r0, s9)) : Keeps s0 s9 := by
  have k := State.fetch_keeps hk c n 
  rw [eq9] at k
  exact k

theorem State.withRegs_keeps {s0 s : State} (hk : Keeps s0 s) (c : ClusterId) (reads : List (BitVec 5)) (f : State → State) (hf : ∀ (x0 : State), Keeps s0 x0 → Keeps s0 (f x0)) : Keeps s0 (State.withRegs s c reads f) := by
  unfold State.withRegs
  try dsimp only
  repeat' (first
    | with_reducible assumption
    | with_reducible apply State.readMarks_keeps
    | refine State.readMarks_keepsE ?_ (by with_reducible assumption)
    | with_reducible apply State.raise_keeps
    | with_reducible apply hf
    | with_reducible apply keeps_ite
    | split)

theorem State.issue_keeps {s0 s : State} (hk : Keeps s0 s) (c : ClusterId) (n : Nat) (f : State → State) (reads : List (BitVec 5) := []) (hf : ∀ (x0 : State), Keeps s0 x0 → Keeps s0 (f x0)) : Keeps s0 (State.issue s c n f reads) := by
  unfold State.issue
  try dsimp only
  repeat' (first
    | with_reducible assumption
    | with_reducible apply State.fetch_keeps
    | refine State.fetch_keepsE ?_ (by with_reducible assumption)
    | with_reducible apply State.withRegs_keeps
    | with_reducible apply hf
    | with_reducible apply keeps_ite
    | split)

theorem State.advance_keeps {s0 s : State} (hk : Keeps s0 s) (c : ClusterId) (n : Nat) : Keeps s0 (State.advance s c n) := by
  unfold State.advance
  try dsimp only
  repeat' (first
    | with_reducible assumption
    | with_reducible apply State.modK_keeps)

theorem State.writeReg_keeps {s0 s : State} (hk : Keeps s0 s) (c : ClusterId) (rd : BitVec 5) (v : Word) (n : Nat) : Keeps s0 (State.writeReg s c rd v n) := by
  unfold State.writeReg
  try dsimp only
  repeat' (first
    | with_reducible assumption
    | with_reducible apply State.clearMarks_keeps
    | with_reducible apply State.modK_keeps)

theorem State.checked_keeps {s0 s : State} (hk : Keeps s0 s) (c : ClusterId) (rows : List Nat) (v : Word) (holds : Nat → Nat → Bool) (f : Word → State → State) (hf : ∀ (x0 : Word) (x1 : State), Keeps s0 x1 → Keeps s0 (f x0 x1)) : Keeps s0 (State.checked s c rows v holds f) := by
  unfold State.checked
  try dsimp only
  repeat' (first
    | with_reducible assumption
    | with_reducible apply State.strike_keeps
    | refine State.strike_keepsE ?_ (by with_reducible assumption)
    | with_reducible apply State.raise_keeps
    | with_reducible apply hf
    | with_reducible apply keeps_ite
    | split)

theorem State.writeChecked_keeps {s0 s : State} (hk : Keeps s0 s) (c : ClusterId) (rows : List Nat) (rd : BitVec 5) (v : Word) (holds : Nat → Nat → Bool) : Keeps s0 (State.writeChecked s c rows rd v holds) := by
  unfold State.writeChecked
  try dsimp only
  repeat' (first
    | with_reducible assumption
    | with_reducible apply State.writeReg_keeps
    | with_reducible apply State.checked_keeps
    | intro _ _ _ _ _
    | intro _ _ _ _
    | (intro _ _ _; try dsimp only))

end Sys2Proof.Machine
end

