-- ==== Sys2Proof/Laws/KeepsOperands.lean ====
section
/-! SUPPORT. The shared operations of Machine/Operands.lean keep the queue and the invariant. -/
namespace Sys2Proof.Machine

theorem State.raiseWord_keeps {s0 s : State} (hk : Keeps s0 s) (c : ClusterId) (code : Nat) (word : Word) : Keeps s0 (State.raiseWord s c code word) := by
  unfold State.raiseWord
  try dsimp only
  repeat' (first
    | with_reducible assumption
    | with_reducible apply State.raise_keeps)

end Sys2Proof.Machine
end

