-- ==== Sys2Proof/Laws/KeepsFlags.lean ====
section
/-! SUPPORT. The shared operations of Machine/Flags.lean keep the queue and the invariant. -/
namespace Sys2Proof.Machine

theorem State.pushReport_keeps {s0 s : State} (hk : Keeps s0 s) (c : ClusterId) (r : Report) : Keeps s0 (State.pushReport s c r) := by
  unfold State.pushReport
  try dsimp only
  repeat' (first
    | with_reducible assumption
    | with_reducible apply State.addLog_keeps
    | with_reducible apply State.modK_keeps
    | with_reducible apply keeps_ite)

theorem State.setVflags_keeps {s0 s : State} (hk : Keeps s0 s) (c : ClusterId) (pc : Word) (fl : FFlags) : Keeps s0 (State.setVflags s c pc fl) := by
  unfold State.setVflags
  try dsimp only
  repeat' (first
    | with_reducible assumption
    | with_reducible apply State.pushReport_keeps
    | (refine State.modCluster_keeps ?_ _ _ ?_; rotate_left; intro _ k; first | exact k)
    | with_reducible apply keeps_ite)

theorem State.setHflags_keeps {s0 s : State} (hk : Keeps s0 s) (c : ClusterId) (fl : BitVec 3) : Keeps s0 (State.setHflags s c fl) := by
  unfold State.setHflags
  try dsimp only
  repeat' (first
    | with_reducible assumption
    | (refine State.modCluster_keeps ?_ _ _ ?_; rotate_left; intro _ k; first | exact k))

end Sys2Proof.Machine
end

