-- ==== Sys2Proof/Laws/KeepsHarrierOps.lean ====
section
/-! SUPPORT. The shared operations of Machine/HarrierOps.lean keep the queue and the invariant. -/
namespace Sys2Proof.Machine

theorem State.vfails_keeps {s0 s : State} (hk : Keeps s0 s) (c : ClusterId) (pc : Word) (cause : Nat) : Keeps s0 (State.vfails s c pc cause) := by
  unfold State.vfails
  try dsimp only
  repeat' (first
    | with_reducible assumption
    | with_reducible apply State.pushReport_keeps)

/-- A result word put in place leaves the cluster store. -/
theorem vResult_put {major func : Nat} {f : VFields} {x : Cluster} {u : Upset} {w : VResult} (h : vResult major func f x u = some w)
    (t : Nat) (y : Cluster) : (w.put t y).store = y.store := by
  unfold vResult at h
  dsimp only at h
  split at h <;> (try split at h) <;> (try split at h) <;> cases h <;> rfl
theorem State.vguard_keeps {s0 s : State} (hk : Keeps s0 s) (c : ClusterId) (major : Nat) (func : Nat) (f : VFields) (pc : Word) (run : State → State) (hrun : ∀ (x0 : State), Keeps s0 x0 → Keeps s0 (run x0)) : Keeps s0 (State.vguard s c major func f pc run) := by
  unfold State.vguard
  try dsimp only
  repeat' (first
    | with_reducible assumption
    | with_reducible apply State.strike_keeps
    | refine State.strike_keepsE ?_ (by with_reducible assumption)
    | with_reducible apply State.clearMarks_keeps
    | with_reducible apply State.readMarks_keeps
    | refine State.readMarks_keepsE ?_ (by with_reducible assumption)
    | with_reducible apply State.vfails_keeps
    | with_reducible apply hrun
    | refine State.modCluster_keeps ?_ _ _ (fun y k => by rw [vResult_put (by assumption)]; exact k)
    | with_reducible apply keeps_ite
    | split)

theorem State.vissue_keeps {s0 s : State} (hk : Keeps s0 s) (c : ClusterId) (major : Nat) (func : Nat) (f : VFields) (bad : Bool) (run : Word → State → State) (hrun : ∀ (x0 : Word) (x1 : State), Keeps s0 x1 → Keeps s0 (run x0 x1)) : Keeps s0 (State.vissue s c major func f bad run) := by
  unfold State.vissue
  try dsimp only
  repeat' (first
    | with_reducible assumption
    | with_reducible apply State.issue_keeps
    | with_reducible apply State.advance_keeps
    | with_reducible apply State.raiseWord_keeps
    | with_reducible apply State.vguard_keeps
    | with_reducible apply hrun
    | (refine State.modCluster_keeps ?_ _ _ ?_; rotate_left; intro _ k; first | exact k)
    | intro _ _ _ _ _
    | intro _ _ _ _
    | intro _ _ _
    | (intro _ _; try dsimp only)
    | with_reducible apply keeps_ite)

theorem State.finishV_keeps {s0 s : State} (hk : Keeps s0 s) (c : ClusterId) (pc : Word) (h : Harrier) (fl : FFlags) : Keeps s0 (State.finishV s c pc h fl) := by
  unfold State.finishV
  try dsimp only
  repeat' (first
    | with_reducible assumption
    | with_reducible apply State.fresh_keeps
    | refine State.fresh_keepsE ?_ (by with_reducible assumption)
    | with_reducible apply State.setVflags_keeps
    | (refine State.modCluster_keeps ?_ _ _ ?_; rotate_left; intro _ k; exact k))

end Sys2Proof.Machine
end

