-- ==== Sys2Proof/Laws/KeepsHarrierArith.lean ====
section
/-! SUPPORT. The shared operations of Machine/HarrierArith.lean keep the queue and the invariant. -/
namespace Sys2Proof.Machine

theorem State.varith_keeps {s0 s : State} (hk : Keeps s0 s) (c : ClusterId) (func : Nat) (f : VFields) (unary : Bool) (rounds : Bool) (typeFits : Nat → Bool) (op : Harrier → ElemOp) : Keeps s0 (State.varith s c func f unary rounds typeFits op) := by
  unfold State.varith
  try dsimp only
  repeat' (first
    | with_reducible assumption
    | with_reducible apply State.vissue_keeps
    | with_reducible apply State.finishV_keeps
    | intro _ _ _ _ _
    | intro _ _ _ _
    | (intro _ _ _; try dsimp only))

theorem State.vfmaOp_keeps {s0 s : State} (hk : Keeps s0 s) (c : ClusterId) (func : Nat) (f : VFields) (negP : Bool) (negC : Bool) (useVc : Bool) : Keeps s0 (State.vfmaOp s c func f negP negC useVc) := by
  unfold State.vfmaOp
  try dsimp only
  repeat' (first
    | with_reducible assumption
    | with_reducible apply State.vissue_keeps
    | with_reducible apply State.finishV_keeps
    | intro _ _ _ _ _
    | intro _ _ _ _
    | (intro _ _ _; try dsimp only))

theorem State.vcmp_keeps {s0 s : State} (hk : Keeps s0 s) (c : ClusterId) (op : Nat) (f : VFields) : Keeps s0 (State.vcmp s c op f) := by
  unfold State.vcmp
  try dsimp only
  repeat' (first
    | with_reducible assumption
    | with_reducible apply State.vissue_keeps
    | with_reducible apply State.finishV_keeps
    | intro _ _ _ _ _
    | intro _ _ _ _
    | (intro _ _ _; try dsimp only))

theorem State.vperm_keeps {s0 s : State} (hk : Keeps s0 s) (c : ClusterId) (func : Nat) (f : VFields) (use : VUse) (srcs : List (Nat × Nat)) (g : Harrier → Word → Nat → List Nat) : Keeps s0 (State.vperm s c func f use srcs g) := by
  unfold State.vperm
  try dsimp only
  repeat' (first
    | with_reducible assumption
    | with_reducible apply State.vissue_keeps
    | with_reducible apply State.finishV_keeps
    | intro _ _ _ _ _
    | intro _ _ _ _
    | (intro _ _ _; try dsimp only))

theorem State.vred_keeps {s0 s : State} (hk : Keeps s0 s) (c : ClusterId) (func : Nat) (f : VFields) (typeFits : Nat → Bool) (sum : Bool) (op : Harrier → ElemOp) : Keeps s0 (State.vred s c func f typeFits sum op) := by
  unfold State.vred
  try dsimp only
  repeat' (first
    | with_reducible assumption
    | with_reducible apply State.vissue_keeps
    | with_reducible apply State.finishV_keeps
    | intro _ _ _ _ _
    | intro _ _ _ _
    | (intro _ _ _; try dsimp only))

theorem State.vpred_keeps {s0 s : State} (hk : Keeps s0 s) (c : ClusterId) (func : Nat) (f : VFields) (vb : Bool) (op : BitVec 2048 → BitVec 2048 → BitVec 2048) : Keeps s0 (State.vpred s c func f vb op) := by
  unfold State.vpred
  try dsimp only
  repeat' (first
    | with_reducible assumption
    | with_reducible apply State.vissue_keeps
    | with_reducible apply State.finishV_keeps
    | intro _ _ _ _ _
    | intro _ _ _ _
    | (intro _ _ _; try dsimp only))

end Sys2Proof.Machine
end

