-- ==== Sys2Proof/Laws/KeepsHearth.lean ====
section
/-! SUPPORT. The shared operations of Machine/Hearth.lean keep the queue and the invariant. -/
namespace Sys2Proof.Machine

theorem State.hflagged_keeps {s0 s : State} (hk : Keeps s0 s) (c : ClusterId) (pc : Word) (fl : BitVec 4) : Keeps s0 (State.hflagged s c pc fl) := by
  unfold State.hflagged
  try dsimp only
  repeat' (first
    | with_reducible assumption
    | with_reducible apply State.addLog_keeps
    | with_reducible apply State.setHflags_keeps
    | with_reducible apply State.vfails_keeps
    | with_reducible apply keeps_ite)

theorem State.hissue_keeps {s0 s : State} (hk : Keeps s0 s) (c : ClusterId) (major : Nat) (func : Nat) (f : VFields) (bad : Bool) (run : State → Harrier → Hearth → Hearth × BitVec 4) : Keeps s0 (State.hissue s c major func f bad run) := by
  unfold State.hissue
  try dsimp only
  repeat' (first
    | with_reducible assumption
    | with_reducible apply State.vissue_keeps
    | with_reducible apply State.hflagged_keeps
    | (refine State.modCluster_keeps ?_ _ _ ?_; rotate_left; intro _ k; exact k)
    | intro _ _ _ _ _
    | intro _ _ _ _
    | (intro _ _ _; try dsimp only))

end Sys2Proof.Machine
end

