-- ==== Sys2Proof/Laws/KeepsKestrelAlu.lean ====
section
/-! SUPPORT. The shared operations of Machine/KestrelAlu.lean keep the queue and the invariant. -/
namespace Sys2Proof.Machine

theorem State.aluRR_keeps {s0 s : State} (hk : Keeps s0 s) (c : ClusterId) (rd : BitVec 5) (ra : BitVec 5) (rb : BitVec 5) (f : Word → Word → Word) (u : Datapath) : Keeps s0 (State.aluRR s c rd ra rb f u) := by
  unfold State.aluRR
  try dsimp only
  repeat' (first
    | with_reducible assumption
    | with_reducible apply State.issue_keeps
    | with_reducible apply State.writeChecked_keeps
    | intro _ _ _ _ _
    | intro _ _ _ _
    | intro _ _ _
    | (intro _ _; try dsimp only))

theorem State.aluRI_keeps {s0 s : State} (hk : Keeps s0 s) (c : ClusterId) (rd : BitVec 5) (ra : BitVec 5) (b : Word) (f : Word → Word → Word) (u : Datapath) : Keeps s0 (State.aluRI s c rd ra b f u) := by
  unfold State.aluRI
  try dsimp only
  repeat' (first
    | with_reducible assumption
    | with_reducible apply State.issue_keeps
    | with_reducible apply State.writeChecked_keeps
    | intro _ _ _ _ _
    | intro _ _ _ _
    | intro _ _ _
    | (intro _ _; try dsimp only))

theorem State.shiftI_keeps {s0 s : State} (hk : Keeps s0 s) (c : ClusterId) (minor3 : Nat) (rd : BitVec 5) (ra : BitVec 5) (imm : BitVec 12) (f : Word → Nat → Word) : Keeps s0 (State.shiftI s c minor3 rd ra imm f) := by
  unfold State.shiftI
  try dsimp only
  repeat' (first
    | with_reducible assumption
    | with_reducible apply State.issue_keeps
    | with_reducible apply State.writeChecked_keeps
    | with_reducible apply State.raiseWord_keeps
    | intro _ _ _ _ _
    | intro _ _ _ _
    | intro _ _ _
    | (intro _ _; try dsimp only)
    | with_reducible apply keeps_ite)

theorem State.divRR_keeps {s0 s : State} (hk : Keeps s0 s) (c : ClusterId) (rd : BitVec 5) (ra : BitVec 5) (rb : BitVec 5) (f : Word → Word → Word) (rem : Bool) (mag : Word → Nat) : Keeps s0 (State.divRR s c rd ra rb f rem mag) := by
  unfold State.divRR
  try dsimp only
  repeat' (first
    | with_reducible assumption
    | with_reducible apply State.raise_keeps
    | with_reducible apply State.issue_keeps
    | with_reducible apply State.writeChecked_keeps
    | intro _ _ _ _ _
    | intro _ _ _ _
    | intro _ _ _
    | (intro _ _; try dsimp only)
    | with_reducible apply keeps_ite)

end Sys2Proof.Machine
end

