-- ==== Sys2Proof/Laws/KeepsKestrelBranch.lean ====
section
/-! SUPPORT. The shared operations of Machine/KestrelBranch.lean keep the queue and the invariant. -/
namespace Sys2Proof.Machine

theorem State.setPc_keeps {s0 s : State} (hk : Keeps s0 s) (c : ClusterId) (pc : Word) : Keeps s0 (State.setPc s c pc) := by
  unfold State.setPc
  try dsimp only
  repeat' (first
    | with_reducible assumption
    | with_reducible apply State.modK_keeps)

theorem State.branch_keeps {s0 s : State} (hk : Keeps s0 s) (c : ClusterId) (ra : BitVec 5) (rb : BitVec 5) (imm : BitVec 12) (p : Word → Word → Bool) : Keeps s0 (State.branch s c ra rb imm p) := by
  unfold State.branch
  try dsimp only
  repeat' (first
    | with_reducible assumption
    | with_reducible apply State.issue_keeps
    | with_reducible apply State.advance_keeps
    | with_reducible apply State.checked_keeps
    | with_reducible apply State.setPc_keeps
    | intro _ _ _ _ _
    | intro _ _ _ _
    | (intro _ _ _; try dsimp only)
    | (intro _ _; try dsimp only)
    | with_reducible apply keeps_ite)

theorem State.target_keeps {s0 s : State} (hk : Keeps s0 s) (c : ClusterId) (base : Word) (off : Word) (f : Word → State → State) (hf : ∀ (x0 : Word) (x1 : State), Keeps s0 x1 → Keeps s0 (f x0 x1)) : Keeps s0 (State.target s c base off f) := by
  unfold State.target
  try dsimp only
  repeat' (first
    | with_reducible assumption
    | with_reducible apply State.checked_keeps)

theorem State.callTo_keeps {s0 s : State} (hk : Keeps s0 s) (c : ClusterId) (word : Word) (base : Word) (off : Word) : Keeps s0 (State.callTo s c word base off) := by
  unfold State.callTo
  try dsimp only
  repeat' (first
    | with_reducible assumption
    | with_reducible apply State.clearMarks_keeps
    | with_reducible apply State.modK_keeps
    | with_reducible apply State.shadowPush_keeps
    | with_reducible apply State.raise_keeps
    | with_reducible apply State.raiseWord_keeps
    | with_reducible apply State.target_keeps
    | intro _ _ _ _ _
    | intro _ _ _ _
    | (intro _ _ _; try dsimp only)
    | with_reducible apply keeps_ite)

end Sys2Proof.Machine
end

