-- ==== Sys2Proof/Laws/KeepsKestrelSystem.lean ====
section
/-! SUPPORT. The shared operations of Machine/KestrelSystem.lean keep the queue and the invariant. -/
namespace Sys2Proof.Machine

theorem State.modH_keeps {s0 s : State} (hk : Keeps s0 s) (c : ClusterId) (f : Harrier → Harrier) : Keeps s0 (State.modH s c f) := by
  unfold State.modH
  try dsimp only
  repeat' (first
    | with_reducible assumption
    | (refine State.modCluster_keeps ?_ _ _ ?_; rotate_left; intro _ k; exact k))

theorem State.modM_keeps {s0 s : State} (hk : Keeps s0 s) (c : ClusterId) (f : Hearth → Hearth) : Keeps s0 (State.modM s c f) := by
  unfold State.modM
  try dsimp only
  repeat' (first
    | with_reducible assumption
    | (refine State.modCluster_keeps ?_ _ _ ?_; rotate_left; intro _ k; exact k))

theorem State.setDet_keeps {s0 s : State} (hk : Keeps s0 s) (c : ClusterId) (on : Bool) : Keeps s0 (State.setDet s c on) := by
  unfold State.setDet
  try dsimp only
  repeat' (first
    | with_reducible assumption
    | with_reducible apply State.cleanL1_keeps
    | with_reducible apply State.drainStores_keeps
    | with_reducible apply State.modK_keeps
    | (refine State.modCluster_keeps ?_ _ _ ?_; rotate_left; intro _ k; first | exact k)
    | with_reducible apply keeps_ite)

theorem State.sysWrite_keeps {s0 s : State} (hk : Keeps s0 s) (c : ClusterId) (n : Nat) (v : Word) : Keeps s0 (State.sysWrite s c n v) := by
  unfold State.sysWrite
  try dsimp only
  repeat' (first
    | with_reducible assumption
    | with_reducible apply State.modK_keeps
    | with_reducible apply State.modH_keeps
    | with_reducible apply State.modM_keeps
    | with_reducible apply State.setDet_keeps
    | with_reducible apply keeps_ite)

theorem State.writeSys_keeps {s0 s : State} (hk : Keeps s0 s) (c : ClusterId) (rd : BitVec 5) (ra : BitVec 5) (code : BitVec 12) : Keeps s0 (State.writeSys s c rd ra code) := by
  unfold State.writeSys
  try dsimp only
  repeat' (first
    | with_reducible assumption
    | with_reducible apply State.owlEntry_keeps
    | with_reducible apply State.shadowPush_keeps
    | with_reducible apply State.raise_keeps
    | with_reducible apply State.issue_keeps
    | with_reducible apply State.advance_keeps
    | with_reducible apply State.raiseWord_keeps
    | with_reducible apply State.sysWrite_keeps
    | intro _ _ _ _ _
    | intro _ _ _ _
    | intro _ _ _
    | (intro _ _; try dsimp only)
    | with_reducible apply keeps_ite
    | split)

theorem State.readSys_keeps {s0 s : State} (hk : Keeps s0 s) (c : ClusterId) (rd : BitVec 5) (ra : BitVec 5) (code : BitVec 12) : Keeps s0 (State.readSys s c rd ra code) := by
  unfold State.readSys
  try dsimp only
  repeat' (first
    | with_reducible assumption
    | with_reducible apply State.issue_keeps
    | with_reducible apply State.writeReg_keeps
    | with_reducible apply State.raiseWord_keeps
    | intro _ _ _ _ _
    | intro _ _ _ _
    | intro _ _ _
    | (intro _ _; try dsimp only)
    | with_reducible apply keeps_ite
    | split)

theorem State.eretPop_keeps {s0 s : State} (hk : Keeps s0 s) (c : ClusterId) (word : Word) : Keeps s0 (State.eretPop s c word) := by
  unfold State.eretPop
  try dsimp only
  repeat' (first
    | with_reducible assumption
    | with_reducible apply State.modK_keeps
    | with_reducible apply State.raise_keeps
    | with_reducible apply State.raiseWord_keeps
    | with_reducible apply keeps_ite
    | split)

end Sys2Proof.Machine
end

