-- ==== Sys2Proof/Laws/KeepsMoverOps.lean ====
section
/-! SUPPORT. The shared operations of Machine/MoverOps.lean keep the queue and the invariant. -/
namespace Sys2Proof.Machine

theorem State.sendWrites_keeps (n : Nat) {s0 s : State} (h : Keeps s0 s) (c : ClusterId) (w : Work) (dev : BitVec 12) (pa va : Nat) (b : Bool) (crc : Option W32) (bytes : List Byte) : Keeps s0 (State.sendWrites n s c w dev pa va b crc bytes) := by
  induction n generalizing s c w dev pa va b crc bytes with
  | zero => exact h
  | succ n ih =>
    unfold State.sendWrites
    try dsimp only
    repeat' (first
      | with_reducible assumption
      | with_reducible apply ih
      | with_reducible apply State.sendRequest_keeps
      | with_reducible apply keeps_ite
      | split)

theorem State.mirrorSeal_keeps {s0 s : State} (hk : Keeps s0 s) (a : Fin 1024) (va : Nat) (pa : Nat) (crc : W32) : Keeps s0 (State.mirrorSeal s a va pa crc) := by
  unfold State.mirrorSeal
  try dsimp only
  repeat' (first
    | with_reducible assumption
    | with_reducible apply State.writeMem_keeps
    | with_reducible apply State.sendWrites_keeps
    | with_reducible apply keeps_ite
    | split)

theorem State.hostLines_keeps (n : Nat) {s0 s : State} (h : Keeps s0 s) (f iova k : Nat) : Keeps s0 (State.hostLines n s f iova k).2 := by
  induction n generalizing s f iova k with
  | zero => exact h
  | succ n ih =>
    unfold State.hostLines
    try dsimp only
    repeat' (first
      | with_reducible assumption
      | with_reducible apply ih
      | refine keeps_snd (ih ?_ _ _ _) (by with_reducible assumption)
      | with_reducible apply State.hostLoad_keeps
      | refine State.hostLoad_keepsE ?_ (by with_reducible assumption)
      | with_reducible apply keeps_ite
      | split)
theorem State.hostLines_keepsE (n : Nat) {s0 s t : State} (h : Keeps s0 s) {f iova k : Nat} {r : Except Nat (List Byte)} (e : State.hostLines n s f iova k = (r, t)) : Keeps s0 t :=
  keeps_snd (State.hostLines_keeps n h _ _ _) e

theorem State.moverReadAt_keeps {s0 s : State} (hk : Keeps s0 s) (c : ClusterId) (a : Fin 1024) (va : Nat) (t : Target) (e : Option RangeEntry) (n : Nat) (own : Option Nat) : Keeps s0 (State.moverReadAt s c a va t e n own).2 := by
  unfold State.moverReadAt
  try dsimp only
  repeat' (first
    | with_reducible assumption
    | with_reducible apply State.count_keeps
    | with_reducible apply State.countSpan_keeps
    | with_reducible apply State.hostRead_keeps
    | refine State.hostRead_keepsE ?_ (by with_reducible assumption)
    | with_reducible apply State.deviceRead_keeps
    | refine State.deviceRead_keepsE ?_ (by with_reducible assumption)
    | with_reducible apply State.hostLines_keeps
    | refine State.hostLines_keepsE ?_ (by with_reducible assumption)
    | with_reducible apply keeps_foldl
    | intro _ _ _ _ _
    | intro _ _ _ _
    | (intro _ _ _; try dsimp only)
    | with_reducible apply keeps_ite
    | split
    | refine keeps_snd (keeps_iteP ?_ ?_) (by with_reducible assumption))
theorem State.moverReadAt_keepsE {s0 s s9 : State} (hk : Keeps s0 s) {c : ClusterId} {a : Fin 1024} {va : Nat} {t : Target} {e : Option RangeEntry} {n : Nat} {own : Option Nat} {r0 : MGot} (eq9 : State.moverReadAt s c a va t e n own = (r0, s9)) : Keeps s0 s9 := by
  have k := State.moverReadAt_keeps hk c a va t e n own 
  rw [eq9] at k
  exact k

theorem State.moverWriteAt_keeps {s0 s : State} (hk : Keeps s0 s) (c : ClusterId) (a : Fin 1024) (va : Nat) (t : Target) (e : Option RangeEntry) (bytes : List Byte) (lo : Nat) (hi : Nat) (run : Word) : Keeps s0 (State.moverWriteAt s c a va t e bytes lo hi run).2.2 := by
  unfold State.moverWriteAt
  try dsimp only
  repeat' (first
    | with_reducible assumption
    | with_reducible apply State.writeMem_keeps
    | with_reducible apply State.countSpan_keeps
    | with_reducible apply State.deviceWrite_keeps
    | with_reducible apply State.hostWrite_keeps
    | with_reducible apply State.mirror_keeps
    | with_reducible apply State.storeWrite_keeps
    | with_reducible apply State.mirrorSeal_keeps
    | with_reducible apply keeps_ite
    | split)
theorem State.moverWriteAt_keepsE {s0 s s9 : State} (hk : Keeps s0 s) {c : ClusterId} {a : Fin 1024} {va : Nat} {t : Target} {e : Option RangeEntry} {bytes : List Byte} {lo : Nat} {hi : Nat} {run : Word} {r0 : Option MGot} {r1 : Word} (eq9 : State.moverWriteAt s c a va t e bytes lo hi run = (r0, r1, s9)) : Keeps s0 s9 := by
  have k := State.moverWriteAt_keeps hk c a va t e bytes lo hi run 
  rw [eq9] at k
  exact k

theorem State.dropAnswers_keeps {s0 s : State} (hk : Keeps s0 s) (c : ClusterId) (w : Work) : Keeps s0 (State.dropAnswers s c w) := by
  unfold State.dropAnswers
  try dsimp only
  repeat' (first
    | with_reducible assumption
    | with_reducible apply keeps_ite
    | split
    | (apply Keeps.mkA; first | with_reducible assumption))

theorem State.peerPut_keeps {s0 s : State} (hk : Keeps s0 s) (c : ClusterId) (w : Work) (va : Nat) (dev : Nat) (pa : Nat) (sealedBlk : Bool) (bytes : List Byte) (lo : Nat) (hi : Nat) (run : Word) : Keeps s0 (State.peerPut s c w va dev pa sealedBlk bytes lo hi run).2.2 := by
  unfold State.peerPut
  try dsimp only
  repeat' (first
    | with_reducible assumption
    | with_reducible apply State.sendWrites_keeps
    | with_reducible apply keeps_foldl
    | with_reducible apply keeps_ite
    | split)
theorem State.peerPut_keepsE {s0 s s9 : State} (hk : Keeps s0 s) {c : ClusterId} {w : Work} {va : Nat} {dev : Nat} {pa : Nat} {sealedBlk : Bool} {bytes : List Byte} {lo : Nat} {hi : Nat} {run : Word} {r0 : Option MGot} {r1 : Word} (eq9 : State.peerPut s c w va dev pa sealedBlk bytes lo hi run = (r0, r1, s9)) : Keeps s0 s9 := by
  have k := State.peerPut_keeps hk c w va dev pa sealedBlk bytes lo hi run 
  rw [eq9] at k
  exact k

theorem State.askReads_keeps (n : Nat) {s0 s : State} (h : Keeps s0 s) (c : ClusterId) (w : Work) (dev : BitVec 12) (pa va k : Nat) (b : Bool) : Keeps s0 (State.askReads n s c w dev pa va k b) := by
  induction n generalizing s c w dev pa va k b with
  | zero => exact h
  | succ n ih =>
    unfold State.askReads
    try dsimp only
    repeat' (first
      | with_reducible assumption
      | with_reducible apply ih
      | with_reducible apply State.sendRequest_keeps
      | with_reducible apply keeps_ite)

theorem State.readThrough_keeps {s0 s : State} (hk : Keeps s0 s) (c : ClusterId) (w : Work) (va : Nat) (t : Target) (e : Option RangeEntry) (n : Nat) (own : Option Nat) : Keeps s0 (State.readThrough s c w va t e n own).2 := by
  unfold State.readThrough
  try dsimp only
  repeat' (first
    | with_reducible assumption
    | with_reducible apply State.countSpan_keeps
    | with_reducible apply State.moverReadAt_keeps
    | refine State.moverReadAt_keepsE ?_ (by with_reducible assumption)
    | with_reducible apply keeps_ite
    | split)
theorem State.readThrough_keepsE {s0 s s9 : State} (hk : Keeps s0 s) {c : ClusterId} {w : Work} {va : Nat} {t : Target} {e : Option RangeEntry} {n : Nat} {own : Option Nat} {r0 : MGot} (eq9 : State.readThrough s c w va t e n own = (r0, s9)) : Keeps s0 s9 := by
  have k := State.readThrough_keeps hk c w va t e n own 
  rw [eq9] at k
  exact k

theorem State.writeThrough_keeps {s0 s : State} (hk : Keeps s0 s) (c : ClusterId) (w : Work) (va : Nat) (t : Target) (e : Option RangeEntry) (bytes : List Byte) (lo : Nat) (hi : Nat) (run : Word) : Keeps s0 (State.writeThrough s c w va t e bytes lo hi run).2.2 := by
  unfold State.writeThrough
  try dsimp only
  repeat' (first
    | with_reducible assumption
    | with_reducible apply State.countSpan_keeps
    | with_reducible apply State.mirror_keeps
    | with_reducible apply State.moverWriteAt_keeps
    | refine State.moverWriteAt_keepsE ?_ (by with_reducible assumption)
    | with_reducible apply State.peerPut_keeps
    | refine State.peerPut_keepsE ?_ (by with_reducible assumption)
    | with_reducible apply keeps_ite
    | split)
theorem State.writeThrough_keepsE {s0 s s9 : State} (hk : Keeps s0 s) {c : ClusterId} {w : Work} {va : Nat} {t : Target} {e : Option RangeEntry} {bytes : List Byte} {lo : Nat} {hi : Nat} {run : Word} {r0 : Option MGot} {r1 : Word} (eq9 : State.writeThrough s c w va t e bytes lo hi run = (r0, r1, s9)) : Keeps s0 s9 := by
  have k := State.writeThrough_keeps hk c w va t e bytes lo hi run 
  rw [eq9] at k
  exact k

theorem State.moverRead_keeps {s0 s : State} (hk : Keeps s0 s) (c : ClusterId) (w : Work) (va : Word) (n : Nat) : Keeps s0 (State.moverRead s c w va n).2 := by
  unfold State.moverRead
  try dsimp only
  repeat' (first
    | with_reducible assumption
    | with_reducible apply State.access_keeps
    | refine State.access_keepsE ?_ (by with_reducible assumption)
    | with_reducible apply State.readThrough_keeps
    | refine State.readThrough_keepsE ?_ (by with_reducible assumption)
    | with_reducible apply keeps_ite
    | split)
theorem State.moverRead_keepsE {s0 s s9 : State} (hk : Keeps s0 s) {c : ClusterId} {w : Work} {va : Word} {n : Nat} {r0 : MGot} (eq9 : State.moverRead s c w va n = (r0, s9)) : Keeps s0 s9 := by
  have k := State.moverRead_keeps hk c w va n 
  rw [eq9] at k
  exact k

theorem State.moverWrite_keeps {s0 s : State} (hk : Keeps s0 s) (c : ClusterId) (w : Work) (va : Word) (bytes : List Byte) (lo : Nat) (hi : Nat) : Keeps s0 (State.moverWrite s c w va bytes lo hi).2 := by
  unfold State.moverWrite
  try dsimp only
  repeat' (first
    | with_reducible assumption
    | with_reducible apply State.access_keeps
    | refine State.access_keepsE ?_ (by with_reducible assumption)
    | with_reducible apply State.writeThrough_keeps
    | refine State.writeThrough_keepsE ?_ (by with_reducible assumption)
    | with_reducible apply keeps_ite
    | split)
theorem State.moverWrite_keepsE {s0 s s9 : State} (hk : Keeps s0 s) {c : ClusterId} {w : Work} {va : Word} {bytes : List Byte} {lo : Nat} {hi : Nat} {r0 : Option MGot} (eq9 : State.moverWrite s c w va bytes lo hi = (r0, s9)) : Keeps s0 s9 := by
  have k := State.moverWrite_keeps hk c w va bytes lo hi 
  rw [eq9] at k
  exact k

theorem State.loadFuel_keeps (n : Nat) {s0 s : State} (h : Keeps s0 s) (c : ClusterId) (w : Work) (va k : Nat) : Keeps s0 (State.loadFuel n s c w va k).2 := by
  induction n generalizing s c w va k with
  | zero => exact h
  | succ n ih =>
    unfold State.loadFuel
    try dsimp only
    repeat' (first
      | with_reducible assumption
      | with_reducible apply ih
      | refine keeps_snd (ih ?_ _ _ _ _) (by with_reducible assumption)
      | with_reducible apply State.moverRead_keeps
      | refine State.moverRead_keepsE ?_ (by with_reducible assumption)
      | with_reducible apply keeps_ite
      | split)
theorem State.loadFuel_keepsE (n : Nat) {s0 s t : State} (h : Keeps s0 s) {c : ClusterId} {w : Work} {va k : Nat} {r : Except SpanStop (List Byte)} (e : State.loadFuel n s c w va k = (r, t)) : Keeps s0 t :=
  keeps_snd (State.loadFuel_keeps n h _ _ _ _) e

theorem State.loadSpan_keeps {s0 s : State} (hk : Keeps s0 s) (c : ClusterId) (w : Work) (va : Nat) (n : Nat) : Keeps s0 (State.loadSpan s c w va n).2 := by
  unfold State.loadSpan
  try dsimp only
  repeat' (first
    | with_reducible assumption
    | with_reducible apply State.loadFuel_keeps)
theorem State.loadSpan_keepsE {s0 s s9 : State} (hk : Keeps s0 s) {c : ClusterId} {w : Work} {va : Nat} {n : Nat} {r0 : Except SpanStop (List Byte)} (eq9 : State.loadSpan s c w va n = (r0, s9)) : Keeps s0 s9 := by
  have k := State.loadSpan_keeps hk c w va n 
  rw [eq9] at k
  exact k

theorem State.saveFuel_keeps (n : Nat) {s0 s : State} (h : Keeps s0 s) (c : ClusterId) (w : Work) (va : Nat) (bytes : List Byte) (lo hi : Nat) : Keeps s0 (State.saveFuel n s c w va bytes lo hi).2 := by
  induction n generalizing s c w va bytes lo hi with
  | zero => exact h
  | succ n ih =>
    unfold State.saveFuel
    try dsimp only
    repeat' (first
      | with_reducible assumption
      | with_reducible apply ih
      | refine keeps_snd (ih ?_ _ _ _ _ _ _) (by with_reducible assumption)
      | with_reducible apply State.moverWrite_keeps
      | refine State.moverWrite_keepsE ?_ (by with_reducible assumption)
      | with_reducible apply keeps_ite
      | split)
theorem State.saveFuel_keepsE (n : Nat) {s0 s t : State} (h : Keeps s0 s) {c : ClusterId} {w : Work} {va : Nat} {bytes : List Byte} {lo hi : Nat} {r : Option SpanStop} (e : State.saveFuel n s c w va bytes lo hi = (r, t)) : Keeps s0 t :=
  keeps_snd (State.saveFuel_keeps n h _ _ _ _ _ _) e

theorem State.saveSpan_keeps {s0 s : State} (hk : Keeps s0 s) (c : ClusterId) (w : Work) (va : Nat) (bytes : List Byte) : Keeps s0 (State.saveSpan s c w va bytes).2 := by
  unfold State.saveSpan
  try dsimp only
  repeat' (first
    | with_reducible assumption
    | with_reducible apply State.saveFuel_keeps)
theorem State.saveSpan_keepsE {s0 s s9 : State} (hk : Keeps s0 s) {c : ClusterId} {w : Work} {va : Nat} {bytes : List Byte} {r0 : Option SpanStop} (eq9 : State.saveSpan s c w va bytes = (r0, s9)) : Keeps s0 s9 := by
  have k := State.saveSpan_keeps hk c w va bytes 
  rw [eq9] at k
  exact k

theorem State.jobRead_keeps {s0 s : State} (hk : Keeps s0 s) (a : Fin 1024) (va : Nat) (n : Nat) : Keeps s0 (State.jobRead s a va n).2 := by
  unfold State.jobRead
  try dsimp only
  repeat' (first
    | with_reducible assumption
    | with_reducible apply State.walk_keeps
    | refine State.walk_keepsE ?_ (by with_reducible assumption)
    | with_reducible apply State.moverReadAt_keeps
    | refine State.moverReadAt_keepsE ?_ (by with_reducible assumption)
    | with_reducible apply keeps_ite
    | split)
theorem State.jobRead_keepsE {s0 s s9 : State} (hk : Keeps s0 s) {a : Fin 1024} {va : Nat} {n : Nat} {r0 : MGot} (eq9 : State.jobRead s a va n = (r0, s9)) : Keeps s0 s9 := by
  have k := State.jobRead_keeps hk a va n 
  rw [eq9] at k
  exact k

theorem State.jobWrite_keeps {s0 s : State} (hk : Keeps s0 s) (a : Fin 1024) (va : Nat) (bytes : List Byte) : Keeps s0 (State.jobWrite s a va bytes).2 := by
  unfold State.jobWrite
  try dsimp only
  repeat' (first
    | with_reducible assumption
    | with_reducible apply State.walk_keeps
    | refine State.walk_keepsE ?_ (by with_reducible assumption)
    | with_reducible apply State.moverWriteAt_keeps
    | refine State.moverWriteAt_keepsE ?_ (by with_reducible assumption)
    | with_reducible apply keeps_ite
    | split)
theorem State.jobWrite_keepsE {s0 s s9 : State} (hk : Keeps s0 s) {a : Fin 1024} {va : Nat} {bytes : List Byte} {r0 : Option MGot} (eq9 : State.jobWrite s a va bytes = (r0, s9)) : Keeps s0 s9 := by
  have k := State.jobWrite_keeps hk a va bytes 
  rw [eq9] at k
  exact k

theorem State.freezeMover_keeps {s0 s : State} (hk : Keeps s0 s) (c : ClusterId) (st : StreamId) (idx : Option W32) (cause : Nat) : Keeps s0 (State.freezeMover s c st idx cause) := by
  unfold State.freezeMover
  try dsimp only
  repeat' (first
    | with_reducible assumption
    | with_reducible apply State.postCause_keeps
    | with_reducible apply State.failJob_keeps
    | with_reducible apply State.holdMaster_keeps
    | with_reducible apply keeps_ite)

theorem State.moverFails_keeps {s0 s : State} (h : Keeps s0 s) (c : ClusterId) (st : StreamId) (idx : Option W32) (g : MGot) : Keeps s0 (State.moverFails s c st idx g) := by
  cases g <;> unfold State.moverFails <;> (try dsimp only)
  all_goals repeat' (first
    | with_reducible assumption
    | with_reducible apply State.postCause_keeps
    | with_reducible apply State.suspect_keeps
    | with_reducible apply State.suspectLog_keeps
    | with_reducible apply State.failJob_keeps
    | with_reducible apply State.logSource_keeps
    | with_reducible apply State.freezeMover_keeps)

theorem State.jobFreeze_keeps {s0 s : State} (hk : Keeps s0 s) (st : StreamId) (idx : Option W32) (cause : Nat) : Keeps s0 (State.jobFreeze s st idx cause) := by
  unfold State.jobFreeze
  try dsimp only
  repeat' (first
    | with_reducible assumption
    | with_reducible apply State.postCause_keeps
    | with_reducible apply State.failJob_keeps
    | with_reducible apply State.holdMaster_keeps)

theorem State.jobStops_keeps {s0 s : State} (h : Keeps s0 s) (st : StreamId) (idx : Option W32) (g : MGot) : Keeps s0 (State.jobStops s st idx g) := by
  cases g <;> unfold State.jobStops <;> (try dsimp only)
  all_goals repeat' (first
    | with_reducible assumption
    | with_reducible apply State.addLog_keeps
    | with_reducible apply State.postCause_keeps
    | with_reducible apply State.failJob_keeps
    | with_reducible apply State.logSource_keeps
    | with_reducible apply State.jobFreeze_keeps)

theorem State.askMover_keeps {s0 s : State} (hk : Keeps s0 s) (c : ClusterId) (w : Work) (st : StreamId) (idx : Option W32) (x : SpanStop) : Keeps s0 (State.askMover s c w st idx x) := by
  unfold State.askMover
  try dsimp only
  repeat' (first
    | with_reducible assumption
    | with_reducible apply State.askReads_keeps
    | with_reducible apply State.moverFails_keeps
    | with_reducible apply keeps_ite
    | split)

theorem State.moverStops_keeps {s0 s : State} (hk : Keeps s0 s) (c : ClusterId) (st : StreamId) (idx : W32) (access : BitVec 4) (x : SpanStop) : Keeps s0 (State.moverStops s c st idx access x) := by
  unfold State.moverStops
  try dsimp only
  repeat' (first
    | with_reducible assumption
    | with_reducible apply State.modDesc_keeps
    | with_reducible apply State.postFault_keeps
    | with_reducible apply State.moverFails_keeps
    | with_reducible apply State.askMover_keeps
    | with_reducible apply keeps_ite
    | split)

end Sys2Proof.Machine
end

