-- ==== Sys2Proof/Laws/KeepsPeriods.lean ====
section
/-! SUPPORT. The shared operations of Machine/Periods.lean keep the queue and the invariant. -/
namespace Sys2Proof.Machine

theorem State.contextFails_keeps {s0 s : State} (hk : Keeps s0 s) (c : ClusterId) (x : SpanStop) : Keeps s0 (State.contextFails s c x) := by
  unfold State.contextFails
  try dsimp only
  repeat' (first
    | with_reducible assumption
    | with_reducible apply State.failJob_keeps
    | with_reducible apply State.moverFails_keeps
    | with_reducible apply keeps_ite
    | split)

theorem State.writeSnapshot_keeps {s0 s : State} (hk : Keeps s0 s) (c : ClusterId) : Keeps s0 (State.writeSnapshot s c) := by
  unfold State.writeSnapshot
  try dsimp only
  repeat' (first
    | with_reducible assumption
    | with_reducible apply State.modJob_keeps
    | with_reducible apply State.saveSpan_keeps
    | refine State.saveSpan_keepsE ?_ (by with_reducible assumption)
    | with_reducible apply State.contextFails_keeps
    | with_reducible apply keeps_ite
    | split)

theorem State.loadSlots_keeps {s0 s : State} (hk : Keeps s0 s) (c : ClusterId) (b : List Byte) : Keeps s0 (State.loadSlots s c b) := by
  unfold State.loadSlots
  try dsimp only
  repeat' (first
    | with_reducible assumption
    | with_reducible apply State.failJob_keeps
    | (refine State.modCluster_keeps ?_ _ _ ?_; rotate_left; intro _ k; first | exact k)
    | with_reducible apply keeps_ite
    | split)

theorem State.revertAmax_keeps {s0 s : State} (hk : Keeps s0 s) (c : ClusterId) : Keeps s0 (State.revertAmax s c) := by
  unfold State.revertAmax
  try dsimp only
  repeat' (first
    | with_reducible assumption
    | with_reducible apply State.loadSpan_keeps
    | refine State.loadSpan_keepsE ?_ (by with_reducible assumption)
    | with_reducible apply State.contextFails_keeps
    | with_reducible apply State.loadSlots_keeps
    | (refine State.modCluster_keeps ?_ _ _ ?_; rotate_left; intro _ k; first | exact k)
    | with_reducible apply keeps_ite
    | split)

theorem State.savedSnapshot_keeps {s0 s : State} (hk : Keeps s0 s) (st : StreamId) (j : JobId) (i : BitVec 6) : Keeps s0 (State.savedSnapshot s st j i) := by
  unfold State.savedSnapshot
  try dsimp only
  repeat' (first
    | with_reducible assumption
    | with_reducible apply State.modJob_keeps
    | with_reducible apply State.failJob_keeps
    | with_reducible apply State.jobRead_keeps
    | refine State.jobRead_keepsE ?_ (by with_reducible assumption)
    | with_reducible apply State.jobWrite_keeps
    | refine State.jobWrite_keepsE ?_ (by with_reducible assumption)
    | with_reducible apply State.jobStops_keeps
    | with_reducible apply keeps_ite
    | split)

theorem State.startPeriod_keeps {s0 s : State} (hk : Keeps s0 s) (st : StreamId) : Keeps s0 (State.startPeriod s st) := by
  unfold State.startPeriod
  try dsimp only
  repeat' (first
    | with_reducible assumption
    | with_reducible apply State.modStream_keeps
    | with_reducible apply State.settle_keeps
    | with_reducible apply State.writeSnapshot_keeps
    | with_reducible apply State.savedSnapshot_keeps
    | with_reducible apply keeps_foldl
    | intro _ _ _ _ _
    | intro _ _ _ _
    | (intro _ _ _; try dsimp only)
    | with_reducible apply keeps_ite)

theorem State.beginPeriod_keeps {s0 s : State} (hk : Keeps s0 s) (st : StreamId) : Keeps s0 (State.beginPeriod s st) := by
  unfold State.beginPeriod
  try dsimp only
  repeat' (first
    | with_reducible assumption
    | with_reducible apply State.askLine_keeps
    | with_reducible apply State.startPeriod_keeps)

theorem State.leaveDrop_keeps {s0 s : State} (hk : Keeps s0 s) (st : StreamId) : Keeps s0 (State.leaveDrop s st) := by
  unfold State.leaveDrop
  try dsimp only
  repeat' (first
    | with_reducible assumption
    | with_reducible apply State.setStream_keeps
    | with_reducible apply State.continueAbort_keeps
    | with_reducible apply State.startPeriod_keeps
    | with_reducible apply keeps_ite)

end Sys2Proof.Machine
end

