-- ==== Sys2Proof/Laws/KeepsJobs.lean ====
section
/-! SUPPORT. The shared operations of Machine/Jobs.lean keep the queue and the invariant. -/
namespace Sys2Proof.Machine

theorem State.strip_keeps {s0 s : State} (hk : Keeps s0 s) (o : JobId) : Keeps s0 (State.strip s o) := by
  unfold State.strip
  try dsimp only
  repeat' (first
    | with_reducible assumption
    | with_reducible apply State.modJob_keeps
    | with_reducible apply keeps_foldl
    | (refine State.modCluster_keeps ?_ _ _ ?_; rotate_left; intro _ k; first | exact k | rfl | (split <;> exact k))
    | intro _ _ _ _ _
    | intro _ _ _ _
    | (intro _ _ _; try dsimp only))

theorem State.stripped_keeps {s0 s : State} (hk : Keeps s0 s) (o : JobId) : Keeps s0 (State.stripped s o) := by
  unfold State.stripped
  try dsimp only
  repeat' (first
    | with_reducible assumption
    | with_reducible apply State.setJob_keeps
    | with_reducible apply State.postJobState_keeps
    | with_reducible apply keeps_ite
    | split)

theorem State.settleAll_keeps {s0 s : State} (hk : Keeps s0 s) (j : JobId) : Keeps s0 (State.settleAll s j) := by
  unfold State.settleAll
  try dsimp only
  repeat' (first
    | with_reducible assumption
    | with_reducible apply State.settle_keeps
    | with_reducible apply keeps_foldl
    | intro _ _ _ _ _
    | intro _ _ _ _
    | (intro _ _ _; try dsimp only))

theorem State.startRunning_keeps {s0 s : State} (hk : Keeps s0 s) (j : JobId) : Keeps s0 (State.startRunning s j) := by
  unfold State.startRunning
  try dsimp only
  repeat' (first
    | with_reducible assumption
    | with_reducible apply State.modJob_keeps
    | with_reducible apply State.settleAll_keeps)

theorem State.grant_keeps {s0 s : State} (hk : Keeps s0 s) (j : JobId) (x : Job) (c : ClusterId) (jci : Nat) (restoring : Bool) : Keeps s0 (State.grant s j x c jci restoring) := by
  unfold State.grant
  try dsimp only
  repeat' (first
    | with_reducible assumption
    | with_reducible apply State.modJob_keeps
    | with_reducible apply State.begin_keeps
    | with_reducible apply State.cleanL1_keeps
    | with_reducible apply State.drainStores_keeps
    | refine State.setCluster_keeps ?_ _ _ (Keeps.store ?_ _)
    | refine State.setCluster_keeps ?_ _ _ (fun _ => rfl)
    | with_reducible apply keeps_ite
    | split)

theorem State.preempt_keeps (n : Nat) {s0 s : State} (h : Keeps s0 s) (j : JobId) (k : Nat) : Keeps s0 (State.preempt n s j k) := by
  induction n generalizing s j k with
  | zero => exact h
  | succ n ih =>
    unfold State.preempt
    try dsimp only
    repeat' (first
      | with_reducible assumption
      | with_reducible apply ih
      | (refine State.modCluster_keeps ?_ _ _ ?_; rotate_left; intro _ k; exact k)
      | with_reducible apply keeps_ite
      | split)

theorem State.stripFor_keeps (n : Nat) {s0 s : State} (h : Keeps s0 s) (j : JobId) (k : Nat) : Keeps s0 (State.stripFor n s j k) := by
  induction n generalizing s j k with
  | zero => exact h
  | succ n ih =>
    unfold State.stripFor
    try dsimp only
    repeat' (first
      | with_reducible assumption
      | with_reducible apply ih
      | with_reducible apply State.strip_keeps
      | with_reducible apply State.stripped_keeps
      | with_reducible apply keeps_ite
      | split)

theorem State.abandonRequests_keeps {s0 s : State} (hk : Keeps s0 s) (c : ClusterId) : Keeps s0 (State.abandonRequests s c) := by
  unfold State.abandonRequests
  try dsimp only
  repeat' (first
    | with_reducible assumption
    | with_reducible apply State.saveSpan_keeps
    | refine State.saveSpan_keepsE ?_ (by with_reducible assumption)
    | with_reducible apply keeps_foldl
    | (refine State.modCluster_keeps ?_ _ _ ?_; rotate_left; intro _ k; exact k)
    | intro _ _ _ _ _
    | intro _ _ _ _
    | (intro _ _ _; try dsimp only))

theorem State.drainReports_keeps (n : Nat) {s0 s : State} (h : Keeps s0 s) (c : ClusterId) : Keeps s0 (State.drainReports n s c) := by
  induction n generalizing s c with
  | zero => exact h
  | succ n ih =>
    unfold State.drainReports
    try dsimp only
    repeat' (first
      | with_reducible assumption
      | with_reducible apply ih
      | with_reducible apply State.modK_keeps
      | with_reducible apply State.faultStop_keeps
      | with_reducible apply State.raise_keeps
      | with_reducible apply keeps_ite
      | split)

theorem State.moveOut_keeps {s0 s : State} (h : Keeps s0 s) (c : ClusterId) (l : List (Nat × Nat × Nat)) : Keeps s0 (State.moveOut s c l).2 := by
  induction l generalizing s with
  | nil => exact h
  | cons e t ih =>
    unfold State.moveOut
    try dsimp only
    repeat' (first
      | with_reducible assumption
      | with_reducible apply ih
      | refine keeps_snd (ih ?_) (by with_reducible assumption)
      | with_reducible apply State.addLog_keeps
      | with_reducible apply State.saveSpan_keeps
      | refine State.saveSpan_keepsE ?_ (by with_reducible assumption)
      | with_reducible apply keeps_ite
      | split)
theorem State.moveOut_keepsE {s0 s s9 : State} (h : Keeps s0 s) {c : ClusterId} {l : List (Nat × Nat × Nat)} {r : Option SpanStop} (eq9 : State.moveOut s c l = (r, s9)) : Keeps s0 s9 :=
  keeps_snd (State.moveOut_keeps h _ _) eq9

theorem State.saveFails_keeps {s0 s : State} (hk : Keeps s0 s) (c : ClusterId) (x : SpanStop) : Keeps s0 (State.saveFails s c x) := by
  unfold State.saveFails
  try dsimp only
  repeat' (first
    | with_reducible assumption
    | with_reducible apply State.failJob_keeps
    | with_reducible apply State.contextFails_keeps
    | with_reducible apply keeps_ite
    | split)

theorem State.quietCluster_keeps {s0 s : State} (hk : Keeps s0 s) (c : ClusterId) : Keeps s0 (State.quietCluster s c) := by
  unfold State.quietCluster
  try dsimp only
  repeat' (first
    | with_reducible assumption
    | with_reducible apply State.cleanL1_keeps
    | with_reducible apply State.drainStores_keeps
    | with_reducible apply State.modK_keeps
    | with_reducible apply State.abandonRequests_keeps
    | (refine State.modCluster_keeps ?_ _ _ ?_; rotate_left; intro _ k; first | exact k | (split <;> exact k)))

theorem State.leaveCluster_keeps {s0 s : State} (hk : Keeps s0 s) (c : ClusterId) (j : JobId) (v : SavedContext) : Keeps s0 (State.leaveCluster s c j v) := by
  unfold State.leaveCluster
  try dsimp only
  repeat' (first
    | with_reducible assumption
    | with_reducible apply State.modStream_keeps
    | with_reducible apply State.modJob_keeps
    | with_reducible apply State.settleJob_keeps
    | with_reducible apply State.releaseCluster_keeps
    | with_reducible apply State.dropAnswers_keeps
    | with_reducible apply State.stripped_keeps
    | with_reducible apply keeps_ite
    | split)

theorem State.afterMoveOut_keeps {s0 s : State} (h : Keeps s0 s) (c : ClusterId) (j : JobId) (v : SavedContext)
    (r : Option SpanStop × State) (hr : Keeps s0 r.2) : Keeps s0 (s.afterMoveOut c j v r) := by
  obtain ⟨_ | e, s1⟩ := r
  · exact State.leaveCluster_keeps hr _ _ _
  · unfold State.afterMoveOut
    dsimp only
    split
    · exact State.askMover_keeps h _ _ _ _ _
    · exact State.saveFails_keeps hr _ _

theorem State.afterImage_keeps {s0 s : State} (h : Keeps s0 s) (c : ClusterId) (j : JobId) (v : SavedContext)
    (l : List (Nat × Nat × Nat)) (r : Option SpanStop × State) (hr : Keeps s0 r.2) : Keeps s0 (s.afterImage c j v l r) := by
  obtain ⟨_ | e, s1⟩ := r
  · exact State.afterMoveOut_keeps h _ _ _ _ (State.moveOut_keeps hr _ _)
  · exact State.saveFails_keeps hr _ _

theorem State.saveContext_keeps {s0 s : State} (hk : Keeps s0 s) (c : ClusterId) (j : JobId) (jci : BitVec 6) (job : Job) : Keeps s0 (State.saveContext s c j jci job) := by
  unfold State.saveContext
  try dsimp only
  repeat' (first
    | with_reducible assumption
    | with_reducible apply State.failJob_keeps
    | with_reducible apply State.readMarks_keeps
    | refine State.readMarks_keepsE ?_ (by with_reducible assumption)
    | with_reducible apply State.saveSpan_keeps
    | refine State.saveSpan_keepsE ?_ (by with_reducible assumption)
    | with_reducible apply State.quietCluster_keeps
    | with_reducible apply State.afterImage_keeps
    | with_reducible apply keeps_ite
    | split)

theorem State.moveIn_keeps {s0 s : State} (h : Keeps s0 s) (c : ClusterId) (csback : Word) (l : List (Nat × Nat × Nat)) :
    Keeps s0 (s.moveIn c csback l).2 := by
  induction l generalizing s with
  | nil => exact h
  | cons e t ih =>
    obtain ⟨off, n, va⟩ := e
    have k : Keeps s0 (if csback = 0 then (Except.error ⟨va, n, .xlate⟩, s) else s.loadSpan c none va n).2 := by
      split
      · exact h
      · exact State.loadSpan_keeps h _ _ _ _
    unfold State.moveIn
    generalize (if csback = 0 then (Except.error ⟨va, n, .xlate⟩, s) else s.loadSpan c none va n) = r at k ⊢
    obtain ⟨v, s1⟩ := r
    cases v with
    | error _ => exact k
    | ok b =>
      dsimp only
      split
      · rename_i e
        exact keeps_snd (ih k) e
      · exact ih k
theorem State.moveIn_keepsE {s0 s s9 : State} (h : Keeps s0 s) {c : ClusterId} {csback : Word} {l : List (Nat × Nat × Nat)}
    {r : Except SpanStop (List (Nat × List Byte))} (eq9 : s.moveIn c csback l = (r, s9)) : Keeps s0 s9 :=
  keeps_snd (State.moveIn_keeps h _ _ _) eq9

theorem State.loadImage_keeps {s0 s : State} (h : Keeps s0 s) (c : ClusterId) (v : SavedContext) (b : List Byte)
    (parts : List (Nat × List Byte)) : Keeps s0 (s.loadImage c v b parts) := by
  refine State.modCluster_keeps h _ _ (fun _ _ => ?_)
  show Mem.wf (parts.foldl (fun m p => Mem.writeBytes m p.1 p.2) []) = true
  have g : ∀ m : Mem, Mem.wf m = true → Mem.wf (parts.foldl (fun m p => Mem.writeBytes m p.1 p.2) m) = true := by
    induction parts with
    | nil => exact fun _ k => k
    | cons p ps ih => exact fun m k => ih _ (Mem.wf_writeBytes _ _ _ k)
  exact g _ rfl

theorem State.unpreempt_keeps {s0 s : State} (hk : Keeps s0 s) (st : Option StreamId) (j : JobId) : Keeps s0 (State.unpreempt s st j) := by
  unfold State.unpreempt
  try dsimp only
  repeat' (first
    | with_reducible assumption
    | with_reducible apply State.modStream_keeps
    | with_reducible apply State.settleJob_keeps
    | with_reducible apply keeps_ite
    | split)

end Sys2Proof.Machine
end

