-- ==== Sys2Proof/Laws/KeepsValidate.lean ====
section
/-! SUPPORT. The shared operations of Machine/Validate.lean keep the queue and the invariant. -/
namespace Sys2Proof.Machine

theorem State.beginChecked_keeps {s0 s : State} (hk : Keeps s0 s) (st : StreamId) (idx : W32) (op : Nat) (f : Desc → State → State) (hf : ∀ (x0 : Desc) (x1 : State), Keeps s0 x1 → Keeps s0 (f x0 x1)) : Keeps s0 (State.beginChecked s st idx op f) := by
  unfold State.beginChecked
  try dsimp only
  repeat' (first
    | with_reducible assumption
    | with_reducible apply State.begin_keeps
    | with_reducible apply State.badDescriptor_keeps
    | with_reducible apply hf
    | intro _ _ _ _ _
    | intro _ _ _ _
    | (intro _ _ _; try dsimp only)
    | with_reducible apply keeps_ite
    | split)

theorem State.beginWhen_keeps {s0 s : State} (hk : Keeps s0 s) (st : StreamId) (idx : W32) (op : Nat) (ready : Desc → Bool) (f : Desc → State → State) (hf : ∀ (x0 : Desc) (x1 : State), Keeps s0 x1 → Keeps s0 (f x0 x1)) : Keeps s0 (State.beginWhen s st idx op ready f) := by
  unfold State.beginWhen
  try dsimp only
  repeat' (first
    | with_reducible assumption
    | with_reducible apply State.beginChecked_keeps
    | with_reducible apply hf
    | with_reducible apply keeps_ite
    | split)

end Sys2Proof.Machine
end

