-- ==== Sys2Proof/Laws/KeepsMover.lean ====
section
/-! SUPPORT. The shared operations of Machine/Mover.lean keep the queue and the invariant. -/
namespace Sys2Proof.Machine

theorem State.serveStream_keeps {s0 s : State} (hk : Keeps s0 s) (c : ClusterId) (st : StreamId) : Keeps s0 (State.serveStream s c st) := by
  unfold State.serveStream
  try dsimp only
  repeat' (first
    | with_reducible assumption
    | (refine State.modCluster_keeps ?_ _ _ ?_; rotate_left; intro _ k; first | exact k | (split <;> exact k)))

theorem State.beginMover_keeps {s0 s : State} (hk : Keeps s0 s) (st : StreamId) (idx : W32) (op : Nat) (free : List (StreamId × Desc) → Bool) (f : ClusterId → Desc → State → State) (hf : ∀ (x0 : ClusterId) (x1 : Desc) (x2 : State), Keeps s0 x2 → Keeps s0 (f x0 x1 x2)) : Keeps s0 (State.beginMover s st idx op free f) := by
  unfold State.beginMover
  try dsimp only
  repeat' (first
    | with_reducible assumption
    | with_reducible apply State.beginWhen_keeps
    | with_reducible apply State.serveStream_keeps
    | with_reducible apply hf
    | intro _ _ _ _ _
    | intro _ _ _ _
    | (intro _ _ _; try dsimp only)
    | with_reducible apply keeps_ite
    | split)

theorem State.moveSegment_keeps {s0 s : State} (hk : Keeps s0 s) (c : ClusterId) (w : Work) (src : Nat) (n : Nat) (dst : Nat) (m : Nat) (lo : Nat) (hi : Nat) (run : Word) (f : List Byte → List Byte) : Keeps s0 (State.moveSegment s c w src n dst m lo hi run f).2 := by
  unfold State.moveSegment
  try dsimp only
  repeat' (first
    | with_reducible assumption
    | with_reducible apply State.access_keeps
    | refine State.access_keepsE ?_ (by with_reducible assumption)
    | with_reducible apply State.readThrough_keeps
    | refine State.readThrough_keepsE ?_ (by with_reducible assumption)
    | with_reducible apply State.writeThrough_keeps
    | refine State.writeThrough_keepsE ?_ (by with_reducible assumption)
    | with_reducible apply keeps_ite
    | split)
theorem State.moveSegment_keepsE {s0 s s9 : State} (hk : Keeps s0 s) {c : ClusterId} {w : Work} {src : Nat} {n : Nat} {dst : Nat} {m : Nat} {lo : Nat} {hi : Nat} {run : Word} {f : List Byte → List Byte} {r0 : Except (SpanStop × BitVec 4) (List Byte × Word)} (eq9 : State.moveSegment s c w src n dst m lo hi run f = (r0, s9)) : Keeps s0 s9 := by
  have k := State.moveSegment_keeps hk c w src n dst m lo hi run f 
  rw [eq9] at k
  exact k

theorem State.copyStep_keeps {s0 s : State} (hk : Keeps s0 s) (c : ClusterId) (st : StreamId) (d : Desc) : Keeps s0 (State.copyStep s c st d) := by
  unfold State.copyStep
  try dsimp only
  repeat' (first
    | with_reducible assumption
    | with_reducible apply State.modDesc_keeps
    | with_reducible apply State.finish_keeps
    | with_reducible apply State.dropAnswers_keeps
    | with_reducible apply State.moverStops_keeps
    | with_reducible apply State.moveSegment_keeps
    | refine State.moveSegment_keepsE ?_ (by with_reducible assumption)
    | with_reducible apply keeps_ite
    | split)

theorem State.cvReset_keeps {s0 s : State} (hk : Keeps s0 s) (d : Desc) (c : ClusterId) : Keeps s0 (State.cvReset s d c) := by
  unfold State.cvReset
  try dsimp only
  repeat' (first
    | with_reducible assumption
    | with_reducible apply State.modH_keeps
    | with_reducible apply keeps_ite)

theorem State.convertEnd_keeps {s0 s : State} (hk : Keeps s0 s) (c : ClusterId) (st : StreamId) (d : Desc) : Keeps s0 (State.convertEnd s c st d) := by
  unfold State.convertEnd
  try dsimp only
  repeat' (first
    | with_reducible assumption
    | with_reducible apply State.finish_keeps
    | with_reducible apply State.modH_keeps
    | with_reducible apply State.dropAnswers_keeps
    | with_reducible apply State.saveSpan_keeps
    | refine State.saveSpan_keepsE ?_ (by with_reducible assumption)
    | with_reducible apply State.moverStops_keeps
    | with_reducible apply keeps_ite
    | split
    | refine keeps_snd (keeps_iteP ?_ ?_) (by with_reducible assumption))

theorem State.residueFails_keeps {s0 s : State} (hk : Keeps s0 s) (c : ClusterId) (st : StreamId) (idx : W32) : Keeps s0 (State.residueFails s c st idx) := by
  unfold State.residueFails
  try dsimp only
  repeat' (first
    | with_reducible assumption
    | with_reducible apply State.postCause_keeps
    | with_reducible apply State.suspect_keeps
    | with_reducible apply State.failJob_keeps)

theorem State.convertRun_keeps {s0 s : State} (hk : Keeps s0 s) (c : ClusterId) (st : StreamId) (d : Desc) (blockScale : Nat) : Keeps s0 (State.convertRun s c st d blockScale) := by
  unfold State.convertRun
  try dsimp only
  repeat' (first
    | with_reducible assumption
    | with_reducible apply State.modDesc_keeps
    | with_reducible apply State.strike_keeps
    | refine State.strike_keepsE ?_ (by with_reducible assumption)
    | with_reducible apply State.dropAnswers_keeps
    | with_reducible apply State.moverStops_keeps
    | with_reducible apply State.moveSegment_keeps
    | refine State.moveSegment_keepsE ?_ (by with_reducible assumption)
    | with_reducible apply State.convertEnd_keeps
    | with_reducible apply State.residueFails_keeps
    | with_reducible apply keeps_foldl
    | with_reducible apply keeps_ite
    | split
    | refine keeps_snd (keeps_iteP ?_ ?_) (by with_reducible assumption)
    | (apply Keeps.mkA; first | with_reducible assumption | with_reducible apply State.modDesc_keeps | with_reducible apply State.strike_keeps))

theorem State.convertStep_keeps {s0 s : State} (hk : Keeps s0 s) (c : ClusterId) (st : StreamId) (d : Desc) : Keeps s0 (State.convertStep s c st d) := by
  unfold State.convertStep
  try dsimp only
  repeat' (first
    | with_reducible assumption
    | with_reducible apply State.modDesc_keeps
    | with_reducible apply State.loadSpan_keeps
    | refine State.loadSpan_keepsE ?_ (by with_reducible assumption)
    | with_reducible apply State.saveSpan_keeps
    | refine State.saveSpan_keepsE ?_ (by with_reducible assumption)
    | with_reducible apply State.moverStops_keeps
    | with_reducible apply State.cvReset_keeps
    | with_reducible apply State.convertEnd_keeps
    | with_reducible apply State.convertRun_keeps
    | with_reducible apply keeps_ite
    | split)

theorem State.kvReject_keeps {s0 s : State} (hk : Keeps s0 s) (c : ClusterId) (st : StreamId) (d : Desc) : Keeps s0 (State.kvReject s c st d) := by
  unfold State.kvReject
  try dsimp only
  repeat' (first
    | with_reducible assumption
    | with_reducible apply State.badDescriptor_keeps
    | with_reducible apply State.loadSpan_keeps
    | refine State.loadSpan_keepsE ?_ (by with_reducible assumption)
    | with_reducible apply State.saveSpan_keeps
    | refine State.saveSpan_keepsE ?_ (by with_reducible assumption)
    | with_reducible apply State.moverStops_keeps
    | with_reducible apply keeps_ite
    | split)

theorem State.kvCapture_keeps {s0 s : State} (hk : Keeps s0 s) (c : ClusterId) (st : StreamId) (d : Desc) : Keeps s0 (State.kvCapture s c st d) := by
  unfold State.kvCapture
  try dsimp only
  repeat' (first
    | with_reducible assumption
    | with_reducible apply State.modDesc_keeps
    | with_reducible apply State.dropAnswers_keeps
    | with_reducible apply State.loadSpan_keeps
    | refine State.loadSpan_keepsE ?_ (by with_reducible assumption)
    | with_reducible apply State.moverStops_keeps
    | with_reducible apply State.kvReject_keeps
    | with_reducible apply keeps_ite
    | split
    | refine keeps_snd (keeps_iteP ?_ ?_) (by with_reducible assumption))

theorem State.kvBusy_keeps {s0 s : State} (hk : Keeps s0 s) (c : ClusterId) (st : StreamId) (d : Desc) : Keeps s0 (State.kvBusy s c st d) := by
  unfold State.kvBusy
  try dsimp only
  repeat' (first
    | with_reducible assumption
    | with_reducible apply State.modDesc_keeps
    | with_reducible apply State.badDescriptor_keeps
    | with_reducible apply State.strike_keeps
    | refine State.strike_keepsE ?_ (by with_reducible assumption)
    | with_reducible apply State.access_keeps
    | refine State.access_keepsE ?_ (by with_reducible assumption)
    | with_reducible apply State.readThrough_keeps
    | refine State.readThrough_keepsE ?_ (by with_reducible assumption)
    | with_reducible apply State.writeThrough_keeps
    | refine State.writeThrough_keepsE ?_ (by with_reducible assumption)
    | with_reducible apply State.moverStops_keeps
    | with_reducible apply State.residueFails_keeps
    | with_reducible apply State.kvCapture_keeps
    | with_reducible apply keeps_ite
    | split)

theorem State.moveFuel_keeps (n : Nat) {s0 s : State} (h : Keeps s0 s) (c : ClusterId) (w : Work) (src dst len off : Nat) (run : Word) : Keeps s0 (State.moveFuel n s c w src dst len off run).2 := by
  induction n generalizing s c w src dst len off run with
  | zero => exact h
  | succ n ih =>
    unfold State.moveFuel
    try dsimp only
    repeat' (first
      | with_reducible assumption
      | with_reducible apply ih
      | refine keeps_snd (ih ?_ _ _ _ _ _ _ _) (by with_reducible assumption)
      | with_reducible apply State.moveSegment_keeps
      | refine State.moveSegment_keepsE ?_ (by with_reducible assumption)
      | with_reducible apply keeps_ite
      | split)
theorem State.moveFuel_keepsE (n : Nat) {s0 s t : State} (h : Keeps s0 s) {c : ClusterId} {w : Work} {src dst len off : Nat} {run : Word} {r : Option (SpanStop × BitVec 4)} (e : State.moveFuel n s c w src dst len off run = (r, t)) : Keeps s0 t :=
  keeps_snd (State.moveFuel_keeps n h _ _ _ _ _ _ _) e

theorem State.kvRun_keeps {s0 s : State} (hk : Keeps s0 s) (c : ClusterId) (st : StreamId) (d : Desc) (n : Nat) (v : Nat) (h : Nat) : Keeps s0 (State.kvRun s c st d n v h).2 := by
  unfold State.kvRun
  try dsimp only
  repeat' (first
    | with_reducible assumption
    | with_reducible apply State.moveFuel_keeps)
theorem State.kvRun_keepsE {s0 s s9 : State} (hk : Keeps s0 s) {c : ClusterId} {st : StreamId} {d : Desc} {n : Nat} {v : Nat} {h : Nat} {r0 : Option (SpanStop × BitVec 4)} (eq9 : State.kvRun s c st d n v h = (r0, s9)) : Keeps s0 s9 := by
  have k := State.kvRun_keeps hk c st d n v h 
  rw [eq9] at k
  exact k

theorem State.kvTable_keeps {s0 s : State} (hk : Keeps s0 s) (c : ClusterId) (st : StreamId) (d : Desc) (i : Nat) : Keeps s0 (State.kvTable s c st d i).2 := by
  unfold State.kvTable
  try dsimp only
  repeat' (first
    | with_reducible assumption
    | with_reducible apply State.saveSpan_keeps
    | refine State.saveSpan_keepsE ?_ (by with_reducible assumption)
    | with_reducible apply keeps_ite
    | split)
theorem State.kvTable_keepsE {s0 s s9 : State} (hk : Keeps s0 s) {c : ClusterId} {st : StreamId} {d : Desc} {i : Nat} {r0 : Option (SpanStop × BitVec 4)} (eq9 : State.kvTable s c st d i = (r0, s9)) : Keeps s0 s9 := by
  have k := State.kvTable_keeps hk c st d i 
  rw [eq9] at k
  exact k

theorem State.kvStep_keeps {s0 s : State} (hk : Keeps s0 s) (c : ClusterId) (st : StreamId) (d : Desc) : Keeps s0 (State.kvStep s c st d) := by
  unfold State.kvStep
  try dsimp only
  repeat' (first
    | with_reducible assumption
    | with_reducible apply State.modDesc_keeps
    | with_reducible apply State.finish_keeps
    | with_reducible apply State.dropAnswers_keeps
    | with_reducible apply State.saveSpan_keeps
    | refine State.saveSpan_keepsE ?_ (by with_reducible assumption)
    | with_reducible apply State.moverStops_keeps
    | with_reducible apply State.kvCapture_keeps
    | with_reducible apply State.kvRun_keeps
    | refine State.kvRun_keepsE ?_ (by with_reducible assumption)
    | with_reducible apply State.kvTable_keeps
    | refine State.kvTable_keepsE ?_ (by with_reducible assumption)
    | with_reducible apply keeps_ite
    | split)

theorem State.requestStops_keeps {s0 s : State} (hk : Keeps s0 s) (c : ClusterId) (q : MoverReq) (rest : List MoverReq) (x : SpanStop) (a : BitVec 4) : Keeps s0 (State.requestStops s c q rest x a) := by
  unfold State.requestStops
  try dsimp only
  repeat' (first
    | with_reducible assumption
    | with_reducible apply State.postFault_keeps
    | with_reducible apply State.moverFails_keeps
    | with_reducible apply State.askMover_keeps
    | (refine State.modCluster_keeps ?_ _ _ ?_; rotate_left; intro _ k; exact k)
    | with_reducible apply keeps_ite
    | split)

theorem State.requestStep_keeps {s0 s : State} (hk : Keeps s0 s) (c : ClusterId) (q : MoverReq) (rest : List MoverReq) : Keeps s0 (State.requestStep s c q rest) := by
  unfold State.requestStep
  try dsimp only
  repeat' (first
    | with_reducible assumption
    | with_reducible apply State.fresh_keeps
    | refine State.fresh_keepsE ?_ (by with_reducible assumption)
    | with_reducible apply State.dropAnswers_keeps
    | with_reducible apply State.saveSpan_keeps
    | refine State.saveSpan_keepsE ?_ (by with_reducible assumption)
    | with_reducible apply State.moveSegment_keeps
    | refine State.moveSegment_keepsE ?_ (by with_reducible assumption)
    | with_reducible apply State.requestStops_keeps
    | (refine State.modCluster_keeps ?_ _ _ ?_; rotate_left; intro _ k; first | exact k)
    | with_reducible apply keeps_ite
    | split)

theorem State.withdrawMover_keeps {s0 s : State} (hk : Keeps s0 s) (c : ClusterId) (va : Nat) (len : Nat) : Keeps s0 (State.withdrawMover s c va len) := by
  unfold State.withdrawMover
  try dsimp only
  repeat' (first
    | with_reducible assumption
    | with_reducible apply State.moverStops_keeps
    | with_reducible apply State.requestStops_keeps
    | with_reducible apply keeps_ite
    | split)

theorem State.descStep_keeps {s0 s : State} (hk : Keeps s0 s) (c : ClusterId) (st : StreamId) (d : Desc) : Keeps s0 (State.descStep s c st d) := by
  unfold State.descStep
  try dsimp only
  repeat' (first
    | with_reducible assumption
    | with_reducible apply State.copyStep_keeps
    | with_reducible apply State.convertStep_keeps
    | with_reducible apply State.kvStep_keeps
    | with_reducible apply keeps_ite)

end Sys2Proof.Machine
end

