-- ==== Sys2Proof/Laws/KeepsKestrelMem.lean ====
section
/-! SUPPORT. The shared operations of Machine/KestrelMem.lean keep the queue and the invariant. -/
namespace Sys2Proof.Machine

theorem State.afterRead_keeps {s0 s : State} (hk : Keeps s0 s) (c : ClusterId) (va : Word) (t : Target) (got : Got) (f : List Byte → State → State) (hf : ∀ (x0 : List Byte) (x1 : State), Keeps s0 x1 → Keeps s0 (f x0 x1)) : Keeps s0 (State.afterRead s c va t got f) := by
  unfold State.afterRead
  try dsimp only
  repeat' (first
    | with_reducible assumption
    | with_reducible apply State.freezeCluster_keeps
    | with_reducible apply State.fencedFor_keeps
    | with_reducible apply State.hostError_keeps
    | with_reducible apply State.logConsumed_keeps
    | with_reducible apply State.raise_keeps
    | with_reducible apply hf
    | with_reducible apply keeps_ite
    | split)

theorem State.askPeer_keeps {s0 s : State} (hk : Keeps s0 s) (c : ClusterId) (kind : Nat) (dev : Nat) (pa : Nat) (len : Nat) (op : Nat) (data : List Byte) (purpose : PeerFor) (va : Word) : Keeps s0 (State.askPeer s c kind dev pa len op data purpose va) := by
  unfold State.askPeer
  try dsimp only
  repeat' (first
    | with_reducible assumption
    | with_reducible apply State.sendRequest_keeps
    | with_reducible apply State.drainStores_keeps
    | with_reducible apply State.modK_keeps
    | with_reducible apply keeps_ite)

theorem State.reach_keeps {s0 s : State} (hk : Keeps s0 s) (c : ClusterId) (right : Right) (access : BitVec 4) (base : Word) (off : Word) (n : Nat) (f : Word → Target → Option RangeEntry → State → State) (hf : ∀ (x0 : Word) (x1 : Target) (x2 : Option RangeEntry) (x3 : State), Keeps s0 x3 → Keeps s0 (f x0 x1 x2 x3)) : Keeps s0 (State.reach s c right access base off n f) := by
  unfold State.reach
  try dsimp only
  repeat' (first
    | with_reducible assumption
    | with_reducible apply State.strike_keeps
    | refine State.strike_keepsE ?_ (by with_reducible assumption)
    | with_reducible apply State.access_keeps
    | refine State.access_keepsE ?_ (by with_reducible assumption)
    | with_reducible apply State.raise_keeps
    | with_reducible apply State.xlateFault_keeps
    | with_reducible apply hf
    | with_reducible apply keeps_ite
    | split)

theorem State.load_keeps {s0 s : State} (hk : Keeps s0 s) (c : ClusterId) (how : Nat) (rd : BitVec 5) (ra : BitVec 5) (imm : BitVec 12) : Keeps s0 (State.load s c how rd ra imm) := by
  unfold State.load
  try dsimp only
  repeat' (first
    | with_reducible assumption
    | with_reducible apply State.drainStores_keeps
    | with_reducible apply State.kestrelRead_keeps
    | refine State.kestrelRead_keepsE ?_ (by with_reducible assumption)
    | with_reducible apply State.issue_keeps
    | with_reducible apply State.writeReg_keeps
    | with_reducible apply State.afterRead_keeps
    | with_reducible apply State.askPeer_keeps
    | with_reducible apply State.reach_keeps
    | (intro _ _ _ _ _; try dsimp only)
    | intro _ _ _ _
    | (intro _ _ _; try dsimp only)
    | (intro _ _; try dsimp only)
    | with_reducible apply keeps_ite
    | split)

theorem State.storeN_keeps {s0 s : State} (hk : Keeps s0 s) (c : ClusterId) (n : Nat) (rb : BitVec 5) (ra : BitVec 5) (imm : BitVec 12) : Keeps s0 (State.storeN s c n rb ra imm) := by
  unfold State.storeN
  try dsimp only
  repeat' (first
    | with_reducible assumption
    | with_reducible apply State.pushStore_keeps
    | with_reducible apply State.issue_keeps
    | with_reducible apply State.advance_keeps
    | with_reducible apply State.reach_keeps
    | (intro _ _ _ _ _; try dsimp only)
    | intro _ _ _ _
    | intro _ _ _
    | (intro _ _; try dsimp only))

theorem State.dropOwnLine_keeps {s0 s : State} (hk : Keeps s0 s) (c : ClusterId) (t : Target) : Keeps s0 (State.dropOwnLine s c t) := by
  unfold State.dropOwnLine
  try dsimp only
  repeat' (first
    | with_reducible assumption
    | with_reducible apply State.maintain_keeps
    | with_reducible apply State.landFill_keeps
    | with_reducible apply keeps_ite
    | split)

theorem State.atomicValue_keeps {s0 s : State} (hk : Keeps s0 s) (c : ClusterId) (op : Nat) (w32 : Bool) (old : Nat) (v : Nat) (cmp : Nat) : Keeps s0 (State.atomicValue s c op w32 old v cmp).2.2 := by
  unfold State.atomicValue
  try dsimp only
  repeat' (first
    | with_reducible assumption
    | with_reducible apply State.strike_keeps)
theorem State.atomicValue_keepsE {s0 s s9 : State} (hk : Keeps s0 s) {c : ClusterId} {op : Nat} {w32 : Bool} {old : Nat} {v : Nat} {cmp : Nat} {r0 : Nat} {r1 : Bool} (eq9 : State.atomicValue s c op w32 old v cmp = (r0, r1, s9)) : Keeps s0 s9 := by
  have k := State.atomicValue_keeps hk c op w32 old v cmp 
  rw [eq9] at k
  exact k

theorem State.atomicAt_keeps {s0 s : State} (hk : Keeps s0 s) (c : ClusterId) (op : Nat) (w32 : Bool) (rd : BitVec 5) (rb : BitVec 5) (va : Word) (t : Target) (e : Option RangeEntry) : Keeps s0 (State.atomicAt s c op w32 rd rb va t e) := by
  unfold State.atomicAt
  try dsimp only
  repeat' (first
    | with_reducible assumption
    | with_reducible apply State.count_keeps
    | with_reducible apply State.deviceWrite_keeps
    | with_reducible apply State.fencedFor_keeps
    | with_reducible apply State.mirror_keeps
    | with_reducible apply State.storeWrite_keeps
    | with_reducible apply State.logConsumed_keeps
    | with_reducible apply State.raise_keeps
    | with_reducible apply State.writeReg_keeps
    | with_reducible apply State.askPeer_keeps
    | with_reducible apply State.dropOwnLine_keeps
    | with_reducible apply State.atomicValue_keeps
    | refine State.atomicValue_keepsE ?_ (by with_reducible assumption)
    | with_reducible apply keeps_ite
    | split)

theorem State.atomic_keeps {s0 s : State} (hk : Keeps s0 s) (c : ClusterId) (op : Nat) (rd : BitVec 5) (ra : BitVec 5) (rb : BitVec 5) (minor : BitVec 6) : Keeps s0 (State.atomic s c op rd ra rb minor) := by
  unfold State.atomic
  try dsimp only
  repeat' (first
    | with_reducible assumption
    | with_reducible apply State.settleAllHeld_keeps
    | with_reducible apply State.drainStores_keeps
    | with_reducible apply State.issue_keeps
    | with_reducible apply State.raiseWord_keeps
    | with_reducible apply State.reach_keeps
    | with_reducible apply State.atomicAt_keeps
    | (intro _ _ _ _ _; try dsimp only)
    | intro _ _ _ _
    | intro _ _ _
    | (intro _ _; try dsimp only)
    | with_reducible apply keeps_ite)

theorem State.cacheLine_keeps {s0 s : State} (hk : Keeps s0 s) (c : ClusterId) (l : L1Line) (op : CacheOp) : Keeps s0 (State.cacheLine s c l op) := by
  unfold State.cacheLine
  try dsimp only
  repeat' (first
    | with_reducible assumption
    | with_reducible apply State.maintain_keeps
    | (refine State.modCluster_keeps ?_ _ _ ?_; rotate_left; intro _ k; first | exact k)
    | with_reducible apply keeps_ite)

theorem State.cacheTarget_keeps {s0 s : State} (hk : Keeps s0 s) (c : ClusterId) (t : Target) (op : CacheOp) (level1 : Bool) : Keeps s0 (State.cacheTarget s c t op level1) := by
  unfold State.cacheTarget
  try dsimp only
  repeat' (first
    | with_reducible assumption
    | with_reducible apply State.l2Drop_keeps
    | with_reducible apply State.cacheLine_keeps
    | with_reducible apply keeps_ite
    | split)

theorem State.cacheOp_keeps {s0 s : State} (hk : Keeps s0 s) (c : ClusterId) (minor3 : Nat) (op : CacheOp) (rd : BitVec 5) (ra : BitVec 5) (imm : BitVec 12) : Keeps s0 (State.cacheOp s c minor3 op rd ra imm) := by
  unfold State.cacheOp
  try dsimp only
  repeat' (first
    | with_reducible assumption
    | with_reducible apply State.access_keeps
    | refine State.access_keepsE ?_ (by with_reducible assumption)
    | with_reducible apply State.drainStores_keeps
    | with_reducible apply State.raise_keeps
    | with_reducible apply State.xlateFault_keeps
    | with_reducible apply State.issue_keeps
    | with_reducible apply State.advance_keeps
    | with_reducible apply State.raiseWord_keeps
    | with_reducible apply State.cacheTarget_keeps
    | intro _ _ _ _ _
    | intro _ _ _ _
    | intro _ _ _
    | (intro _ _; try dsimp only)
    | with_reducible apply keeps_ite
    | split)

theorem State.cacheSw_keeps {s0 s : State} (hk : Keeps s0 s) (c : ClusterId) (minor3 : Nat) (op : CacheOp) (rd : BitVec 5) (ra : BitVec 5) (imm : BitVec 12) : Keeps s0 (State.cacheSw s c minor3 op rd ra imm) := by
  unfold State.cacheSw
  try dsimp only
  repeat' (first
    | with_reducible assumption
    | with_reducible apply State.drainStores_keeps
    | with_reducible apply State.issue_keeps
    | with_reducible apply State.advance_keeps
    | with_reducible apply State.raiseWord_keeps
    | with_reducible apply State.cacheLine_keeps
    | intro _ _ _ _ _
    | intro _ _ _ _
    | intro _ _ _
    | (intro _ _; try dsimp only)
    | with_reducible apply keeps_ite
    | split)

theorem State.fenceOp_keeps {s0 s : State} (hk : Keeps s0 s) (c : ClusterId) (minor3 : Nat) (rd : BitVec 5) (ra : BitVec 5) (imm : BitVec 12) (bad : Bool) (drains : Bool) (waits : State → Bool) : Keeps s0 (State.fenceOp s c minor3 rd ra imm bad drains waits) := by
  unfold State.fenceOp
  try dsimp only
  repeat' (first
    | with_reducible assumption
    | with_reducible apply State.settleAllHeld_keeps
    | with_reducible apply State.drainStores_keeps
    | with_reducible apply State.issue_keeps
    | with_reducible apply State.advance_keeps
    | with_reducible apply State.raiseWord_keeps
    | intro _ _ _ _ _
    | intro _ _ _ _
    | intro _ _ _
    | (intro _ _; try dsimp only)
    | with_reducible apply keeps_ite)

end Sys2Proof.Machine
end

