-- ==== Sys2Proof/Laws/KeepsRun.lean ====
section
/-! SUPPORT. The reads and writes of a share (`Run`) keep the queue and the invariant. -/
namespace Sys2Proof.Machine

/-- A share's work keeps what a command keeps, whether it ends or stops. -/
def KeepsRun {α : Type} (m : Run α) : Prop := ∀ s0 s : State, Keeps s0 s → Keeps s0 (m.run s).2

theorem keepsRun_pure {α : Type} (a : α) : KeepsRun (pure a : Run α) := fun _ _ h => h

theorem keepsRun_get : KeepsRun (get : Run State) := fun _ _ h => h

theorem keepsRun_do {f : State → State} (hf : ∀ s0 s, Keeps s0 s → Keeps s0 (f s)) : KeepsRun (runDo f) := fun s0 s h => hf s0 s h

theorem keepsRun_bind {α β : Type} {m : Run α} {f : α → Run β} (hm : KeepsRun m) (hf : ∀ a, KeepsRun (f a)) :
    KeepsRun (m >>= f) := by
  intro s0 s h
  have k := hm s0 s h
  show Keeps s0 ((ExceptT.bindCont f (m.run s).1 (m.run s).2)).2
  generalize (ExceptT.run m s) = r at k ⊢
  obtain ⟨v, s1⟩ := r
  cases v with
  | error e => exact k
  | ok a => exact hf a s0 s1 k

theorem keepsRun_ite {α : Type} {p : Prop} [Decidable p] {a b : Run α} (ha : KeepsRun a) (hb : KeepsRun b) :
    KeepsRun (if p then a else b) := by
  split <;> assumption

theorem keepsRun_foldlM {α β : Type} {l : List α} {f : β → α → Run β} (hf : ∀ b a, KeepsRun (f b a)) (b : β) :
    KeepsRun (l.foldlM f b) := by
  induction l generalizing b with
  | nil => exact keepsRun_pure b
  | cons a l ih =>
    rw [List.foldlM_cons]
    exact keepsRun_bind (hf b a) (fun b => ih b)

theorem keepsRun_forM {α : Type} {l : List α} {f : α → Run PUnit} (hf : ∀ a, KeepsRun (f a)) : KeepsRun (l.forM f) := by
  induction l with
  | nil => exact keepsRun_pure _
  | cons a l ih => exact keepsRun_bind (hf a) (fun _ => ih)

theorem keepsRun_mapM {α β : Type} {l : List α} {f : α → Run β} (hf : ∀ a, KeepsRun (f a)) : KeepsRun (l.mapM f) := by
  induction l with
  | nil =>
    rw [List.mapM_nil]
    exact keepsRun_pure _
  | cons a l ih =>
    rw [List.mapM_cons]
    exact keepsRun_bind (hf a) (fun _ => keepsRun_bind ih (fun _ => keepsRun_pure _))

/-- An access made once keeps what the access keeps. -/
theorem once_keepsRun {c : ClusterId} {f : State → Except ShareStop (List Byte) × State} (hf : ∀ s0 s, Keeps s0 s → Keeps s0 (f s).2) :
    KeepsRun (once c f) := by
  intro s0 s h
  have k := hf s0 s h
  unfold once
  rw [ExceptT.run_mk]
  split
  · dsimp only
    refine State.modCluster_keeps h c _ ?_
    exact fun _ k => k
  · generalize f s = r at k ⊢
    obtain ⟨v, s1⟩ := r
    cases v with
    | error _ => exact k
    | ok b =>
      show Keeps s0 (if (s1.cluster c).share.isSome then s1.modCluster c _ else s1)
      refine keeps_ite (State.modCluster_keeps k c _ ?_) k
      exact fun _ k => k

theorem loadOnce_keepsRun (c : ClusterId) (w : Work) (va n : Nat) : KeepsRun (loadOnce c w va n) := by
  refine once_keepsRun (fun s0 s h => ?_)
  have k := State.loadSpan_keeps h c w va n
  split <;> exact keeps_snd k (by assumption)

theorem saveOnce_keepsRun (c : ClusterId) (w : Work) (va : Nat) (bytes : List Byte) : KeepsRun (saveOnce c w va bytes) := by
  refine once_keepsRun (fun s0 s h => ?_)
  have k := State.saveSpan_keeps h c w va bytes
  split <;> exact keeps_snd k (by assumption)

theorem loadParts_keepsRun (c : ClusterId) (w : Work) (fuel va n : Nat) : KeepsRun (loadParts c w fuel va n) := by
  induction fuel generalizing va n with
  | zero => exact keepsRun_pure _
  | succ fuel ih =>
    exact keepsRun_ite (keepsRun_pure _) (keepsRun_bind (loadOnce_keepsRun _ _ _ _) (fun _ => keepsRun_bind (ih _ _) (fun _ => keepsRun_pure _)))

theorem saveParts_keepsRun (c : ClusterId) (w : Work) (fuel va : Nat) (bytes : List Byte) : KeepsRun (saveParts c w fuel va bytes) := by
  induction fuel generalizing va bytes with
  | zero => exact keepsRun_pure _
  | succ fuel ih =>
    exact keepsRun_ite (keepsRun_pure _) (keepsRun_bind (saveOnce_keepsRun _ _ _ _) (fun _ => ih _ _))

theorem loadRun_keepsRun (c : ClusterId) (w : Work) (va n : Nat) : KeepsRun (loadRun c w va n) := loadParts_keepsRun _ _ _ _ _

theorem saveRun_keepsRun (c : ClusterId) (w : Work) (va : Nat) (bytes : List Byte) : KeepsRun (saveRun c w va bytes) :=
  saveParts_keepsRun _ _ _ _ _

/-! ### Image operators -/

theorem ImgStage.params_keepsRun (x : ImgStage) (c : ClusterId) (w : Work) : KeepsRun (x.params c w) :=
  keepsRun_bind (loadRun_keepsRun _ _ _ _) (fun _ =>
    keepsRun_ite (keepsRun_bind (keepsRun_pure _) (fun _ => keepsRun_pure _))
      (keepsRun_bind (loadRun_keepsRun _ _ _ _) (fun _ => keepsRun_pure _)))

theorem readInput_keepsRun (c : ClusterId) (w : Work) (t : List Word) (va : Nat) (g : ImgGroup) (r : Rect) :
    KeepsRun (readInput c w t va g r) :=
  keepsRun_bind (keepsRun_mapM (fun _ => loadRun_keepsRun _ _ _ _)) (fun _ => keepsRun_pure _)

theorem writeOutput_keepsRun (c : ClusterId) (w : Work) (g : ImgGroup) (x : ImgStage) (img : Img) (r : Rect) :
    KeepsRun (writeOutput c w g x img r) :=
  keepsRun_forM (fun _ => saveRun_keepsRun _ _ _ _)

theorem State.unitDone_keeps {s0 s : State} (h : Keeps s0 s) (c : ClusterId) (w : Work) (lines : List CrustRows) (g : AmaxSlot) :
    Keeps s0 (s.unitDone c w lines g) := by
  unfold State.unitDone
  have k : Keeps s0 ((s.dropAnswers c w).modCluster c (fun x => { x with
      share := x.share.map (fun sh => { sh with unit := sh.unit + 1 })
      work := { x.work with lines := lines, done := [], ahead := [] } })) :=
    State.modCluster_keeps (State.dropAnswers_keeps h _ _) _ _ (fun _ k => k)
  dsimp only
  split
  · exact State.modDesc_keeps k _ _ _
  · exact k

theorem rectRun_keepsRun (c : ClusterId) (w : Work) (m : ImgMode) (t : List Word) (va : Nat) (g : ImgGroup) (l : List Loaded) (r : Rect) :
    KeepsRun (rectRun c w m t va g l r) := by
  unfold rectRun
  refine keepsRun_bind keepsRun_get (fun _ => keepsRun_bind (readInput_keepsRun _ _ _ _ _ _) (fun _ => ?_))
  split
  · exact keepsRun_pure _
  · exact keepsRun_bind (writeOutput_keepsRun _ _ _ _ _ _) (fun _ => keepsRun_do (fun _ _ h => State.unitDone_keeps h _ _ _ _))

theorem groupParams_keepsRun (c : ClusterId) (w : Work) (l : List ImgStage) : KeepsRun (groupParams c w l) := by
  unfold groupParams
  refine keepsRun_bind keepsRun_get (fun _ => keepsRun_ite ?_ (keepsRun_pure _))
  exact keepsRun_bind (keepsRun_mapM (fun _ => keepsRun_bind (ImgStage.params_keepsRun _ _ _) (fun _ => keepsRun_pure _)))
    (fun _ => keepsRun_bind (keepsRun_do (fun _ _ h => State.modCluster_keeps h _ _ (fun _ k => k))) (fun _ => keepsRun_pure _))

theorem groupRun_keepsRun (c : ClusterId) (w : Work) (m : ImgMode) (t : List Word) (va ncl first : Nat) (g : ImgGroup) :
    KeepsRun (groupRun c w m t va ncl first g) := by
  unfold groupRun
  dsimp only
  split
  · exact keepsRun_pure _
  · split
    · exact keepsRun_pure _
    · exact keepsRun_bind (groupParams_keepsRun _ _ _) (fun _ => keepsRun_forM (fun _ => rectRun_keepsRun _ _ _ _ _ _ _ _))

theorem groupStep_keepsRun (c : ClusterId) (w : Work) (m : ImgMode) (d : Desc) (g : ImgGroup) (n : Nat) :
    KeepsRun (groupStep c w m d g n) := by
  unfold groupStep
  refine keepsRun_bind keepsRun_get (fun _ => ?_)
  split
  · exact keepsRun_pure _
  · exact keepsRun_ite (keepsRun_pure _) (keepsRun_ite (keepsRun_bind (groupRun_keepsRun _ _ _ _ _ _ _ _) (fun _ =>
      keepsRun_bind (keepsRun_do (fun _ _ h => State.modCluster_keeps h _ _ (fun _ k => k))) (fun _ => keepsRun_pure _)))
      (keepsRun_pure _))

theorem imageRun_keepsRun (c : ClusterId) (w : Work) (seed : Word) (rank : Nat) (d : Desc) : KeepsRun (imageRun c w seed rank d) :=
  keepsRun_foldlM (fun _ _ => keepsRun_ite (groupStep_keepsRun _ _ _ _ _ _) (keepsRun_pure _)) _

theorem tableRun_keepsRun (c : ClusterId) (w : Work) (va : Nat) : KeepsRun (tableRun c w va) :=
  keepsRun_bind (loadRun_keepsRun _ _ _ _) (fun _ =>
    keepsRun_ite (keepsRun_bind (loadRun_keepsRun _ _ _ _) (fun _ => keepsRun_pure _)) (keepsRun_pure _))

/-! ### ATTN -/

theorem kestrelLine_keepsRun (c : ClusterId) (w : Work) (va : Nat) : KeepsRun (kestrelLine c w va) := by
  refine once_keepsRun (fun s0 s h => ?_)
  dsimp only
  split
  all_goals rename_i s1 e
  all_goals have k := State.access_keepsE h e
  · exact k
  · exact k
  · exact k
  · split
    all_goals rename_i e2
    · exact State.kestrelRead_keepsE k e2
    · split
      all_goals rename_i e3
      all_goals exact State.loadSpan_keepsE k e3
    · exact State.kestrelRead_keepsE k e2

theorem walkPages_keepsRun (c : ClusterId) (w : Work) (h : Line) (heads : List Nat) (base : Nat) (js : List Nat) (line : List Byte) :
    KeepsRun (walkPages c w h heads base js line) := by
  induction js generalizing line with
  | nil => exact keepsRun_pure _
  | cons j js ih =>
    unfold walkPages
    refine keepsRun_ite (keepsRun_bind (kestrelLine_keepsRun _ _ _) (fun l => ?_)) (keepsRun_bind (keepsRun_pure _) (fun l => ?_))
    all_goals refine keepsRun_ite (keepsRun_bind (keepsRun_mapM (fun _ => loadRun_keepsRun _ _ _ _)) (fun _ =>
      keepsRun_bind (ih _) (fun _ => keepsRun_pure _))) (keepsRun_pure _)

theorem headRun_keepsRun (c : ClusterId) (w : Work) (d : Desc) (head : Nat) (ks vs : List (List Nat)) :
    KeepsRun (headRun c w d head ks vs) :=
  keepsRun_forM (fun _ => keepsRun_bind (loadRun_keepsRun _ _ _ _) (fun _ => saveRun_keepsRun _ _ _ _))

theorem attnRun_keepsRun (c : ClusterId) (w : Work) (rank : Nat) (d : Desc) : KeepsRun (attnRun c w rank d) := by
  unfold attnRun
  refine keepsRun_bind (walkPages_keepsRun _ _ _ _ _ _ _) (fun r => ?_)
  split
  · exact keepsRun_pure _
  · refine keepsRun_bind (walkPages_keepsRun _ _ _ _ _ _ _) (fun r => ?_)
    split
    · exact keepsRun_pure _
    · exact keepsRun_bind (keepsRun_forM (fun _ => headRun_keepsRun _ _ _ _ _ _)) (fun _ => keepsRun_pure _)

end Sys2Proof.Machine
end

