-- ==== Sys2Proof/Laws/KeepsShares.lean ====
section
/-! SUPPORT. The shared operations of Machine/Shares.lean keep the queue and the invariant. -/
namespace Sys2Proof.Machine

theorem State.raiseDispatch_keeps {s0 s : State} (hk : Keeps s0 s) (c : ClusterId) (st : StreamId) (idx : W32) (rank : Nat) : Keeps s0 (State.raiseDispatch s c st idx rank) := by
  unfold State.raiseDispatch
  try dsimp only
  repeat' (first
    | with_reducible assumption
    | (refine State.modCluster_keeps ?_ _ _ ?_; rotate_left; intro _ k; exact k))

theorem State.beginHearth_keeps {s0 s : State} (hk : Keeps s0 s) (c : ClusterId) (rank : Nat) : Keeps s0 (State.beginHearth s c rank) := by
  unfold State.beginHearth
  try dsimp only
  repeat' (first
    | with_reducible assumption
    | with_reducible apply State.begin_keeps
    | (refine State.modCluster_keeps ?_ _ _ ?_; rotate_left; intro _ k; exact k))

theorem State.startKernel_keeps {s0 s : State} (hk : Keeps s0 s) (c : ClusterId) (before : Kestrel) (d : Desc) (rank : Nat) (ncl : Nat) : Keeps s0 (State.startKernel s c before d rank ncl) := by
  unfold State.startKernel
  try dsimp only
  repeat' (first
    | with_reducible assumption
    | with_reducible apply State.modK_keeps
    | with_reducible apply State.setDet_keeps)

theorem State.answerDispatch_keeps {s0 s : State} (hk : Keeps s0 s) (c : ClusterId) (before : Kestrel) : Keeps s0 (State.answerDispatch s c before) := by
  unfold State.answerDispatch
  try dsimp only
  repeat' (first
    | with_reducible assumption
    | with_reducible apply State.startKernel_keeps
    | with_reducible apply keeps_ite
    | split)

theorem State.beginNcl_keeps {s0 s : State} (hk : Keeps s0 s) (st : StreamId) (idx : W32) (op : Nat) (nclOff : Nat) (start : Desc → ClusterId → Nat → State → State) (hstart : ∀ (x0 : Desc) (x1 : ClusterId) (x2 : Nat) (x3 : State), Keeps s0 x3 → Keeps s0 (start x0 x1 x2 x3)) : Keeps s0 (State.beginNcl s st idx op nclOff start) := by
  unfold State.beginNcl
  try dsimp only
  repeat' (first
    | with_reducible assumption
    | with_reducible apply State.modDesc_keeps
    | with_reducible apply State.finish_keeps
    | with_reducible apply State.begin_keeps
    | with_reducible apply State.badDescriptor_keeps
    | with_reducible apply State.raiseDispatch_keeps
    | with_reducible apply hstart
    | with_reducible apply keeps_foldl
    | intro _ _ _ _ _
    | intro _ _ _ _
    | (intro _ _ _; try dsimp only)
    | with_reducible apply keeps_ite
    | split)

theorem State.endShare_keeps {s0 s : State} (hk : Keeps s0 s) (c : ClusterId) (sh : Share) (last : Desc → State → State) (hlast : ∀ (x0 : Desc) (x1 : State), Keeps s0 x1 → Keeps s0 (last x0 x1)) : Keeps s0 (State.endShare s c sh last) := by
  unfold State.endShare
  try dsimp only
  repeat' (first
    | with_reducible assumption
    | with_reducible apply State.modDesc_keeps
    | with_reducible apply State.cleanL1_keeps
    | with_reducible apply State.drainStores_keeps
    | with_reducible apply hlast
    | (refine State.modCluster_keeps ?_ _ _ ?_; rotate_left; intro _ k; first | exact k)
    | with_reducible apply keeps_ite
    | split)

end Sys2Proof.Machine
end

