-- ==== Sys2Proof/Laws/KeepsImage.lean ====
section
/-! SUPPORT. The shared operations of Machine/Image.lean keep the queue and the invariant. -/
namespace Sys2Proof.Machine

theorem State.beginShares_keeps {s0 s : State} (hk : Keeps s0 s) (st : StreamId) (idx : W32) (op : Nat) (nclOff : Nat) (ready : ClusterId → Desc → State → State) (hready : ∀ (x0 : ClusterId) (x1 : Desc) (x2 : State), Keeps s0 x2 → Keeps s0 (ready x0 x1 x2)) : Keeps s0 (State.beginShares s st idx op nclOff ready) := by
  unfold State.beginShares
  try dsimp only
  repeat' (first
    | with_reducible assumption
    | with_reducible apply State.continuing_keeps
    | with_reducible apply State.badDescriptor_keeps
    | with_reducible apply State.beginChecked_keeps
    | with_reducible apply State.beginWhen_keeps
    | with_reducible apply hready
    | intro _ _ _ _ _
    | intro _ _ _ _
    | (intro _ _ _; try dsimp only)
    | with_reducible apply keeps_ite
    | split)

theorem State.dispatchAll_keeps {s0 s : State} (hk : Keeps s0 s) (st : StreamId) (idx : W32) (n : Nat) : Keeps s0 (State.dispatchAll s st idx n) := by
  unfold State.dispatchAll
  try dsimp only
  repeat' (first
    | with_reducible assumption
    | with_reducible apply State.modDesc_keeps
    | with_reducible apply State.raiseDispatch_keeps
    | with_reducible apply keeps_foldl
    | intro _ _ _ _ _
    | intro _ _ _ _
    | (intro _ _ _; try dsimp only))

theorem State.readTable_keeps {s0 s : State} (hk : Keeps s0 s) (c : ClusterId) (st : StreamId) (d : Desc) : Keeps s0 (State.readTable s c st d) := by
  unfold State.readTable
  try dsimp only
  repeat' (first
    | with_reducible assumption
    | with_reducible apply State.modDesc_keeps
    | with_reducible apply State.badDescriptor_keeps
    | with_reducible apply State.dropAnswers_keeps
    | with_reducible apply State.moverStops_keeps
    | with_reducible apply State.dispatchAll_keeps
    | refine keeps_snd (tableRun_keepsRun _ _ _ _ _ ?_) (by with_reducible assumption)
    | with_reducible apply keeps_ite
    | split)

theorem State.imageEnd_keeps {s0 s : State} (hk : Keeps s0 s) (st : StreamId) (d : Desc) : Keeps s0 (State.imageEnd s st d) := by
  unfold State.imageEnd
  try dsimp only
  repeat' (first
    | with_reducible assumption
    | with_reducible apply State.modDesc_keeps
    | with_reducible apply State.finish_keeps
    | with_reducible apply State.modH_keeps
    | with_reducible apply keeps_ite
    | split)

theorem State.imageOp_keeps {s0 s : State} (hk : Keeps s0 s) (st : StreamId) (idx : W32) (op : Nat) : Keeps s0 (State.imageOp s st idx op) := by
  unfold State.imageOp
  try dsimp only
  repeat' (first
    | with_reducible assumption
    | with_reducible apply State.continuing_keeps
    | with_reducible apply State.beginShares_keeps
    | with_reducible apply State.readTable_keeps
    | with_reducible apply State.imageEnd_keeps
    | intro _ _ _ _ _
    | (intro _ _ _ _; try dsimp only)
    | (intro _ _ _; try dsimp only)
    | with_reducible apply keeps_ite
    | split)

end Sys2Proof.Machine
end

