-- ==== Sys2Proof/Laws/KeepsAttention.lean ====
section
/-! SUPPORT. The shared operations of Machine/Attention.lean keep the queue and the invariant. -/
namespace Sys2Proof.Machine

theorem State.readKvHeader_keeps {s0 s : State} (hk : Keeps s0 s) (c : ClusterId) (st : StreamId) (d : Desc) : Keeps s0 (State.readKvHeader s c st d) := by
  unfold State.readKvHeader
  try dsimp only
  repeat' (first
    | with_reducible assumption
    | with_reducible apply State.modDesc_keeps
    | with_reducible apply State.badDescriptor_keeps
    | with_reducible apply State.dropAnswers_keeps
    | with_reducible apply State.loadSpan_keeps
    | refine State.loadSpan_keepsE ?_ (by with_reducible assumption)
    | with_reducible apply State.moverStops_keeps
    | with_reducible apply State.dispatchAll_keeps
    | with_reducible apply keeps_ite
    | split)

theorem State.runtimeLeaves_keeps {s0 s : State} (hk : Keeps s0 s) (c : ClusterId) : Keeps s0 (State.runtimeLeaves s c) := by
  unfold State.runtimeLeaves
  try dsimp only
  repeat' (first
    | with_reducible assumption
    | with_reducible apply State.fresh_keeps
    | refine State.fresh_keepsE ?_ (by with_reducible assumption)
    | with_reducible apply keeps_foldl
    | (refine State.modCluster_keeps ?_ _ _ ?_; rotate_left; intro _ k; first | exact k | exact Mem.wf_writeBytes _ _ _ k))

theorem State.shareBack_keeps {s0 s : State} (hk : Keeps s0 s) (c : ClusterId) : Keeps s0 (State.shareBack s c) := by
  unfold State.shareBack
  try dsimp only
  repeat' (first
    | with_reducible assumption
    | (refine State.modCluster_keeps ?_ _ _ ?_; rotate_left; intro _ k; exact k))

theorem State.shareStops_keeps {s0 s : State} (h : Keeps s0 s) (c : ClusterId) (sh : Share) (x : ShareStop) : Keeps s0 (State.shareStops s c sh x) := by
  cases x <;> unfold State.shareStops <;> (try dsimp only)
  all_goals repeat' (first
    | with_reducible assumption
    | with_reducible apply State.postFault_keeps
    | with_reducible apply State.faultStop_keeps
    | with_reducible apply State.raise_keeps
    | with_reducible apply State.xlateFault_keeps
    | with_reducible apply State.moverFails_keeps
    | with_reducible apply State.askMover_keeps
    | with_reducible apply State.afterRead_keeps
    | with_reducible apply State.runtimeLeaves_keeps
    | with_reducible apply State.shareBack_keeps
    | (refine State.modCluster_keeps ?_ _ _ ?_; rotate_left; intro _ k; exact k)
    | intro _ _ _ _ _
    | intro _ _ _ _
    | (intro _ _ _; try dsimp only)
    | with_reducible apply keeps_ite
    | split)

theorem State.imageShare_keeps {s0 s : State} (hk : Keeps s0 s) (c : ClusterId) (sh : Share) (d : Desc) : Keeps s0 (State.imageShare s c sh d) := by
  unfold State.imageShare
  try dsimp only
  repeat' (first
    | with_reducible assumption
    | with_reducible apply State.endShare_keeps
    | with_reducible apply State.dropAnswers_keeps
    | with_reducible apply State.imageEnd_keeps
    | with_reducible apply State.runtimeLeaves_keeps
    | with_reducible apply State.shareStops_keeps
    | refine keeps_snd (imageRun_keepsRun _ _ _ _ _ _ _ ?_) (by with_reducible assumption)
    | intro _ _ _ _ _
    | intro _ _ _ _
    | (intro _ _ _; try dsimp only)
    | with_reducible apply keeps_ite
    | split)

theorem State.attnShare_keeps {s0 s : State} (hk : Keeps s0 s) (c : ClusterId) (sh : Share) (d : Desc) : Keeps s0 (State.attnShare s c sh d) := by
  unfold State.attnShare
  try dsimp only
  repeat' (first
    | with_reducible assumption
    | with_reducible apply State.finish_keeps
    | with_reducible apply State.badDescriptor_keeps
    | with_reducible apply State.endShare_keeps
    | with_reducible apply State.dropAnswers_keeps
    | with_reducible apply State.runtimeLeaves_keeps
    | with_reducible apply State.shareStops_keeps
    | refine keeps_snd (attnRun_keepsRun _ _ _ _ _ _ ?_) (by with_reducible assumption)
    | intro _ _ _ _ _
    | intro _ _ _ _
    | (intro _ _ _; try dsimp only)
    | with_reducible apply keeps_ite
    | split)

theorem State.kendReturn_keeps {s0 s : State} (hk : Keeps s0 s) (c : ClusterId) : Keeps s0 (State.kendReturn s c) := by
  unfold State.kendReturn
  try dsimp only
  repeat' (first
    | with_reducible assumption
    | with_reducible apply State.modK_keeps
    | with_reducible apply State.advance_keeps)

theorem State.kend_keeps {s0 s : State} (hk : Keeps s0 s) (c : ClusterId) : Keeps s0 (State.kend s c) := by
  unfold State.kend
  try dsimp only
  repeat' (first
    | with_reducible assumption
    | with_reducible apply State.finish_keeps
    | with_reducible apply State.endShare_keeps
    | with_reducible apply State.imageShare_keeps
    | with_reducible apply State.attnShare_keeps
    | with_reducible apply State.kendReturn_keeps
    | intro _ _ _ _ _
    | intro _ _ _ _
    | (intro _ _ _; try dsimp only)
    | with_reducible apply keeps_ite
    | split)

end Sys2Proof.Machine
end

