-- ==== Sys2Proof/Laws/KeepsDescriptors.lean ====
section
/-! SUPPORT. The shared operations of Machine/Descriptors.lean keep the queue and the invariant. -/
namespace Sys2Proof.Machine

theorem State.jobDone_keeps {s0 s : State} (hk : Keeps s0 s) (j : JobId) : Keeps s0 (State.jobDone s j) := by
  unfold State.jobDone
  try dsimp only
  repeat' (first
    | with_reducible assumption
    | with_reducible apply State.setJob_keeps
    | with_reducible apply State.releaseCluster_keeps
    | with_reducible apply State.endJob_keeps
    | with_reducible apply keeps_foldl
    | intro _ _ _ _ _
    | intro _ _ _ _
    | (intro _ _ _; try dsimp only)
    | with_reducible apply keeps_ite
    | split)

theorem State.fenceStep_keeps {s0 s : State} (hk : Keeps s0 s) (st : StreamId) (d : Desc) : Keeps s0 (State.fenceStep s st d) := by
  unfold State.fenceStep
  try dsimp only
  repeat' (first
    | with_reducible assumption
    | with_reducible apply State.emit_keeps
    | with_reducible apply State.finish_keeps
    | with_reducible apply State.hostRead_keeps
    | refine State.hostRead_keepsE ?_ (by with_reducible assumption)
    | with_reducible apply keeps_ite)

theorem State.stamp_keeps {s0 s : State} (hk : Keeps s0 s) (st : StreamId) (d : Desc) : Keeps s0 (State.stamp s st d) := by
  unfold State.stamp
  try dsimp only
  repeat' (first
    | with_reducible assumption
    | with_reducible apply State.modDesc_keeps
    | with_reducible apply State.postCause_keeps
    | with_reducible apply State.finishAt_keeps
    | with_reducible apply State.postFault_keeps
    | with_reducible apply State.failJob_keeps
    | with_reducible apply State.sendRequest_keeps
    | with_reducible apply State.jobWrite_keeps
    | refine State.jobWrite_keepsE ?_ (by with_reducible assumption)
    | with_reducible apply State.jobStops_keeps
    | with_reducible apply keeps_ite
    | split)

theorem State.resumedNotices_keeps {s0 s : State} (hk : Keeps s0 s) (st : StreamId) (id : W32) : Keeps s0 (State.resumedNotices s st id) := by
  unfold State.resumedNotices
  try dsimp only
  repeat' (first
    | with_reducible assumption
    | with_reducible apply State.modStream_keeps
    | with_reducible apply State.flushStream_keeps)

theorem State.restartMaster_keeps {s0 s : State} (hk : Keeps s0 s) (f : FaultInfo) : Keeps s0 (State.restartMaster s f) := by
  unfold State.restartMaster
  try dsimp only
  repeat' (first
    | with_reducible assumption
    | with_reducible apply State.modStream_keeps
    | with_reducible apply State.modJob_keeps
    | with_reducible apply State.faultStop_keeps
    | with_reducible apply keeps_foldl
    | refine State.setCluster_keeps ?_ _ _ (Keeps.store ?_ _)
    | intro _ _ _ _ _
    | intro _ _ _ _
    | (intro _ _ _; try dsimp only)
    | with_reducible apply keeps_ite)

theorem State.leaveFault_keeps {s0 s : State} (hk : Keeps s0 s) (st : StreamId) : Keeps s0 (State.leaveFault s st) := by
  unfold State.leaveFault
  try dsimp only
  repeat' (first
    | with_reducible assumption
    | with_reducible apply State.setStream_keeps
    | with_reducible apply State.settle_keeps
    | with_reducible apply keeps_ite)

end Sys2Proof.Machine
end

