-- ==== Sys2Proof/Laws/KeepsFabric.lean ====
section
/-! SUPPORT. The shared operations of Machine/Fabric.lean keep the queue and the invariant. -/
namespace Sys2Proof.Machine

theorem State.route_keeps {s0 s : State} (hk : Keeps s0 s) (pkt : Packet) : Keeps s0 (State.route s pkt) := by
  unfold State.route
  try dsimp only
  repeat' (first
    | with_reducible assumption
    | with_reducible apply State.sendPacket_keeps
    | with_reducible apply keeps_ite
    | split)

theorem State.answer_keeps {s0 s : State} (hk : Keeps s0 s) (pkt : Packet) (status : Nat) (data : List Byte) (crc : Option W32) : Keeps s0 (State.answer s pkt status data crc) := by
  unfold State.answer
  try dsimp only
  repeat' (first
    | with_reducible assumption
    | with_reducible apply State.route_keeps
    | with_reducible apply keeps_ite
    | split)

theorem State.closeRequest_keeps {s0 s : State} (hk : Keeps s0 s) (r : PeerReq) : Keeps s0 (State.closeRequest s r) := by
  unfold State.closeRequest
  try dsimp only
  repeat' (first
    | with_reducible assumption
    | with_reducible apply State.forget_keeps)

theorem State.requestFails_keeps {s0 s : State} (hk : Keeps s0 s) (r : PeerReq) : Keeps s0 (State.requestFails s r) := by
  unfold State.requestFails
  try dsimp only
  repeat' (first
    | with_reducible assumption
    | with_reducible apply State.postCause_keeps
    | with_reducible apply State.failJob_keeps
    | with_reducible apply State.fencedFor_keeps
    | with_reducible apply State.closeRequest_keeps
    | with_reducible apply keeps_ite
    | split)

theorem State.requestViolates_keeps {s0 s : State} (hk : Keeps s0 s) (r : PeerReq) : Keeps s0 (State.requestViolates s r) := by
  unfold State.requestViolates
  try dsimp only
  repeat' (first
    | with_reducible assumption
    | with_reducible apply State.freezeCluster_keeps
    | with_reducible apply State.modK_keeps
    | with_reducible apply State.raise_keeps
    | with_reducible apply State.freezeMover_keeps
    | with_reducible apply State.jobFreeze_keeps
    | with_reducible apply State.load_keeps
    | with_reducible apply State.atomic_keeps
    | with_reducible apply State.closeRequest_keeps
    | with_reducible apply keeps_ite
    | split)

theorem State.answered_keeps {s0 s : State} (hk : Keeps s0 s) (p : PortId) (kind : Nat) (pkt : Packet) (f : PeerReq → State → State) (hf : ∀ (x0 : PeerReq) (x1 : State), Keeps s0 x1 → Keeps s0 (f x0 x1)) : Keeps s0 (State.answered s p kind pkt f) := by
  unfold State.answered
  try dsimp only
  repeat' (first
    | with_reducible assumption
    | with_reducible apply State.requestFails_keeps
    | with_reducible apply State.requestViolates_keeps
    | with_reducible apply hf
    | with_reducible apply keeps_ite
    | split)

theorem State.unreachable_keeps {s0 s : State} (hk : Keeps s0 s) (pkt : Packet) : Keeps s0 (State.unreachable s pkt) := by
  unfold State.unreachable
  try dsimp only
  repeat' (first
    | with_reducible assumption
    | with_reducible apply State.answer_keeps
    | with_reducible apply State.requestFails_keeps
    | with_reducible apply keeps_ite
    | split)

theorem State.turnAway_keeps {s0 s : State} (hk : Keeps s0 s) (p : PortId) (pkt : Packet) : Keeps s0 (State.turnAway s p pkt) := by
  unfold State.turnAway
  repeat' (first
    | with_reducible assumption
    | with_reducible apply State.sendPacket_keeps
    | with_reducible apply keeps_ite
    | split)

theorem State.refuse_keeps {s0 s : State} (hk : Keeps s0 s) (p : PortId) (pkt : Packet) : Keeps s0 (State.refuse s p pkt) := by
  unfold State.refuse
  try dsimp only
  repeat' (first
    | with_reducible assumption
    | with_reducible apply State.holdMaster_keeps
    | with_reducible apply State.answer_keeps)

theorem State.serve_keeps {s0 s : State} (hk : Keeps s0 s) (p : PortId) (kind : Nat) (right : Nat) (pkt : Packet) (f : State → State) (hf : ∀ (x0 : State), Keeps s0 x0 → Keeps s0 (f x0)) : Keeps s0 (State.serve s p kind right pkt f) := by
  unfold State.serve
  try dsimp only
  repeat' (first
    | with_reducible assumption
    | with_reducible apply State.turnAway_keeps
    | with_reducible apply State.answer_keeps
    | with_reducible apply State.refuse_keeps
    | with_reducible apply hf
    | with_reducible apply keeps_ite
    | split)

theorem State.remoteDone_keeps {s0 s : State} (hk : Keeps s0 s) (r : PeerReq) (rd : BitVec 5) (v : Word) : Keeps s0 (State.remoteDone s r rd v) := by
  unfold State.remoteDone
  try dsimp only
  repeat' (first
    | with_reducible assumption
    | with_reducible apply State.modK_keeps
    | with_reducible apply State.writeReg_keeps
    | with_reducible apply keeps_ite)

theorem State.setLink_keeps {s0 s : State} (hk : Keeps s0 s) (p : PortId) (l : Nat) : Keeps s0 (State.setLink s p l) := by
  unfold State.setLink
  try dsimp only
  repeat' (first
    | with_reducible assumption
    | with_reducible apply State.setPort_keeps
    | with_reducible apply State.sensorEvent_keeps
    | with_reducible apply State.postLink_keeps
    | with_reducible apply State.openBurst_keeps
    | with_reducible apply keeps_ite)

theorem State.setCut_keeps {s0 s : State} (hk : Keeps s0 s) (dim : Nat) (link : Nat) (on : Bool) : Keeps s0 (State.setCut s dim link on) := by
  unfold State.setCut
  try dsimp only
  repeat' (first
    | with_reducible assumption
    | with_reducible apply keeps_ite
    | split
    | (apply Keeps.mkA; first | with_reducible assumption))

theorem State.ringNotice_keeps {s0 s : State} (hk : Keeps s0 s) (kind : Nat) (dim : Nat) (link : Nat) (src : BitVec 12) (plus : Bool) : Keeps s0 (State.ringNotice s kind dim link src plus) := by
  unfold State.ringNotice
  try dsimp only
  repeat' (first
    | with_reducible assumption
    | with_reducible apply State.sendPacket_keeps
    | with_reducible apply keeps_ite
    | split)

theorem State.cutRing_keeps {s0 s : State} (hk : Keeps s0 s) (p : PortId) (cut : Bool) : Keeps s0 (State.cutRing s p cut) := by
  unfold State.cutRing
  try dsimp only
  repeat' (first
    | with_reducible assumption
    | with_reducible apply State.setCut_keeps
    | with_reducible apply State.ringNotice_keeps
    | with_reducible apply keeps_ite
    | split)

theorem State.reinject_keeps {s0 s : State} (hk : Keeps s0 s) (p : PortId) : Keeps s0 (State.reinject s p) := by
  unfold State.reinject
  try dsimp only
  repeat' (first
    | with_reducible assumption
    | with_reducible apply State.modPort_keeps
    | with_reducible apply State.sendPacket_keeps
    | with_reducible apply State.unreachable_keeps
    | with_reducible apply keeps_foldl
    | intro _ _ _ _ _
    | intro _ _ _ _
    | (intro _ _ _; try dsimp only)
    | with_reducible apply keeps_ite
    | split)

theorem State.losePort_keeps {s0 s : State} (hk : Keeps s0 s) (p : PortId) : Keeps s0 (State.losePort s p) := by
  unfold State.losePort
  try dsimp only
  repeat' (first
    | with_reducible assumption
    | with_reducible apply State.modPort_keeps
    | with_reducible apply State.postCapacity_keeps
    | with_reducible apply State.setLink_keeps
    | with_reducible apply State.cutRing_keeps
    | with_reducible apply State.reinject_keeps)

theorem State.ringMoves_keeps {s0 s : State} (hk : Keeps s0 s) (p : PortId) (dim : Fin 3) (link : BitVec 4) (src : BitVec 12) (cut : Bool) : Keeps s0 (State.ringMoves s p dim link src cut) := by
  unfold State.ringMoves
  try dsimp only
  repeat' (first
    | with_reducible assumption
    | with_reducible apply State.setCut_keeps
    | with_reducible apply State.ringNotice_keeps
    | with_reducible apply keeps_ite)

theorem State.missTime_keeps {s0 s : State} (hk : Keeps s0 s) (n : Nat) : Keeps s0 (State.missTime s n) := by
  unfold State.missTime
  try dsimp only
  repeat' (first
    | with_reducible assumption
    | with_reducible apply keeps_ite
    | split
    | (apply Keeps.mkA; first | with_reducible assumption))

theorem State.askTime_keeps {s0 s : State} (hk : Keeps s0 s) (p : PortId) : Keeps s0 (State.askTime s p) := by
  unfold State.askTime
  try dsimp only
  repeat' (first
    | with_reducible assumption
    | with_reducible apply State.sendPacket_keeps)

theorem State.sendSleep_keeps {s0 s : State} (hk : Keeps s0 s) (p : PortId) (kind : Nat) (roost : Bool) : Keeps s0 (State.sendSleep s p kind roost) := by
  unfold State.sendSleep
  try dsimp only
  repeat' (first
    | with_reducible assumption
    | with_reducible apply State.modPort_keeps
    | with_reducible apply State.pump_keeps)

theorem State.resumePort_keeps {s0 s : State} (hk : Keeps s0 s) (p : PortId) : Keeps s0 (State.resumePort s p) := by
  unfold State.resumePort
  try dsimp only
  repeat' (first
    | with_reducible assumption
    | with_reducible apply State.modPort_keeps
    | with_reducible apply State.pump_keeps)

theorem State.enterSleep_keeps {s0 s : State} (hk : Keeps s0 s) (p : PortId) : Keeps s0 (State.enterSleep s p) := by
  unfold State.enterSleep
  try dsimp only
  repeat' (first
    | with_reducible assumption
    | with_reducible apply State.setPort_keeps
    | with_reducible apply State.setLink_keeps)

theorem State.wakePort_keeps {s0 s : State} (hk : Keeps s0 s) (p : PortId) : Keeps s0 (State.wakePort s p) := by
  unfold State.wakePort
  try dsimp only
  repeat' (first
    | with_reducible assumption
    | with_reducible apply State.setPort_keeps
    | with_reducible apply State.pump_keeps
    | with_reducible apply State.setLink_keeps
    | with_reducible apply State.askTime_keeps
    | with_reducible apply keeps_ite)

end Sys2Proof.Machine
end

