-- ==== Sys2Proof/Laws/KeepsCheckpoint.lean ====
section
/-! SUPPORT. The shared operations of Machine/Checkpoint.lean keep the queue and the invariant. -/
namespace Sys2Proof.Machine

theorem State.setHalf_keeps {s0 s : State} (hk : Keeps s0 s) (slot : Nat) (h : Bool) (v : Nat) : Keeps s0 (State.setHalf s slot h v) := by
  unfold State.setHalf
  try dsimp only
  repeat' (first
    | with_reducible assumption
    | with_reducible apply State.writeMem_keeps)

theorem State.emptyFilling_keeps {s0 s : State} (hk : Keeps s0 s) (slot : Nat) : Keeps s0 (State.emptyFilling s slot) := by
  unfold State.emptyFilling
  try dsimp only
  repeat' (first
    | with_reducible assumption
    | with_reducible apply State.setHalf_keeps
    | with_reducible apply keeps_foldl
    | intro _ _ _ _ _
    | intro _ _ _ _
    | (intro _ _ _; try dsimp only)
    | with_reducible apply keeps_ite)

theorem State.openHalf_keeps {s0 s : State} (hk : Keeps s0 s) (src : BitVec 12) (slot : Nat) : Keeps s0 (State.openHalf s src slot).2 := by
  unfold State.openHalf
  try dsimp only
  repeat' (first
    | with_reducible assumption
    | with_reducible apply State.writeMem_keeps
    | with_reducible apply State.emptyFilling_keeps)
theorem State.openHalf_keepsE {s0 s s9 : State} (hk : Keeps s0 s) {src : BitVec 12} {slot : Nat} {r0 : Bool} (eq9 : State.openHalf s src slot = (r0, s9)) : Keeps s0 s9 := by
  have k := State.openHalf_keeps hk src slot 
  rw [eq9] at k
  exact k

theorem State.fillHalf_keepsE {s0 s s9 : State} (h : Keeps s0 s) {slot off : Nat} {bytes : List Byte}
    (eq9 : s.fillHalf slot off bytes = some s9) : Keeps s0 s9 := by
  unfold State.fillHalf at eq9
  split at eq9
  · split at eq9
    · cases eq9
      exact State.writeMem_keeps h _ _
    · cases eq9
  · cases eq9

theorem State.sealHalf_keepsE {s0 s s9 : State} (h : Keeps s0 s) {slot : Nat} {crc : W32}
    (eq9 : s.sealHalf slot crc = some s9) : Keeps s0 s9 := by
  unfold State.sealHalf at eq9
  split at eq9
  · split at eq9
    · cases eq9
      exact State.setHalf_keeps (State.writeMem_keeps (State.writeMem_keeps h _ _) _ _) _ _ _
    · cases eq9
  · cases eq9

theorem State.serveCkpt_keeps {s0 s : State} (hk : Keeps s0 s) (p : PortId) (kind : Nat) (pkt : Packet) (f : State → State) (hf : ∀ (x0 : State), Keeps s0 x0 → Keeps s0 (f x0)) : Keeps s0 (State.serveCkpt s p kind pkt f) := by
  unfold State.serveCkpt
  try dsimp only
  repeat' (first
    | with_reducible assumption
    | with_reducible apply State.turnAway_keeps
    | with_reducible apply State.refuse_keeps
    | with_reducible apply hf
    | with_reducible apply keeps_ite)

theorem State.ckSend_keeps {s0 s : State} (hk : Keeps s0 s) (c : ClusterId) (st : StreamId) (d : Desc) (kind : Nat) (off : Nat) (len : Nat) (crc : Option W32) (data : List Byte) : Keeps s0 (State.ckSend s c st d kind off len crc data) := by
  unfold State.ckSend
  try dsimp only
  repeat' (first
    | with_reducible assumption
    | with_reducible apply State.postCause_keeps
    | with_reducible apply State.failJob_keeps
    | with_reducible apply State.sendRequest_keeps
    | with_reducible apply keeps_ite)

theorem State.ckOpened_keeps {s0 s : State} (hk : Keeps s0 s) (st : StreamId) (d : Desc) (half : Nat) (size : Nat) : Keeps s0 (State.ckOpened s st d half size) := by
  unfold State.ckOpened
  try dsimp only
  repeat' (first
    | with_reducible assumption
    | with_reducible apply State.modDesc_keeps
    | with_reducible apply State.badDescriptor_keeps
    | with_reducible apply keeps_ite)

theorem State.ckSaved_keeps {s0 s : State} (hk : Keeps s0 s) (st : StreamId) (d : Desc) : Keeps s0 (State.ckSaved s st d) := by
  unfold State.ckSaved
  try dsimp only
  repeat' (first
    | with_reducible assumption
    | with_reducible apply State.modJob_keeps
    | with_reducible apply State.finish_keeps)

theorem State.ckFails_keeps {s0 s : State} (hk : Keeps s0 s) (st : StreamId) (idx : Option W32) : Keeps s0 (State.ckFails s st idx) := by
  unfold State.ckFails
  try dsimp only
  repeat' (first
    | with_reducible assumption
    | with_reducible apply State.fresh_keeps
    | refine State.fresh_keepsE ?_ (by with_reducible assumption)
    | with_reducible apply State.postCause_keeps
    | with_reducible apply State.failJob_keeps)

theorem State.ckWrite_keeps (n : Nat) {s0 s : State} (h : Keeps s0 s) (c : ClusterId) (st : StreamId) (d : Desc) (off : Nat) (bytes : List Byte) : Keeps s0 (State.ckWrite n s c st d off bytes) := by
  induction n generalizing s c st d off bytes with
  | zero => exact h
  | succ n ih =>
    unfold State.ckWrite
    try dsimp only
    repeat' (first
      | with_reducible assumption
      | with_reducible apply ih
      | with_reducible apply State.ckSend_keeps
      | with_reducible apply keeps_ite
      | split)

theorem State.ckPiece_keeps {s0 s : State} (hk : Keeps s0 s) (c : ClusterId) (st : StreamId) (d : Desc) (x : Job) : Keeps s0 (State.ckPiece s c st d x).2 := by
  unfold State.ckPiece
  try dsimp only
  repeat' (first
    | with_reducible assumption
    | with_reducible apply State.loadSpan_keeps
    | refine State.loadSpan_keepsE ?_ (by with_reducible assumption)
    | with_reducible apply keeps_ite
    | split)
theorem State.ckPiece_keepsE {s0 s s9 : State} (hk : Keeps s0 s) {c : ClusterId} {st : StreamId} {d : Desc} {x : Job} {r0 : Except SpanStop (List Byte)} (eq9 : State.ckPiece s c st d x = (r0, s9)) : Keeps s0 s9 := by
  have k := State.ckPiece_keeps hk c st d x 
  rw [eq9] at k
  exact k

theorem State.ckSaveStep_keeps {s0 s : State} (hk : Keeps s0 s) (c : ClusterId) (st : StreamId) (d : Desc) (x : Job) : Keeps s0 (State.ckSaveStep s c st d x) := by
  unfold State.ckSaveStep
  try dsimp only
  repeat' (first
    | with_reducible assumption
    | with_reducible apply State.modDesc_keeps
    | with_reducible apply State.dropAnswers_keeps
    | with_reducible apply State.freezeMover_keeps
    | with_reducible apply State.moverStops_keeps
    | with_reducible apply State.openHalf_keeps
    | refine State.openHalf_keepsE ?_ (by with_reducible assumption)
    | refine State.fillHalf_keepsE ?_ (by with_reducible assumption)
    | refine State.sealHalf_keepsE ?_ (by with_reducible assumption)
    | with_reducible apply State.ckSend_keeps
    | with_reducible apply State.ckOpened_keeps
    | with_reducible apply State.ckSaved_keeps
    | with_reducible apply State.ckFails_keeps
    | with_reducible apply State.ckWrite_keeps
    | with_reducible apply State.ckPiece_keeps
    | refine State.ckPiece_keepsE ?_ (by with_reducible assumption)
    | with_reducible apply keeps_foldl
    | with_reducible apply keeps_ite
    | split)

theorem State.beginCkpt_keeps {s0 s : State} (hk : Keeps s0 s) (st : StreamId) (idx : W32) (restore : Bool) (f : Desc → State → State) (hf : ∀ (x0 : Desc) (x1 : State), Keeps s0 x1 → Keeps s0 (f x0 x1)) : Keeps s0 (State.beginCkpt s st idx restore f) := by
  unfold State.beginCkpt
  try dsimp only
  repeat' (first
    | with_reducible assumption
    | with_reducible apply State.badDescriptor_keeps
    | with_reducible apply State.beginWhen_keeps
    | with_reducible apply State.serveStream_keeps
    | with_reducible apply hf
    | intro _ _ _ _ _
    | intro _ _ _ _
    | (intro _ _ _; try dsimp only)
    | with_reducible apply keeps_ite
    | split)

theorem State.goOnCkpt_keeps {s0 s : State} (hk : Keeps s0 s) (st : StreamId) (idx : W32) (restore : Bool) (f : ClusterId → Desc → Job → State → State) (hf : ∀ (x0 : ClusterId) (x1 : Desc) (x2 : Job) (x3 : State), Keeps s0 x3 → Keeps s0 (f x0 x1 x2 x3)) : Keeps s0 (State.goOnCkpt s st idx restore f) := by
  unfold State.goOnCkpt
  try dsimp only
  repeat' (first
    | with_reducible assumption
    | with_reducible apply State.continuing_keeps
    | with_reducible apply hf
    | intro _ _ _ _ _
    | intro _ _ _ _
    | (intro _ _ _; try dsimp only)
    | with_reducible apply keeps_ite
    | split)

theorem State.ckAsk_keeps (n : Nat) {s0 s : State} (h : Keeps s0 s) (c : ClusterId) (w : Work) (p : BitVec 12) (a b k : Nat) : Keeps s0 (State.ckAsk n s c w p a b k) := by
  induction n generalizing s c w p a b k with
  | zero => exact h
  | succ n ih =>
    unfold State.ckAsk
    try dsimp only
    repeat' (first
      | with_reducible assumption
      | with_reducible apply ih
      | with_reducible apply State.sendRequest_keeps
      | with_reducible apply keeps_ite)

theorem State.ckRead_keeps {s0 s : State} (hk : Keeps s0 s) (c : ClusterId) (w : Work) (peer : BitVec 12) (slot : Nat) (off : Nat) (n : Nat) : Keeps s0 (State.ckRead s c w peer slot off n).2 := by
  unfold State.ckRead
  try dsimp only
  repeat' (first
    | with_reducible assumption
    | with_reducible apply State.forget_keeps
    | with_reducible apply State.ckAsk_keeps
    | with_reducible apply keeps_ite
    | split)
theorem State.ckRead_keepsE {s0 s s9 : State} (hk : Keeps s0 s) {c : ClusterId} {w : Work} {peer : BitVec 12} {slot : Nat} {off : Nat} {n : Nat} {r0 : Option (List Byte)} (eq9 : State.ckRead s c w peer slot off n = (r0, s9)) : Keeps s0 s9 := by
  have k := State.ckRead_keeps hk c w peer slot off n 
  rw [eq9] at k
  exact k

theorem State.restoreStep_keeps {s0 s : State} (hk : Keeps s0 s) (c : ClusterId) (w : Work) (a : Fin 1024) (peer : BitVec 12) (slot : Nat) (d : Desc) : Keeps s0 (State.restoreStep s c w a peer slot d).2 := by
  unfold State.restoreStep
  try dsimp only
  repeat' (first
    | with_reducible assumption
    | with_reducible apply State.saveSpan_keeps
    | refine State.saveSpan_keepsE ?_ (by with_reducible assumption)
    | with_reducible apply State.ckRead_keeps
    | refine State.ckRead_keepsE ?_ (by with_reducible assumption)
    | with_reducible apply keeps_foldl
    | with_reducible apply keeps_ite
    | split)
theorem State.restoreStep_keepsE {s0 s s9 : State} (hk : Keeps s0 s) {c : ClusterId} {w : Work} {a : Fin 1024} {peer : BitVec 12} {slot : Nat} {d : Desc} {r0 : Restored} (eq9 : State.restoreStep s c w a peer slot d = (r0, s9)) : Keeps s0 s9 := by
  have k := State.restoreStep_keeps hk c w a peer slot d 
  rw [eq9] at k
  exact k

theorem State.restoreJob_keeps {s0 s : State} (hk : Keeps s0 s) (j : JobId) (x : Job) : Keeps s0 (State.restoreJob s j x) := by
  unfold State.restoreJob
  try dsimp only
  repeat' (first
    | with_reducible assumption
    | with_reducible apply State.modJob_keeps
    | with_reducible apply State.fresh_keeps
    | refine State.fresh_keepsE ?_ (by with_reducible assumption)
    | with_reducible apply State.moverFails_keeps
    | with_reducible apply State.askMover_keeps
    | with_reducible apply State.ckFails_keeps
    | with_reducible apply State.restoreStep_keeps
    | refine State.restoreStep_keepsE ?_ (by with_reducible assumption)
    | with_reducible apply keeps_ite
    | split)

end Sys2Proof.Machine
end

