-- ==== Sys2Proof/Laws/KeepsLink.lean ====
section
/-! SUPPORT. The shared operations of Machine/Link.lean keep the queue and the invariant. -/
namespace Sys2Proof.Machine

theorem State.train_keeps {s0 s : State} (hk : Keeps s0 s) (p : PortId) (roost : Bool) : Keeps s0 (State.train s p roost) := by
  unfold State.train
  try dsimp only
  repeat' (first
    | with_reducible assumption
    | with_reducible apply State.setPort_keeps
    | with_reducible apply State.setLink_keeps
    | with_reducible apply keeps_foldl
    | with_reducible apply keeps_ite)

theorem State.retrainPort_keeps {s0 s : State} (hk : Keeps s0 s) (p : PortId) : Keeps s0 (State.retrainPort s p) := by
  unfold State.retrainPort
  try dsimp only
  repeat' (first
    | with_reducible assumption
    | with_reducible apply State.modPort_keeps
    | with_reducible apply State.train_keeps
    | with_reducible apply keeps_ite)

theorem State.trainFails_keeps {s0 s : State} (hk : Keeps s0 s) (p : PortId) : Keeps s0 (State.trainFails s p) := by
  unfold State.trainFails
  try dsimp only
  repeat' (first
    | with_reducible assumption
    | with_reducible apply State.modPort_keeps
    | with_reducible apply State.losePort_keeps
    | with_reducible apply keeps_ite)

theorem State.portOff_keeps {s0 s : State} (hk : Keeps s0 s) (p : PortId) : Keeps s0 (State.portOff s p) := by
  unfold State.portOff
  try dsimp only
  repeat' (first
    | with_reducible assumption
    | with_reducible apply State.modPort_keeps
    | with_reducible apply State.bumpEpoch_keeps)

theorem State.sendTables_keeps {s0 s : State} (hk : Keeps s0 s) (p : PortId) : Keeps s0 (State.sendTables s p) := by
  unfold State.sendTables
  try dsimp only
  repeat' (first
    | with_reducible assumption
    | with_reducible apply State.sendFlit_keeps
    | with_reducible apply keeps_foldl
    | intro _ _ _ _ _
    | intro _ _ _ _
    | (intro _ _ _; try dsimp only))

theorem State.drained_keeps {s0 s : State} (hk : Keeps s0 s) (p : PortId) : Keeps s0 (State.drained s p) := by
  unfold State.drained
  try dsimp only
  repeat' (first
    | with_reducible assumption
    | with_reducible apply State.reinject_keeps
    | with_reducible apply State.retrainPort_keeps
    | with_reducible apply State.portOff_keeps
    | with_reducible apply keeps_ite)

theorem State.takeAck_keeps {s0 s : State} (hk : Keeps s0 s) (p : PortId) (ack : BitVec 12) : Keeps s0 (State.takeAck s p ack) := by
  unfold State.takeAck
  try dsimp only
  repeat' (first
    | with_reducible assumption
    | with_reducible apply State.setPort_keeps
    | with_reducible apply State.pump_keeps
    | with_reducible apply State.enterSleep_keeps
    | with_reducible apply State.drained_keeps
    | with_reducible apply keeps_ite)

theorem State.resend_keeps {s0 s : State} (hk : Keeps s0 s) (p : PortId) : Keeps s0 (State.resend s p) := by
  unfold State.resend
  try dsimp only
  repeat' (first
    | with_reducible assumption
    | with_reducible apply State.sendFlit_keeps
    | with_reducible apply keeps_foldl
    | intro _ _ _ _ _
    | intro _ _ _ _
    | (intro _ _ _; try dsimp only))

theorem State.replay_keeps {s0 s : State} (hk : Keeps s0 s) (p : PortId) : Keeps s0 (State.replay s p) := by
  unfold State.replay
  try dsimp only
  repeat' (first
    | with_reducible assumption
    | with_reducible apply State.modPort_keeps
    | with_reducible apply State.retrainPort_keeps
    | with_reducible apply State.resend_keeps
    | with_reducible apply keeps_ite)

theorem State.drainPort_keeps {s0 s : State} (hk : Keeps s0 s) (p : PortId) : Keeps s0 (State.drainPort s p) := by
  unfold State.drainPort
  try dsimp only
  repeat' (first
    | with_reducible assumption
    | with_reducible apply State.setPort_keeps
    | with_reducible apply State.setLink_keeps
    | with_reducible apply State.cutRing_keeps
    | with_reducible apply State.drained_keeps
    | with_reducible apply keeps_ite)

theorem State.nextUpdate_keeps {s0 s : State} (hk : Keeps s0 s)  : Keeps s0 (State.nextUpdate s) := by
  unfold State.nextUpdate
  try dsimp only
  repeat' (first
    | with_reducible assumption
    | with_reducible apply State.modPort_keeps
    | with_reducible apply State.drainPort_keeps
    | with_reducible apply keeps_ite
    | split)

theorem State.activate_keeps {s0 s : State} (hk : Keeps s0 s) (p : PortId) : Keeps s0 (State.activate s p) := by
  unfold State.activate
  try dsimp only
  repeat' (first
    | with_reducible assumption
    | with_reducible apply State.modPort_keeps
    | with_reducible apply State.pump_keeps
    | with_reducible apply State.sendPacket_keeps
    | with_reducible apply State.setLink_keeps
    | with_reducible apply State.cutRing_keeps
    | with_reducible apply State.askTime_keeps
    | with_reducible apply State.nextUpdate_keeps
    | with_reducible apply keeps_ite)

theorem State.sendLink_keeps {s0 s : State} (hk : Keeps s0 s) (p : PortId) (b : FlitBody) : Keeps s0 (State.sendLink s p b) := by
  unfold State.sendLink
  try dsimp only
  repeat' (first
    | with_reducible assumption
    | with_reducible apply State.sendBody_keeps)

theorem State.laneEnd_keeps {s0 s : State} (hk : Keeps s0 s) (p : PortId) (l : Nat) (m : LaneMeasure) : Keeps s0 (State.laneEnd s p l m) := by
  unfold State.laneEnd
  try dsimp only
  repeat' (first
    | with_reducible assumption
    | with_reducible apply State.modPort_keeps
    | with_reducible apply State.sendLink_keeps
    | with_reducible apply keeps_ite)

theorem State.acceptHeld_keeps (n : Nat) {s0 s : State} (h : Keeps s0 s) (p : PortId) : Keeps s0 (State.acceptHeld n s p) := by
  induction n generalizing s p with
  | zero => exact h
  | succ n ih =>
    unfold State.acceptHeld
    try dsimp only
    repeat' (first
      | with_reducible assumption
      | with_reducible apply ih
      | with_reducible apply State.setPort_keeps
      | with_reducible apply State.emit_keeps
      | with_reducible apply keeps_ite
      | split)

theorem State.sendNak_keeps {s0 s : State} (hk : Keeps s0 s) (p : PortId) : Keeps s0 (State.sendNak s p) := by
  unfold State.sendNak
  try dsimp only
  repeat' (first
    | with_reducible assumption
    | with_reducible apply State.setPort_keeps
    | with_reducible apply State.sendLink_keeps
    | with_reducible apply keeps_ite)

theorem State.badFlit_keeps {s0 s : State} (hk : Keeps s0 s) (p : PortId) : Keeps s0 (State.badFlit s p) := by
  unfold State.badFlit
  try dsimp only
  repeat' (first
    | with_reducible assumption
    | with_reducible apply State.logCorrected_keeps
    | with_reducible apply State.sendNak_keeps)

theorem State.takeFlit_keeps {s0 s : State} (hk : Keeps s0 s) (p : PortId) (kept : Bool) (f : Flit) : Keeps s0 (State.takeFlit s p kept f) := by
  unfold State.takeFlit
  try dsimp only
  repeat' (first
    | with_reducible assumption
    | with_reducible apply State.setPort_keeps
    | with_reducible apply State.emit_keeps
    | with_reducible apply State.acceptHeld_keeps
    | with_reducible apply keeps_ite)

theorem State.takeBytes_keeps {s0 s : State} (hk : Keeps s0 s) (p : PortId) (kept : Bool) (l : List Byte) : Keeps s0 (State.takeBytes s p kept l) := by
  unfold State.takeBytes
  try dsimp only
  repeat' (first
    | with_reducible assumption
    | with_reducible apply State.modPort_keeps
    | with_reducible apply State.takeAck_keeps
    | with_reducible apply State.badFlit_keeps
    | with_reducible apply State.takeFlit_keeps
    | with_reducible apply keeps_ite
    | split)

theorem State.disablePort_keeps {s0 s : State} (hk : Keeps s0 s) (p : PortId) : Keeps s0 (State.disablePort s p) := by
  unfold State.disablePort
  try dsimp only
  repeat' (first
    | with_reducible assumption
    | with_reducible apply State.setLink_keeps
    | with_reducible apply State.reinject_keeps
    | with_reducible apply State.portOff_keeps
    | with_reducible apply State.drained_keeps
    | with_reducible apply State.drainPort_keeps
    | with_reducible apply keeps_ite)

end Sys2Proof.Machine
end

