-- ==== Sys2Proof/Laws/KeepsRings.lean ====
section
/-! SUPPORT. The shared operations of Machine/Rings.lean keep the queue and the invariant. -/
namespace Sys2Proof.Machine

theorem State.haltHost_keeps {s0 s : State} (hk : Keeps s0 s) (st : StreamId) : Keeps s0 (State.haltHost s st) := by
  unfold State.haltHost
  try dsimp only
  repeat' (first
    | with_reducible assumption
    | with_reducible apply State.settle_keeps
    | with_reducible apply State.haltStream_keeps
    | with_reducible apply keeps_ite)

theorem State.disableRing_keeps {s0 s : State} (hk : Keeps s0 s) (r : RingId) : Keeps s0 (State.disableRing s r) := by
  unfold State.disableRing
  try dsimp only
  repeat' (first
    | with_reducible assumption
    | with_reducible apply State.setRing_keeps
    | with_reducible apply State.setReg_keeps)

theorem State.ringFailed_keeps {s0 s : State} (hk : Keeps s0 s) (r : RingId) : Keeps s0 (State.ringFailed s r) := by
  unfold State.ringFailed
  try dsimp only
  repeat' (first
    | with_reducible assumption
    | with_reducible apply State.disableRing_keeps
    | with_reducible apply keeps_ite
    | split
    | (apply Keeps.mkA; first | with_reducible assumption))

theorem State.readFailed_keeps {s0 s : State} (hk : Keeps s0 s) (r : HostReadFor) (kind : Nat) : Keeps s0 (State.readFailed s r kind) := by
  unfold State.readFailed
  try dsimp only
  repeat' (first
    | with_reducible assumption
    | with_reducible apply State.setupErr_keeps
    | with_reducible apply State.freezeCluster_keeps
    | with_reducible apply State.hostError_keeps
    | with_reducible apply State.haltHost_keeps
    | with_reducible apply State.ringFailed_keeps
    | with_reducible apply keeps_foldl
    | intro _ _ _ _ _
    | intro _ _ _ _
    | (intro _ _ _; try dsimp only)
    | with_reducible apply keeps_ite
    | split)

theorem State.ringDoorbell_keeps {s0 s : State} (hk : Keeps s0 s) (st : StreamId) (w : DoorbellWord) : Keeps s0 (State.ringDoorbell s st w) := by
  unfold State.ringDoorbell
  try dsimp only
  repeat' (first
    | with_reducible assumption
    | with_reducible apply State.setStream_keeps
    | with_reducible apply State.settle_keeps
    | with_reducible apply State.haltStream_keeps
    | with_reducible apply keeps_ite)

theorem State.polled_keeps {s0 s : State} (hk : Keeps s0 s) (n : Fin 512) (x : Line) : Keeps s0 (State.polled s n x) := by
  unfold State.polled
  try dsimp only
  repeat' (first
    | with_reducible assumption
    | with_reducible apply State.modStream_keeps
    | with_reducible apply State.setLine_keeps
    | with_reducible apply State.ringDoorbell_keeps
    | with_reducible apply keeps_foldl
    | intro _ _ _ _ _
    | intro _ _ _ _
    | (intro _ _ _; try dsimp only))

theorem State.takeSlots_keeps (n : Nat) {s0 s : State} (h : Keeps s0 s) (st : StreamId) (lines : List Line) : Keeps s0 (State.takeSlots n s st lines) := by
  induction n generalizing s st lines with
  | zero => exact h
  | succ n ih =>
    unfold State.takeSlots
    try dsimp only
    repeat' (first
      | with_reducible assumption
      | with_reducible apply ih
      | with_reducible apply State.setStream_keeps
      | with_reducible apply State.settle_keeps
      | with_reducible apply State.badDescriptor_keeps
      | with_reducible apply keeps_ite
      | split)

theorem State.releaseMsix_keeps {s0 s : State} (hk : Keeps s0 s) (f : FunctionId) : Keeps s0 (State.releaseMsix s f) := by
  unfold State.releaseMsix
  try dsimp only
  repeat' (first
    | with_reducible assumption
    | with_reducible apply State.setMsix_keeps
    | with_reducible apply State.emit_keeps
    | with_reducible apply keeps_foldl
    | intro _ _ _ _ _
    | intro _ _ _ _
    | (intro _ _ _; try dsimp only)
    | with_reducible apply keeps_ite)

end Sys2Proof.Machine
end

