-- ==== Sys2Proof/Laws/KeepsRegisters.lean ====
section
/-! SUPPORT. The shared operations of Machine/Registers.lean keep the queue and the invariant. -/
namespace Sys2Proof.Machine

theorem State.aspLoad_keeps {s0 s : State} (hk : Keeps s0 s)  : Keeps s0 (State.aspLoad s) := by
  unfold State.aspLoad
  try dsimp only
  repeat' (first
    | with_reducible assumption
    | with_reducible apply State.setSpace_keeps
    | with_reducible apply State.flushRanges_keeps)

end Sys2Proof.Machine
end

