-- ==== Sys2Proof/Laws/KeepsBar2.lean ====
section
/-! SUPPORT. The shared operations of Machine/Bar2.lean keep the queue and the invariant. -/
namespace Sys2Proof.Machine

theorem State.bar2Do_keeps {s0 s : State} (hk : Keeps s0 s) (f : FunctionId) (off : Nat) (a : VfAccess) : Keeps s0 (State.bar2Do s f off a) := by
  unfold State.bar2Do
  try dsimp only
  repeat' (first
    | with_reducible assumption
    | with_reducible apply State.emit_keeps
    | with_reducible apply State.deviceWrite_keeps
    | with_reducible apply State.freezeVf_keeps
    | with_reducible apply State.unsupported_keeps
    | with_reducible apply State.hostError_keeps
    | with_reducible apply State.deviceRead_keeps
    | refine State.deviceRead_keepsE ?_ (by with_reducible assumption)
    | with_reducible apply keeps_ite
    | split
    | refine keeps_snd (keeps_iteP ?_ ?_) (by with_reducible assumption)
    | (apply Keeps.mkA; first | with_reducible assumption))

theorem State.reissueBar2_keeps {s0 s : State} (hk : Keeps s0 s)  : Keeps s0 (State.reissueBar2 s) := by
  unfold State.reissueBar2
  try dsimp only
  repeat' (first
    | with_reducible assumption
    | with_reducible apply State.access_keeps
    | refine State.access_keepsE ?_ (by with_reducible assumption)
    | with_reducible apply State.bar2Do_keeps
    | with_reducible apply keeps_foldl
    | intro _ _ _ _ _
    | intro _ _ _ _
    | (intro _ _ _; try dsimp only)
    | with_reducible apply keeps_ite
    | split
    | (apply Keeps.mkA; first | with_reducible assumption))

end Sys2Proof.Machine
end

