-- ==== Sys2Proof/Laws/KeepsDump.lean ====
section
/-! SUPPORT. The shared operations of Machine/Dump.lean keep the queue and the invariant. -/
namespace Sys2Proof.Machine

theorem State.writeHeader_keeps {s0 s : State} (hk : Keeps s0 s) (state : Nat) (done : Word) : Keeps s0 (State.writeHeader s state done) := by
  unfold State.writeHeader
  try dsimp only
  repeat' (first
    | with_reducible assumption
    | with_reducible apply State.writeMem_keeps
    | with_reducible apply keeps_ite
    | split)

theorem State.writeSummary_keeps {s0 s : State} (hk : Keeps s0 s) (state : Nat) : Keeps s0 (State.writeSummary s state) := by
  unfold State.writeSummary
  try dsimp only
  repeat' (first
    | with_reducible assumption
    | with_reducible apply State.hostWrite_keeps
    | with_reducible apply keeps_ite
    | split
    | (apply Keeps.mkA; first | with_reducible assumption))

theorem State.failedRecords_keeps {s0 s : State} (hk : Keeps s0 s)  : Keeps s0 (State.failedRecords s) := by
  unfold State.failedRecords
  try dsimp only
  repeat' (first
    | with_reducible assumption
    | with_reducible apply State.putRecord_keeps
    | with_reducible apply keeps_foldl
    | intro _ _ _ _ _
    | intro _ _ _ _
    | (intro _ _ _; try dsimp only)
    | with_reducible apply keeps_ite)

theorem State.enterFailed_keeps {s0 s : State} (hk : Keeps s0 s) (records : Bool) : Keeps s0 (State.enterFailed s records) := by
  unfold State.enterFailed
  try dsimp only
  repeat' (first
    | with_reducible assumption
    | with_reducible apply State.emit_keeps
    | with_reducible apply State.sensorEvent_keeps
    | with_reducible apply State.aerReport_keeps
    | with_reducible apply State.portOff_keeps
    | with_reducible apply State.failedRecords_keeps
    | with_reducible apply keeps_foldl
    | intro _ _ _ _ _
    | intro _ _ _ _
    | (intro _ _ _; try dsimp only)
    | with_reducible apply keeps_ite
    | split
    | (apply Keeps.mkA; first | with_reducible assumption))

theorem State.endDump_keeps {s0 s : State} (hk : Keeps s0 s)  : Keeps s0 (State.endDump s) := by
  unfold State.endDump
  try dsimp only
  repeat' (first
    | with_reducible assumption
    | with_reducible apply State.writeHeader_keeps
    | with_reducible apply State.writeSummary_keeps
    | with_reducible apply State.enterFailed_keeps
    | with_reducible apply keeps_ite
    | split
    | (apply Keeps.mkA; first | with_reducible assumption | with_reducible apply State.writeHeader_keeps))

theorem State.dumpStep_keeps {s0 s : State} (hk : Keeps s0 s)  : Keeps s0 (State.dumpStep s) := by
  unfold State.dumpStep
  try dsimp only
  repeat' (first
    | with_reducible assumption
    | with_reducible apply State.writeSection_keeps
    | with_reducible apply State.endDump_keeps
    | with_reducible apply keeps_ite
    | split
    | (apply Keeps.mkA; first | with_reducible assumption | with_reducible apply State.writeSection_keeps))

theorem State.forceFailed_keeps {s0 s : State} (hk : Keeps s0 s)  : Keeps s0 (State.forceFailed s) := by
  unfold State.forceFailed
  try dsimp only
  repeat' (first
    | with_reducible assumption
    | with_reducible apply State.enterFailed_keeps)

theorem State.holdAll_keeps {s0 s : State} (hk : Keeps s0 s)  : Keeps s0 (State.holdAll s) := by
  unfold State.holdAll
  try dsimp only
  repeat' (first
    | with_reducible assumption
    | with_reducible apply keeps_foldl
    | (refine State.modCluster_keeps ?_ _ _ ?_; rotate_left; intro _ k; first | exact k)
    | intro _ _ _ _ _
    | intro _ _ _ _
    | (intro _ _ _; try dsimp only)
    | with_reducible apply keeps_ite
    | split
    | (apply Keeps.mkA; first | with_reducible assumption | with_reducible apply keeps_foldl | with_reducible apply keeps_ite | split)
    | apply Keeps.mkB
    | dsimp only)

theorem State.logFatal_keeps {s0 s : State} (hk : Keeps s0 s) (code : Nat) (unit : Nat) : Keeps s0 (State.logFatal s code unit) := by
  unfold State.logFatal
  try dsimp only
  repeat' (first
    | with_reducible assumption
    | with_reducible apply State.addLog_keeps)

theorem State.tellCut_keeps {s0 s : State} (hk : Keeps s0 s) (p : PortId) : Keeps s0 (State.tellCut s p) := by
  unfold State.tellCut
  try dsimp only
  repeat' (first
    | with_reducible assumption
    | with_reducible apply State.sendPacket_keeps
    | with_reducible apply State.setCut_keeps
    | with_reducible apply keeps_ite
    | split)

theorem State.deviceFatal_keeps {s0 s : State} (hk : Keeps s0 s) (code : Nat) (unit : Nat) (detail : W32) : Keeps s0 (State.deviceFatal s code unit detail) := by
  unfold State.deviceFatal
  try dsimp only
  repeat' (first
    | with_reducible assumption
    | with_reducible apply State.writeHeader_keeps
    | with_reducible apply State.forceFailed_keeps
    | with_reducible apply State.holdAll_keeps
    | with_reducible apply State.logFatal_keeps
    | with_reducible apply State.tellCut_keeps
    | with_reducible apply keeps_foldl
    | intro _ _ _ _ _
    | intro _ _ _ _
    | (intro _ _ _; try dsimp only)
    | with_reducible apply keeps_ite
    | split
    | (apply Keeps.mkA; first | with_reducible assumption | with_reducible apply State.writeHeader_keeps | with_reducible apply State.forceFailed_keeps | with_reducible apply State.holdAll_keeps | with_reducible apply State.logFatal_keeps | with_reducible apply State.tellCut_keeps | with_reducible apply keeps_foldl))

end Sys2Proof.Machine
end

