-- ==== Sys2Proof/Laws/KeepsHarrierMem.lean ====
section
/-! SUPPORT. The shared operations of Machine/HarrierMem.lean keep the queue and the invariant. -/
namespace Sys2Proof.Machine

theorem State.vaccess_keeps {s0 s : State} (hk : Keeps s0 s) (c : ClusterId) (store : Bool) (va : Word) (n : Nat) : Keeps s0 (State.vaccess s c store va n).2 := by
  unfold State.vaccess
  try dsimp only
  repeat' (first
    | with_reducible assumption
    | with_reducible apply State.access_keeps
    | refine State.access_keepsE ?_ (by with_reducible assumption)
    | with_reducible apply keeps_ite
    | split)
theorem State.vaccess_keepsE {s0 s s9 : State} (hk : Keeps s0 s) {c : ClusterId} {store : Bool} {va : Word} {n : Nat} {r0 : Except ElemStop (Target × Option RangeEntry)} (eq9 : State.vaccess s c store va n = (r0, s9)) : Keeps s0 s9 := by
  have k := State.vaccess_keeps hk c store va n 
  rw [eq9] at k
  exact k

theorem State.vaccessAll_keeps {s0 s : State} (h : Keeps s0 s) (c : ClusterId) (store : Bool) (b : Nat) (l : List Word) : Keeps s0 (State.vaccessAll s c store b l).2 := by
  induction l generalizing s with
  | nil => exact h
  | cons e t ih =>
    unfold State.vaccessAll
    try dsimp only
    repeat' (first
      | with_reducible assumption
      | with_reducible apply ih
      | refine keeps_snd (ih ?_) (by with_reducible assumption)
      | with_reducible apply State.vaccess_keeps
      | refine State.vaccess_keepsE ?_ (by with_reducible assumption)
      | with_reducible apply keeps_ite
      | split)
theorem State.vaccessAll_keepsE {s0 s s9 : State} (h : Keeps s0 s) {c : ClusterId} {store : Bool} {b : Nat} {l : List Word} {r : Except ElemStop (List (Target × Option RangeEntry × Word))} (eq9 : State.vaccessAll s c store b l = (r, s9)) : Keeps s0 s9 :=
  keeps_snd (State.vaccessAll_keeps h _ _ _ _) eq9

theorem State.vcount_keeps {s0 s : State} (hk : Keeps s0 s) (c : ClusterId) (e : Option RangeEntry) (va : Word) (last : Option Nat) : Keeps s0 (State.vcount s c e va last) := by
  unfold State.vcount
  try dsimp only
  repeat' (first
    | with_reducible assumption
    | with_reducible apply State.count_keeps
    | with_reducible apply keeps_ite
    | split)

theorem State.vstoreBytes_keeps {s0 s : State} (hk : Keeps s0 s) (c : ClusterId) (t : Target) (e : Option RangeEntry) (va : Word) (bytes : List Byte) : Keeps s0 (State.vstoreBytes s c t e va bytes) := by
  unfold State.vstoreBytes
  try dsimp only
  repeat' (first
    | with_reducible assumption
    | with_reducible apply State.deviceWrite_keeps
    | with_reducible apply State.mirror_keeps
    | with_reducible apply State.storeWrite_keeps
    | with_reducible apply State.l1Follow_keeps
    | with_reducible apply keeps_ite
    | split)

theorem State.wholeLine_keeps {s0 s : State} (hk : Keeps s0 s) (c : ClusterId) (r : StoreRun) : Keeps s0 (State.wholeLine s c r) := by
  unfold State.wholeLine
  try dsimp only
  repeat' (first
    | with_reducible assumption
    | with_reducible apply State.target_keeps
    | (refine State.modCluster_keeps ?_ _ _ ?_; rotate_left; intro _ k; first | exact k)
    | with_reducible apply keeps_ite
    | split
    | (apply Keeps.mkB; first | with_reducible assumption))

theorem State.vmemLoop_keeps (c : ClusterId) (hh : Harrier) (f : VFields) (m : VMem) (n : Nat) {s0 s : State} (h : Keeps s0 s)
    (i : Nat) (last : StoreRun) (acc : List (List Nat)) : Keeps s0 (State.vmemLoop c hh f m n i last s acc).2.2 := by
  induction n generalizing s i last acc with
  | zero => exact h
  | succ n ih =>
    unfold State.vmemLoop
    try dsimp only
    repeat' (first
      | with_reducible assumption
      | refine ih (keeps_foldlM (g := Prod.fst) ?_ ?_) _ _ _
      | with_reducible apply ih
      | with_reducible apply keeps_foldl
      | with_reducible apply State.l2Read_keeps
      | with_reducible apply State.vaccessAll_keeps
      | refine State.vaccessAll_keepsE ?_ (by with_reducible assumption)
      | with_reducible apply State.vcount_keeps
      | with_reducible apply State.vstoreBytes_keeps
      | with_reducible apply State.wholeLine_keeps
      | intro _ _ _ _ _
      | intro _ _ _ _
      | (intro _ _ _; try dsimp only)
      | with_reducible apply keeps_ite
      | split)

theorem State.vstop_keeps {s0 s : State} (hk : Keeps s0 s) (c : ClusterId) (pc : Word) (f : VFields) (m : VMem) (e : Nat) (why : ElemStop) : Keeps s0 (State.vstop s c pc f m e why) := by
  unfold State.vstop
  try dsimp only
  repeat' (first
    | with_reducible assumption
    | with_reducible apply State.freezeCluster_keeps
    | with_reducible apply State.fencedFor_keeps
    | with_reducible apply State.logConsumed_keeps
    | with_reducible apply State.pushReport_keeps
    | (refine State.modCluster_keeps ?_ _ _ ?_; rotate_left; intro _ k; first | exact k)
    | with_reducible apply keeps_ite
    | split)

theorem State.vmem_keeps {s0 s : State} (hk : Keeps s0 s) (c : ClusterId) (func : Nat) (f : VFields) (bad : Bool) (form : State → VMem) : Keeps s0 (State.vmem s c func f bad form) := by
  unfold State.vmem
  try dsimp only
  repeat' (first
    | with_reducible assumption
    | with_reducible apply State.vissue_keeps
    | with_reducible apply State.vmemLoop_keeps
    | with_reducible apply State.vstop_keeps
    | (refine State.modCluster_keeps ?_ _ _ ?_; rotate_left; intro _ k; first | exact k)
    | intro _ _ _ _ _
    | intro _ _ _ _
    | (intro _ _ _; try dsimp only)
    | with_reducible apply keeps_ite
    | split)

theorem State.vunit_keeps {s0 s : State} (hk : Keeps s0 s) (c : ClusterId) (func : Nat) (f : VFields) (store : Bool) : Keeps s0 (State.vunit s c func f store) := by
  unfold State.vunit
  try dsimp only
  repeat' (first
    | with_reducible assumption
    | with_reducible apply State.vmem_keeps)

theorem State.vstrided_keeps {s0 s : State} (hk : Keeps s0 s) (c : ClusterId) (func : Nat) (f : VFields) (store : Bool) : Keeps s0 (State.vstrided s c func f store) := by
  unfold State.vstrided
  try dsimp only
  repeat' (first
    | with_reducible assumption
    | with_reducible apply State.vmem_keeps)

theorem State.vindexed_keeps {s0 s : State} (hk : Keeps s0 s) (c : ClusterId) (func : Nat) (f : VFields) (store : Bool) : Keeps s0 (State.vindexed s c func f store) := by
  unfold State.vindexed
  try dsimp only
  repeat' (first
    | with_reducible assumption
    | with_reducible apply State.vmem_keeps)

theorem State.vsegment_keeps {s0 s : State} (hk : Keeps s0 s) (c : ClusterId) (func : Nat) (f : VFields) (store : Bool) : Keeps s0 (State.vsegment s c func f store) := by
  unfold State.vsegment
  try dsimp only
  repeat' (first
    | with_reducible assumption
    | with_reducible apply State.vmem_keeps)

end Sys2Proof.Machine
end

