-- ==== Sys2Proof/Laws/KeepsRanges.lean ====
section
/-! SUPPORT. The shared operations of Machine/Ranges.lean keep the queue and the invariant. -/
namespace Sys2Proof.Machine

theorem State.drainSpace_keeps {s0 s : State} (hk : Keeps s0 s) (a : Fin 1024) : Keeps s0 (State.drainSpace s a) := by
  unfold State.drainSpace
  try dsimp only
  repeat' (first
    | with_reducible assumption
    | with_reducible apply State.drainStores_keeps
    | with_reducible apply keeps_foldl
    | intro _ _ _ _ _
    | intro _ _ _ _
    | (intro _ _ _; try dsimp only)
    | with_reducible apply keeps_ite)

theorem State.dropHostLines_keeps {s0 s : State} (hk : Keeps s0 s) (f : Nat) (iova : Nat) (len : Nat) : Keeps s0 (State.dropHostLines s f iova len) := by
  unfold State.dropHostLines
  try dsimp only
  repeat' (first
    | with_reducible assumption
    | with_reducible apply State.withL2_keeps)

theorem State.dropDeviceLines_keeps {s0 s : State} (hk : Keeps s0 s) (pa : Nat) (len : Nat) : Keeps s0 (State.dropDeviceLines s pa len) := by
  unfold State.dropDeviceLines
  try dsimp only
  repeat' (first
    | with_reducible assumption
    | with_reducible apply State.withL2_keeps
    | with_reducible apply keeps_foldl
    | intro _ _ _ _ _
    | intro _ _ _ _
    | (intro _ _ _; try dsimp only)
    | with_reducible apply keeps_ite
    | split
    | refine State.withMem_keeps ?_ _ (keeps_writeBytes ?_)
    | refine State.withMem_keeps ?_ _ (keeps_clear ?_)
    | refine State.withMem_keeps ?_ _ (keeps_write ?_)
    | (apply Keeps.mkA; first | with_reducible assumption))

theorem State.splitEntry_keeps {s0 s : State} (hk : Keeps s0 s) (a : Fin 1024) (e : RangeEntry) (va : Nat) (len : Nat) (state : BitVec 2) : Keeps s0 (State.splitEntry s a e va len state) := by
  unfold State.splitEntry
  try dsimp only
  repeat' (first
    | with_reducible assumption
    | with_reducible apply State.setEntries_keeps)

theorem State.tableOp_keeps {s0 s : State} (hk : Keeps s0 s) (st : StreamId) (idx : W32) (op : Nat) (span : Desc → Option (Nat × Nat)) (f : Fin 1024 → Desc → State → State) (hf : ∀ (x0 : Fin 1024) (x1 : Desc) (x2 : State), Keeps s0 x2 → Keeps s0 (f x0 x1 x2)) : Keeps s0 (State.tableOp s st idx op span f) := by
  unfold State.tableOp
  try dsimp only
  repeat' (first
    | with_reducible assumption
    | with_reducible apply State.opAdd_keeps
    | with_reducible apply State.opEnd_keeps
    | with_reducible apply State.continuing_keeps
    | with_reducible apply State.beginChecked_keeps
    | with_reducible apply hf
    | intro _ _ _ _ _
    | intro _ _ _ _
    | (intro _ _ _; try dsimp only)
    | with_reducible apply keeps_ite)

theorem State.beginUpdate_keeps {s0 s : State} (hk : Keeps s0 s) (st : StreamId) (idx : W32) (op : Nat) (f : Fin 1024 → Desc → RangeEntry → State → State) (hf : ∀ (x0 : Fin 1024) (x1 : Desc) (x2 : RangeEntry) (x3 : State), Keeps s0 x3 → Keeps s0 (f x0 x1 x2 x3)) : Keeps s0 (State.beginUpdate s st idx op f) := by
  unfold State.beginUpdate
  try dsimp only
  repeat' (first
    | with_reducible assumption
    | with_reducible apply State.tableOp_keeps
    | with_reducible apply hf
    | intro _ _ _ _ _
    | (intro _ _ _ _; try dsimp only)
    | with_reducible apply keeps_ite)

theorem State.opRuns_keeps {s0 s : State} (hk : Keeps s0 s) (a : Fin 1024) (st : StreamId) (idx : W32) (v : Word) : Keeps s0 (State.opRuns s a st idx v) := by
  unfold State.opRuns
  try dsimp only
  repeat' (first
    | with_reducible assumption
    | with_reducible apply State.modDesc_keeps
    | with_reducible apply State.opHold_keeps)

theorem State.copyFails_keeps {s0 s : State} (hk : Keeps s0 s) (st : StreamId) (idx : W32) (g : MGot) : Keeps s0 (State.copyFails s st idx g) := by
  unfold State.copyFails
  try dsimp only
  repeat' (first
    | with_reducible assumption
    | with_reducible apply State.modDesc_keeps
    | with_reducible apply State.jobStops_keeps)

theorem State.copyPoison_keeps {s0 s : State} (hk : Keeps s0 s) (src : Nat) (dst : Nat) (n : Nat) : Keeps s0 (State.copyPoison s src dst n) := by
  unfold State.copyPoison
  try dsimp only
  repeat' (first
    | with_reducible assumption
    | with_reducible apply State.poisonLine_keeps
    | with_reducible apply keeps_foldl
    | intro _ _ _ _ _
    | intro _ _ _ _
    | (intro _ _ _; try dsimp only)
    | with_reducible apply keeps_ite)

theorem State.migrateRead_keeps {s0 s : State} (hk : Keeps s0 s) (a : Fin 1024) (w : Work) (va : Nat) (e : RangeEntry) (src : Target) (passes : Bool) : Keeps s0 (State.migrateRead s a w va e src passes).2 := by
  unfold State.migrateRead
  try dsimp only
  repeat' (first
    | with_reducible assumption
    | with_reducible apply State.moverReadAt_keeps
    | refine State.moverReadAt_keepsE ?_ (by with_reducible assumption)
    | with_reducible apply keeps_ite
    | split)
theorem State.migrateRead_keepsE {s0 s s9 : State} (hk : Keeps s0 s) {a : Fin 1024} {w : Work} {va : Nat} {e : RangeEntry} {src : Target} {passes : Bool} {r0 : MGot} (eq9 : State.migrateRead s a w va e src passes = (r0, s9)) : Keeps s0 s9 := by
  have k := State.migrateRead_keeps hk a w va e src passes 
  rw [eq9] at k
  exact k

theorem State.migrateWrite_keeps {s0 s : State} (hk : Keeps s0 s) (a : Fin 1024) (w : Work) (va : Nat) (e : RangeEntry) (dst : Target) (b : List Byte) : Keeps s0 (State.migrateWrite s a w va e dst b).2 := by
  unfold State.migrateWrite
  try dsimp only
  repeat' (first
    | with_reducible assumption
    | with_reducible apply State.moverWriteAt_keeps
    | refine State.moverWriteAt_keepsE ?_ (by with_reducible assumption)
    | with_reducible apply State.peerPut_keeps
    | refine State.peerPut_keepsE ?_ (by with_reducible assumption)
    | with_reducible apply keeps_ite
    | split)
theorem State.migrateWrite_keepsE {s0 s s9 : State} (hk : Keeps s0 s) {a : Fin 1024} {w : Work} {va : Nat} {e : RangeEntry} {dst : Target} {b : List Byte} {r0 : Option MGot} (eq9 : State.migrateWrite s a w va e dst b = (r0, s9)) : Keeps s0 s9 := by
  have k := State.migrateWrite_keeps hk a w va e dst b 
  rw [eq9] at k
  exact k

theorem State.migrateStep_keeps {s0 s : State} (hk : Keeps s0 s) (st : StreamId) (d : Desc) : Keeps s0 (State.migrateStep s st d) := by
  unfold State.migrateStep
  try dsimp only
  repeat' (first
    | with_reducible assumption
    | with_reducible apply State.modDesc_keeps
    | with_reducible apply State.mirror_keeps
    | with_reducible apply State.dropAnswers_keeps
    | with_reducible apply State.askReads_keeps
    | with_reducible apply State.copyFails_keeps
    | with_reducible apply State.copyPoison_keeps
    | with_reducible apply State.migrateRead_keeps
    | refine State.migrateRead_keepsE ?_ (by with_reducible assumption)
    | with_reducible apply State.migrateWrite_keeps
    | refine State.migrateWrite_keepsE ?_ (by with_reducible assumption)
    | with_reducible apply keeps_foldl
    | intro _ _ _ _ _
    | intro _ _ _ _
    | (intro _ _ _; try dsimp only)
    | with_reducible apply keeps_ite
    | split)

end Sys2Proof.Machine
end

