-- ==== Sys2Proof/Laws/KeepsSetupWrite.lean ====
section
/-! SUPPORT. The shared operations of Machine/SetupWrite.lean keep the queue and the invariant. -/
namespace Sys2Proof.Machine

theorem State.fenceFills_keeps {s0 s : State} (hk : Keeps s0 s) (kind : Nat) (number : Nat) : Keeps s0 (State.fenceFills s kind number) := by
  unfold State.fenceFills
  try dsimp only
  repeat' (first
    | with_reducible assumption
    | with_reducible apply State.fencedFor_keeps
    | with_reducible apply State.target_keeps
    | with_reducible apply keeps_foldl
    | (refine State.modCluster_keeps ?_ _ _ ?_; rotate_left; intro _ k; first | exact k)
    | intro _ _ _ _ _
    | intro _ _ _ _
    | (intro _ _ _; try dsimp only)
    | with_reducible apply keeps_ite)

theorem State.resetBegins_keeps {s0 s : State} (hk : Keeps s0 s) (kind : Nat) (number : Nat) : Keeps s0 (State.resetBegins s kind number) := by
  unfold State.resetBegins
  try dsimp only
  repeat' (first
    | with_reducible assumption
    | with_reducible apply State.modPort_keeps
    | with_reducible apply State.withL2_keeps
    | with_reducible apply State.setLink_keeps
    | with_reducible apply State.reinject_keeps
    | with_reducible apply State.fenceFills_keeps
    | with_reducible apply keeps_ite)

theorem State.resetUnit_keeps {s0 s : State} (hk : Keeps s0 s) (kind : Nat) (number : Nat) : Keeps s0 (State.resetUnit s kind number) := by
  unfold State.resetUnit
  try dsimp only
  repeat' (first
    | with_reducible assumption
    | with_reducible apply State.startReset_keeps
    | with_reducible apply State.resetBegins_keeps
    | with_reducible apply keeps_ite)

theorem State.resetEnds_keeps {s0 s : State} (hk : Keeps s0 s) (kind : Nat) (number : Nat) : Keeps s0 (State.resetEnds s kind number) := by
  unfold State.resetEnds
  try dsimp only
  repeat' (first
    | with_reducible assumption
    | with_reducible apply State.cleanL1_keeps
    | with_reducible apply State.drainStores_keeps
    | with_reducible apply State.train_keeps
    | (refine State.modCluster_keeps ?_ _ _ ?_; rotate_left; intro _ k; first | exact k | rfl)
    | with_reducible apply keeps_ite)

theorem State.writeWayOn_keeps {s0 s : State} (hk : Keeps s0 s) (q : QuadId) (v : W32) : Keeps s0 (State.writeWayOn s q v) := by
  unfold State.writeWayOn
  try dsimp only
  repeat' (first
    | with_reducible assumption
    | with_reducible apply State.setQuad_keeps
    | with_reducible apply State.setReg_keeps)

theorem State.writeQuadOff_keeps {s0 s : State} (hk : Keeps s0 s) (v : W32) : Keeps s0 (State.writeQuadOff s v) := by
  unfold State.writeQuadOff
  try dsimp only
  repeat' (first
    | with_reducible assumption
    | with_reducible apply State.setQuad_keeps
    | with_reducible apply State.setReg_keeps
    | with_reducible apply State.bumpEpoch_keeps
    | with_reducible apply keeps_foldl
    | intro _ _ _ _ _
    | intro _ _ _ _
    | (intro _ _ _; try dsimp only)
    | with_reducible apply keeps_ite)

theorem State.storeFields_keeps {s0 s : State} (hk : Keeps s0 s) (off : Nat) (v : W32) : Keeps s0 (State.storeFields s off v) := by
  unfold State.storeFields
  try dsimp only
  repeat' (first
    | with_reducible assumption
    | with_reducible apply State.setReg_keeps
    | with_reducible apply keeps_ite
    | split)

theorem State.writeCfg_keeps {s0 s : State} (hk : Keeps s0 s) (r : RingId) (v : W32) : Keeps s0 (State.writeCfg s r v) := by
  unfold State.writeCfg
  try dsimp only
  repeat' (first
    | with_reducible assumption
    | with_reducible apply State.setRing_keeps
    | with_reducible apply State.setReg_keeps
    | with_reducible apply State.disableRing_keeps
    | with_reducible apply keeps_ite)

theorem State.writeGroup_keeps {s0 s : State} (hk : Keeps s0 s) (off : Nat) (v : W32) : Keeps s0 (State.writeGroup s off v) := by
  unfold State.writeGroup
  try dsimp only
  repeat' (first
    | with_reducible assumption
    | with_reducible apply keeps_ite
    | split
    | (apply Keeps.mkA; first | with_reducible assumption))

theorem State.writeEvlCtl_keeps {s0 s : State} (hk : Keeps s0 s) (p : PortId) (v : W32) : Keeps s0 (State.writeEvlCtl s p v) := by
  unfold State.writeEvlCtl
  try dsimp only
  repeat' (first
    | with_reducible assumption
    | with_reducible apply State.retrainPort_keeps
    | with_reducible apply State.disablePort_keeps
    | with_reducible apply State.storeFields_keeps
    | with_reducible apply keeps_ite)

theorem State.perform_keeps {s0 s : State} (hk : Keeps s0 s) (off : Nat) (v : W32) : Keeps s0 (State.perform s off v) := by
  unfold State.perform
  try dsimp only
  repeat' (first
    | with_reducible assumption
    | with_reducible apply State.unfreeze_keeps
    | with_reducible apply State.requestAbort_keeps
    | with_reducible apply State.drainPort_keeps
    | with_reducible apply State.aspLoad_keeps
    | with_reducible apply State.resetUnit_keeps
    | with_reducible apply State.writeWayOn_keeps
    | with_reducible apply State.writeQuadOff_keeps
    | with_reducible apply State.storeFields_keeps
    | with_reducible apply State.writeCfg_keeps
    | with_reducible apply State.writeGroup_keeps
    | with_reducible apply State.writeEvlCtl_keeps
    | with_reducible apply keeps_ite
    | split
    | (apply Keeps.mkA; first | with_reducible assumption))

theorem State.msixHalf_keeps {s0 s : State} (hk : Keeps s0 s) (f : FunctionId) (o : Nat) (v : W32) : Keeps s0 (State.msixHalf s f o v) := by
  unfold State.msixHalf
  try dsimp only
  repeat' (first
    | with_reducible assumption
    | with_reducible apply State.setMsix_keeps
    | with_reducible apply State.sendMsix_keeps
    | with_reducible apply keeps_ite)

theorem State.msixWrite_keeps {s0 s : State} (hk : Keeps s0 s) (f : FunctionId) (o : Nat) (size : Nat) (data : Word) : Keeps s0 (State.msixWrite s f o size data) := by
  unfold State.msixWrite
  try dsimp only
  repeat' (first
    | with_reducible assumption
    | with_reducible apply State.msixHalf_keeps
    | with_reducible apply keeps_ite)

theorem State.setupWrite_keeps {s0 s : State} (hk : Keeps s0 s) (off : Nat) (size : Nat) (data : Word) : Keeps s0 (State.setupWrite s off size data) := by
  unfold State.setupWrite
  try dsimp only
  repeat' (first
    | with_reducible assumption
    | with_reducible apply State.setupErr_keeps
    | with_reducible apply State.unsupported_keeps
    | with_reducible apply State.storeFields_keeps
    | with_reducible apply State.perform_keeps
    | with_reducible apply State.msixWrite_keeps
    | with_reducible apply keeps_ite
    | split)

theorem State.vfWrite_keeps {s0 s : State} (hk : Keeps s0 s) (f : FunctionId) (off : Nat) (size : Nat) (data : Word) : Keeps s0 (State.vfWrite s f off size data) := by
  unfold State.vfWrite
  try dsimp only
  repeat' (first
    | with_reducible assumption
    | with_reducible apply State.setupErr_keeps
    | with_reducible apply State.freezeVf_keeps
    | with_reducible apply State.unsupported_keeps
    | with_reducible apply State.msixWrite_keeps
    | with_reducible apply keeps_ite)

theorem State.streamLoad_keeps {s0 s : State} (hk : Keeps s0 s) (f : FunctionId) (off : Nat) (data : W32) (reply : Reply Line) : Keeps s0 (State.streamLoad s f off data reply) := by
  unfold State.streamLoad
  try dsimp only
  repeat' (first
    | with_reducible assumption
    | with_reducible apply State.setStream_keeps
    | with_reducible apply State.emit_keeps
    | with_reducible apply State.setupErr_keeps
    | with_reducible apply State.settle_keeps
    | with_reducible apply State.hostError_keeps
    | with_reducible apply State.hostRead_keeps
    | refine State.hostRead_keepsE ?_ (by with_reducible assumption)
    | with_reducible apply keeps_ite
    | split)

theorem State.loadWrite_keeps {s0 s : State} (hk : Keeps s0 s) (f : FunctionId) (off : Nat) (data : W32) (reply : Reply Line) : Keeps s0 (State.loadWrite s f off data reply) := by
  unfold State.loadWrite
  try dsimp only
  repeat' (first
    | with_reducible assumption
    | with_reducible apply State.setupErr_keeps
    | with_reducible apply State.streamLoad_keeps
    | with_reducible apply keeps_ite)

end Sys2Proof.Machine
end

