-- ==== Sys2Proof/Laws/KeepsIntegrity.lean ====
section
/-! SUPPORT. The shared operations of Machine/Integrity.lean keep the queue and the invariant. -/
namespace Sys2Proof.Machine

theorem State.dropWrite_keeps {s0 s : State} (hk : Keeps s0 s) (r : PeerReq) : Keeps s0 (State.dropWrite s r) := by
  unfold State.dropWrite
  try dsimp only
  repeat' (first
    | with_reducible assumption
    | with_reducible apply State.modPort_keeps)

theorem State.talonDump_keeps {s0 s : State} (hk : Keeps s0 s) (m : MasterKind) (n : Nat) : Keeps s0 (State.talonDump s m n) := by
  unfold State.talonDump
  try dsimp only
  repeat' (first
    | with_reducible assumption
    | with_reducible apply State.writeSection_keeps
    | with_reducible apply State.dumpCluster_keeps
    | with_reducible apply keeps_ite
    | split
    | (apply Keeps.mkA; first | with_reducible assumption))

theorem State.logRetired_keeps {s0 s : State} (hk : Keeps s0 s) (c : ClusterId) : Keeps s0 (State.logRetired s c) := by
  unfold State.logRetired
  try dsimp only
  repeat' (first
    | with_reducible assumption
    | with_reducible apply State.addLog_keeps)

theorem State.retireDump_keeps {s0 s : State} (hk : Keeps s0 s) (c : ClusterId) : Keeps s0 (State.retireDump s c) := by
  unfold State.retireDump
  try dsimp only
  repeat' (first
    | with_reducible assumption
    | with_reducible apply State.dumpCluster_keeps
    | with_reducible apply State.markDumped_keeps
    | with_reducible apply State.holdCluster_keeps
    | with_reducible apply keeps_ite)

theorem State.logLost_keeps {s0 s : State} (hk : Keeps s0 s) (source : Nat) (unit : Nat) (reason : Byte) : Keeps s0 (State.logLost s source unit reason) := by
  unfold State.logLost
  try dsimp only
  repeat' (first
    | with_reducible assumption
    | with_reducible apply State.addLog_keeps)

end Sys2Proof.Machine
end

