-- ==== Sys2Proof/Laws/KeepsResets.lean ====
section
/-! SUPPORT. The shared operations of Machine/Resets.lean keep the queue and the invariant. -/
namespace Sys2Proof.Machine

theorem State.powerOff_keeps {s0 s : State} (hk : Keeps s0 s)  : Keeps s0 (State.powerOff s) := by
  unfold State.powerOff
  try dsimp only
  repeat' (first
    | with_reducible assumption
    | exact Keeps.mkR hk (fun _ => rfl) (fun _ _ => rfl))

theorem State.resetBase_keeps {s0 s : State} (hk : Keeps s0 s)  : Keeps s0 (State.resetBase s) := by
  unfold State.resetBase
  try dsimp only
  repeat' (first
    | with_reducible assumption
    | with_reducible apply State.powerOff_keeps
    | exact Keeps.mkR hk (fun _ => rfl) (fun _ _ => rfl))

theorem State.activateStaged_keeps {s0 s : State} (hk : Keeps s0 s)  : Keeps s0 (State.activateStaged s) := by
  unfold State.activateStaged
  try dsimp only
  repeat' (first
    | with_reducible assumption
    | with_reducible apply keeps_ite
    | split
    | (apply Keeps.mkA; first | with_reducible assumption))

theorem State.bootFirst_keeps {s0 s : State} (hk : Keeps s0 s) (b : BootEnv) : Keeps s0 (State.bootFirst s b) := by
  unfold State.bootFirst
  try dsimp only
  repeat' (first
    | with_reducible assumption
    | with_reducible apply State.setReg_keeps
    | with_reducible apply keeps_ite
    | split
    | (apply Keeps.mkA; first | with_reducible assumption))

theorem State.bootRest_keeps {s0 s : State} (hk : Keeps s0 s) (b : BootEnv) (img : FlashImage) (slot : Bool) : Keeps s0 (State.bootRest s b img slot) := by
  unfold State.bootRest
  try dsimp only
  repeat' (first
    | with_reducible assumption
    | with_reducible apply State.modPort_keeps
    | with_reducible apply State.train_keeps
    | with_reducible apply State.logLost_keeps
    | with_reducible apply keeps_foldl
    | with_reducible apply keeps_forBelow
    | (refine State.modCluster_keeps ?_ _ _ ?_; rotate_left; intro _ k; first | exact k)
    | intro _ _ _ _ _
    | intro _ _ _ _
    | (intro _ _ _; try dsimp only)
    | with_reducible apply keeps_ite
    | split
    | (apply Keeps.mkB; first | with_reducible assumption))

theorem State.boot_keeps {s0 s : State} (hk : Keeps s0 s) (b : BootEnv) : Keeps s0 (State.boot s b) := by
  unfold State.boot
  try dsimp only
  repeat' (first
    | with_reducible assumption
    | with_reducible apply State.activateStaged_keeps
    | with_reducible apply State.bootFirst_keeps
    | with_reducible apply State.bootRest_keeps
    | with_reducible apply keeps_ite
    | split
    | (apply Keeps.mkA; first | with_reducible assumption | with_reducible apply State.activateStaged_keeps | with_reducible apply State.bootFirst_keeps))

theorem State.resetConfig_keeps {s0 s : State} (hk : Keeps s0 s)  : Keeps s0 (State.resetConfig s) := by
  unfold State.resetConfig
  try dsimp only
  repeat' (first
    | with_reducible assumption
    | with_reducible apply keeps_ite
    | split
    | (apply Keeps.mkA; first | with_reducible assumption))

theorem State.releaseTalon_keeps {s0 s : State} (hk : Keeps s0 s) (p : Frozen → Bool) : Keeps s0 (State.releaseTalon s p) := by
  unfold State.releaseTalon
  try dsimp only
  repeat' (first
    | with_reducible assumption
    | with_reducible apply State.unfreeze_keeps
    | with_reducible apply keeps_foldl
    | intro _ _ _ _ _
    | intro _ _ _ _
    | (intro _ _ _; try dsimp only)
    | with_reducible apply keeps_ite
    | split
    | (apply Keeps.mkA; first | with_reducible assumption))

theorem State.resetRing_keeps {s0 s : State} (hk : Keeps s0 s) (r : RingId) : Keeps s0 (State.resetRing s r) := by
  unfold State.resetRing
  try dsimp only
  repeat' (first
    | with_reducible assumption
    | with_reducible apply State.setRing_keeps
    | with_reducible apply State.disableRing_keeps
    | with_reducible apply keeps_ite)

theorem State.disableSpace_keeps {s0 s : State} (hk : Keeps s0 s) (a : Fin 1024) : Keeps s0 (State.disableSpace s a) := by
  unfold State.disableSpace
  try dsimp only
  repeat' (first
    | with_reducible assumption
    | with_reducible apply State.setSpace_keeps
    | with_reducible apply State.flushRanges_keeps)

theorem State.endTableWork_keeps {s0 s : State} (hk : Keeps s0 s) (st : StreamId) : Keeps s0 (State.endTableWork s st) := by
  unfold State.endTableWork
  try dsimp only
  repeat' (first
    | with_reducible assumption
    | with_reducible apply State.setSpace_keeps
    | with_reducible apply State.setEntries_keeps
    | with_reducible apply State.revertDesc_keeps
    | with_reducible apply keeps_foldl
    | intro _ _ _ _ _
    | intro _ _ _ _
    | (intro _ _ _; try dsimp only)
    | with_reducible apply keeps_ite)

theorem State.hostReset_keeps {s0 s : State} (hk : Keeps s0 s)  : Keeps s0 (State.hostReset s) := by
  unfold State.hostReset
  try dsimp only
  repeat' (first
    | with_reducible assumption
    | with_reducible apply State.endTableWork_keeps
    | with_reducible apply State.releaseCluster_keeps
    | with_reducible apply State.resetConfig_keeps
    | with_reducible apply State.releaseTalon_keeps
    | with_reducible apply State.resetRing_keeps
    | with_reducible apply State.disableSpace_keeps
    | with_reducible apply keeps_foldl
    | intro _ _ _ _ _
    | intro _ _ _ _
    | (intro _ _ _; try dsimp only)
    | with_reducible apply keeps_ite
    | split
    | (apply Keeps.mkA; first | with_reducible assumption | with_reducible apply State.endTableWork_keeps | with_reducible apply State.releaseCluster_keeps | with_reducible apply State.resetConfig_keeps | with_reducible apply State.releaseTalon_keeps | with_reducible apply State.resetRing_keeps | with_reducible apply State.disableSpace_keeps | with_reducible apply keeps_foldl))

theorem State.resetVfConfig_keeps {s0 s : State} (hk : Keeps s0 s) (f : FunctionId) : Keeps s0 (State.resetVfConfig s f) := by
  unfold State.resetVfConfig
  try dsimp only
  repeat' (first
    | with_reducible assumption
    | with_reducible apply keeps_ite
    | split
    | (apply Keeps.mkA; first | with_reducible assumption))

theorem State.resetVf_keeps {s0 s : State} (hk : Keeps s0 s) (f : FunctionId) : Keeps s0 (State.resetVf s f) := by
  unfold State.resetVf
  try dsimp only
  repeat' (first
    | with_reducible assumption
    | with_reducible apply State.setStream_keeps
    | with_reducible apply State.startReset_keeps
    | with_reducible apply State.requestAbort_keeps
    | with_reducible apply State.releaseTalon_keeps
    | with_reducible apply State.resetRing_keeps
    | with_reducible apply State.disableSpace_keeps
    | with_reducible apply State.resetVfConfig_keeps
    | with_reducible apply State.endTableWork_keeps
    | with_reducible apply keeps_foldl
    | intro _ _ _ _ _
    | intro _ _ _ _
    | (intro _ _ _; try dsimp only)
    | with_reducible apply keeps_ite)

end Sys2Proof.Machine
end

