-- ==== Sys2Proof/Laws/KeepsManagement.lean ====
section
/-! SUPPORT. The shared operations of Machine/Management.lean keep the queue and the invariant. -/
namespace Sys2Proof.Machine

theorem State.reply_keeps {s0 s : State} (hk : Keeps s0 s) (code : Byte) (bytes : List Byte) : Keeps s0 (State.reply s code bytes) := by
  unfold State.reply
  try dsimp only
  repeat' (first
    | with_reducible assumption
    | with_reducible apply State.emit_keeps)

theorem State.setStaged_keeps {s0 s : State} (hk : Keeps s0 s) (component : BitVec 16) (x : Option Staged) : Keeps s0 (State.setStaged s component x) := by
  unfold State.setStaged
  try dsimp only
  repeat' (first
    | with_reducible assumption
    | with_reducible apply keeps_ite
    | split
    | (apply Keeps.mkA; first | with_reducible assumption))

end Sys2Proof.Machine
end

