-- ==== Sys2Proof/Laws/KeepsReads.lean ====
section
/-! SUPPORT. The shared operations of Machine/Reads.lean keep the queue and the invariant. -/
namespace Sys2Proof.Machine

theorem State.readReply_keeps {s0 s : State} (hk : Keeps s0 s) (off : Nat) : Keeps s0 (State.readReply s off) := by
  unfold State.readReply
  try dsimp only
  repeat' (first
    | with_reducible assumption
    | with_reducible apply State.emit_keeps)

end Sys2Proof.Machine
end

