-- ==== Sys2Proof/Laws/KeepsTick.lean ====
section
/-! SUPPORT. The shared operations of Machine/Tick.lean keep the queue and the invariant. -/
namespace Sys2Proof.Machine

theorem State.tickTime_keeps {s0 s : State} (hk : Keeps s0 s)  : Keeps s0 (State.tickTime s) := by
  unfold State.tickTime
  try dsimp only
  repeat' (first
    | with_reducible assumption
    | with_reducible apply keeps_ite
    | split
    | (apply Keeps.mkA; first | with_reducible assumption))

theorem State.chargeBudgets_keeps {s0 s : State} (hk : Keeps s0 s)  : Keeps s0 (State.chargeBudgets s) := by
  unfold State.chargeBudgets
  try dsimp only
  repeat' (first
    | with_reducible assumption
    | with_reducible apply State.modStream_keeps
    | with_reducible apply keeps_foldl
    | intro _ _ _ _ _
    | intro _ _ _ _
    | (intro _ _ _; try dsimp only)
    | with_reducible apply keeps_ite
    | split)

theorem State.drainTick_keeps {s0 s : State} (hk : Keeps s0 s)  : Keeps s0 (State.drainTick s) := by
  unfold State.drainTick
  try dsimp only
  repeat' (first
    | with_reducible assumption
    | with_reducible apply State.drainN_keeps
    | with_reducible apply keeps_foldl
    | intro _ _ _ _ _
    | intro _ _ _ _
    | (intro _ _ _; try dsimp only)
    | with_reducible apply keeps_ite)

theorem State.pollTick_keeps {s0 s : State} (hk : Keeps s0 s)  : Keeps s0 (State.pollTick s) := by
  unfold State.pollTick
  try dsimp only
  repeat' (first
    | with_reducible assumption
    | with_reducible apply State.askLine_keeps
    | with_reducible apply keeps_foldl
    | intro _ _ _ _ _
    | intro _ _ _ _
    | (intro _ _ _; try dsimp only)
    | with_reducible apply keeps_ite)

theorem tickOnce_keeps {s0 s : State} (hk : Keeps s0 s)  : Keeps s0 (tickOnce s) := by
  unfold tickOnce
  try dsimp only
  repeat' (first
    | with_reducible assumption
    | with_reducible apply State.goOnAborts_keeps
    | with_reducible apply State.dumpStep_keeps
    | with_reducible apply State.tickTime_keeps
    | with_reducible apply State.chargeBudgets_keeps
    | with_reducible apply State.drainTick_keeps
    | with_reducible apply State.pollTick_keeps
    | with_reducible apply keeps_ite)

end Sys2Proof.Machine
end

