-- ==== Sys2Proof/Laws/Vector.lean ====
section
/-! SUPPORT. Elements of vector registers: what a write of elements leaves in every element and register. -/
namespace Sys2Proof.Machine

/-- Number `i` of packed numbers. -/
theorem pack_get (w : Nat) (l : List Nat) (i : Nat) :
    pack w l / 2 ^ (w * i) % 2 ^ w = if h : i < l.length then l[i] % 2 ^ w else 0 := by
  induction l generalizing i with
  | nil => simp [pack]
  | cons x xs ih =>
    cases i with
    | zero => simp [pack]
    | succ i =>
      have e : pack w (x :: xs) / 2 ^ (w * (i + 1)) = pack w xs / 2 ^ (w * i) := by
        rw [pack, Nat.mul_succ, Nat.pow_add, Nat.mul_comm (2 ^ (w * i)), ← Nat.div_div_eq_div_mul,
          Nat.add_mul_div_left _ _ (Nat.two_pow_pos w), Nat.div_eq_of_lt (Nat.mod_lt _ (Nat.two_pow_pos w)), Nat.zero_add]
      rw [e, ih]
      simp

/-- Packed numbers fill their bits. -/
theorem pack_lt (w : Nat) (l : List Nat) : pack w l < 2 ^ (w * l.length) := by
  induction l with
  | nil => simp [pack]
  | cons x xs ih =>
    have h1 := Nat.mod_lt x (Nat.two_pow_pos w)
    rw [pack, List.length_cons, Nat.mul_succ, Nat.pow_add]
    have h2 : 2 ^ w * (pack w xs + 1) ≤ 2 ^ w * 2 ^ (w * xs.length) := Nat.mul_le_mul_left _ ih
    rw [Nat.mul_add, Nat.mul_one] at h2
    rw [Nat.mul_comm (2 ^ (w * xs.length))]
    omega

/-- A field of a register under a masked write: the new value's inside the mask, the old one's outside. -/
theorem masked_field (x : BitVec 16384) (v m lo len : Nat) (hv : v < 2 ^ m) (hm : m ≤ 16384) (hl : lo + len ≤ 16384) :
    (((x &&& ~~~ BitVec.ofNat 16384 (2 ^ m - 1)) ||| BitVec.ofNat 16384 v).extractLsb' lo len).toNat
      = if lo + len ≤ m then v / 2 ^ lo % 2 ^ len else if m ≤ lo then (x.extractLsb' lo len).toNat
        else (((x &&& ~~~ BitVec.ofNat 16384 (2 ^ m - 1)) ||| BitVec.ofNat 16384 v).extractLsb' lo len).toNat := by
  split
  · rename_i h
    apply Nat.eq_of_testBit_eq
    intro i
    simp only [BitVec.extractLsb'_toNat, Nat.testBit_mod_two_pow, Nat.testBit_shiftRight, BitVec.toNat_or, BitVec.toNat_and,
      Nat.testBit_or, Nat.testBit_and, Nat.testBit_div_two_pow, BitVec.testBit_toNat, BitVec.getLsbD_not, BitVec.getLsbD_ofNat,
      Nat.testBit_two_pow_sub_one]
    by_cases hi : i < len
    · have : lo + i < m := by omega
      have h2 : lo + i < 16384 := by omega
      simp [hi, this, h2, Nat.add_comm]
    · simp [hi]
  · split
    · rename_i h
      apply Nat.eq_of_testBit_eq
      intro i
      simp only [BitVec.extractLsb'_toNat, Nat.testBit_mod_two_pow, Nat.testBit_shiftRight, BitVec.toNat_or, BitVec.toNat_and,
        Nat.testBit_or, Nat.testBit_and, BitVec.testBit_toNat, BitVec.getLsbD_not, BitVec.getLsbD_ofNat,
        Nat.testBit_two_pow_sub_one]
      by_cases hi : i < len
      · have h1 : ¬ lo + i < m := by omega
        have h2 : lo + i < 16384 := by omega
        have h3 : v.testBit (lo + i) = false := Nat.testBit_lt_two_pow (Nat.lt_of_lt_of_le hv (Nat.pow_le_pow_right (by omega) (by omega)))
        simp [hi, h1, h2, h3]
      · simp [hi]
    · rfl

/-- A write of elements leaves the registers past its span, and everything else of the Harrier. -/
theorem Harrier.setElems_rest (n : Nat) (h : Harrier) (reg b : Nat) (l : List Nat) :
    (∀ r, r < reg ∨ reg + n ≤ r → (Harrier.setElems n h reg b l).reg r = h.reg r)
    ∧ { Harrier.setElems n h reg b l with v := h.v } = h := by
  induction n generalizing h reg l with
  | zero => exact ⟨fun _ _ => rfl, rfl⟩
  | succ n ih =>
    match l with
    | [] => exact ⟨fun _ _ => rfl, rfl⟩
    | x :: xs =>
      simp only [Harrier.setElems]
      refine ⟨fun r hr => ?_, ?_⟩
      · rw [(ih _ _ _).1 r (by omega), Harrier.setReg_reg_ne _ _ _ _ (by omega)]
      · have := (ih (h.setReg reg (h.reg reg &&& ~~~ BitVec.ofNat 16384 (2 ^ (8 * b * ((x :: xs).take (2048 / b)).length) - 1)
          ||| BitVec.ofNat 16384 (pack (8 * b) ((x :: xs).take (2048 / b))))) (reg + 1) ((x :: xs).drop (2048 / b))).2
        exact congrArg (fun y : Harrier => { y with v := h.v }) this

/-- Every element after a write of elements of 1, 2, 4 or 8 bytes: a written one is its value modulo its width, another is as it
was. -/
theorem Harrier.elem_setElems (n : Nat) (h : Harrier) (reg b : Nat) (l : List Nat) (i : Nat) (hb : b ∈ [1, 2, 4, 8])
    (hl : l.length ≤ n * (2048 / b)) :
    (Harrier.setElems n h reg b l).elem reg b i
      = if hi : i < l.length then l[i] % 2 ^ (8 * b) else h.elem reg b i := by
  have hq : 2048 / b * b = 2048 := by
    simp only [List.mem_cons, List.not_mem_nil, or_false] at hb
    rcases hb with rfl | rfl | rfl | rfl <;> rfl
  have hb0 : 0 < b := by
    simp only [List.mem_cons, List.not_mem_nil, or_false] at hb
    omega
  generalize hQ : 2048 / b = q at *
  have hq0 : 0 < q := by
    rcases Nat.eq_zero_or_pos q with e | e
    · rw [e] at hq; simp at hq
    · exact e
  have place : ∀ k r, r < q → (k * q + r) * b / 2048 = k ∧ (k * q + r) * b % 2048 = r * b := by
    intro k r hr
    have h1 : (k * q + r) * b = 2048 * k + r * b := by rw [Nat.add_mul, Nat.mul_assoc, hq, Nat.mul_comm k]
    have h2 : r * b < 2048 := by
      have := Nat.mul_lt_mul_of_pos_right hr hb0
      rwa [hq] at this
    rw [h1, Nat.mul_add_div (by omega), Nat.div_eq_of_lt h2, Nat.mul_add_mod, Nat.mod_eq_of_lt h2]
    exact ⟨rfl, rfl⟩
  induction n generalizing h reg l i with
  | zero =>
    have : l.length = 0 := by omega
    simp [Harrier.setElems, this]
  | succ n ih =>
    match l, hl with
    | [], _ => simp [Harrier.setElems]
    | x :: xs, hl =>
      simp only [Harrier.setElems, hQ]
      obtain ⟨k, r, hr, rfl⟩ : ∃ k r, r < q ∧ i = k * q + r :=
        ⟨i / q, i % q, Nat.mod_lt _ hq0, by rw [Nat.mul_comm]; exact (Nat.div_add_mod i q).symm⟩
      generalize hx : x :: xs = l at *
      clear hx x xs
      cases k with
      | zero =>
        have hp := place 0 r hr
        simp only [Nat.zero_mul, Nat.zero_add] at hp ⊢
        simp only [Harrier.elem, hp.1, hp.2, Nat.add_zero]
        rw [(Harrier.setElems_rest _ _ _ _ _).1 reg (Or.inl (by omega)), Harrier.setReg_reg_self]
        have hlen : (l.take q).length = min q l.length := List.length_take
        have h3 : r * b + b ≤ 2048 := by
          have := Nat.mul_le_mul_right b hr
          rw [Nat.succ_mul, hq] at this
          exact this
        have hmq : 8 * b * (l.take q).length ≤ 16384 := by
          rw [hlen]
          have h1 : b * min q l.length ≤ b * q := Nat.mul_le_mul_left _ (Nat.min_le_left _ _)
          rw [Nat.mul_comm b q, hq] at h1
          rw [Nat.mul_assoc]
          omega
        rw [masked_field _ _ _ _ _ (pack_lt _ _) hmq (by omega)]
        by_cases hi : r < l.length
        · have hm : r < (l.take q).length := by rw [hlen]; omega
          have : 8 * (r * b) + 8 * b ≤ 8 * b * (l.take q).length := by
            have := Nat.mul_le_mul_left (8 * b) hm
            rw [Nat.mul_succ] at this
            rw [← Nat.mul_assoc, Nat.mul_comm 8 r, Nat.mul_assoc, Nat.mul_comm r]
            exact this
          have h8 : 8 * (r * b) = 8 * b * r := by rw [Nat.mul_comm r, Nat.mul_assoc]
          rw [if_pos this, dif_pos hi, h8, pack_get, dif_pos hm, List.getElem_take]
        · have hm : (l.take q).length ≤ r := by rw [hlen]; omega
          have h1 : 8 * b * (l.take q).length ≤ 8 * (r * b) := by
            rw [Nat.mul_comm r, ← Nat.mul_assoc]
            exact Nat.mul_le_mul_left _ hm
          rw [if_neg (by omega), if_pos h1, dif_neg hi]
      | succ k =>
        have hp := place (k + 1) r hr
        have hp' := place k r hr
        have e : ∀ g : Harrier, g.elem reg b ((k + 1) * q + r) = g.elem (reg + 1) b (k * q + r) := by
          intro g
          simp only [Harrier.elem, hp.1, hp.2, hp'.1, hp'.2]
          rw [Nat.add_assoc reg, Nat.add_comm 1 k]
        have hs : (k + 1) * q = q + k * q := by rw [Nat.succ_mul, Nat.add_comm]
        rw [e, ih _ _ _ _ (by rw [List.length_drop]; rw [Nat.succ_mul] at hl; omega), e]
        by_cases hi : (k + 1) * q + r < l.length
        · rw [dif_pos hi, dif_pos (by rw [List.length_drop]; omega), List.getElem_drop]
          congr 2
          rw [hs, Nat.add_assoc]
        · rw [dif_neg hi, dif_neg (by rw [List.length_drop]; omega)]
          simp only [Harrier.elem, hp'.1, hp'.2]
          rw [Harrier.setReg_reg_ne _ _ _ _ (by omega)]

end Sys2Proof.Machine
end

