-- ==== Sys2Proof/WellFormed.lean ====
section
/-! DEFINITION. Which commands the block can be given: the lengths of what a command carries and the ranges of its
numbers, as the rules name them. -/
namespace Sys2Proof

/-- A reply carries data of the right shape, or an error. -/
def Reply.ok {α : Type} (p : α → Bool) : Reply α → Bool
  | .data v => p v
  | .error _ => true

/-- A fabric packet (R381): VER and the rest of byte 4 apart, LEN is at most 192 data bytes. -/
def Packet.wellFormed (p : Packet) : Bool := decide (p.data.length ≤ 192)

/-- A loading table covers the 960 data sub-carriers, each carrying 0 to 10 bits (R358, R361). -/
def tableOk (t : List (BitVec 4)) : Bool := decide (t.length = 960) && t.all (fun b => decide (b.toNat ≤ 10))

/-- One lane's superframe: 256 symbols, each with its 960 data sub-carriers and its 16 pilots (R358, R361). -/
def superframeOk (m : LaneMeasure) : Bool :=
  decide (m.length = 256) && m.all (fun x => decide (x.errors.length = 960) && decide (x.pilotErrors.length = 16))

/-- The host link trains at a rate of 2.5 to 64 GT/s on 1, 4, 8 or 16 lanes, in FLIT mode always at 64 GT/s (R405). -/
def LinkTraining.ok (x : LinkTraining) : Bool :=
  decide (1 ≤ x.speed.toNat ∧ x.speed.toNat ≤ 6) && ([1, 4, 8, 16].contains x.width.toNat && (x.flit || decide (x.speed ≠ 6)))

/-- The commands that the block can be given. -/
def WellFormed (i : Instr) : Bool :=
  match i with
  | .doorbellPoll _ _ => true
  | .descriptorFetch _ r => r.ok (fun l => decide (1 ≤ l.length ∧ l.length ≤ 8))
  | .vfStreamLoad f _ _ => decide (f ≠ 0)
  | .setupRegisterWrite _ off size data =>
    (decide (size = 4) && decide (off.toNat % 4 = 0) && decide (data.toNat < 2 ^ 32))
      || (decide (size = 8) && decide (off.toNat % 4 = 0))
      || decide (size ≠ 4 ∧ size ≠ 8 ∧ 1 ≤ size ∧ size ≤ 8)
      || decide (off.toNat % 4 ≠ 0 ∧ (size = 4 ∨ size = 8))
  | .probe _ l => decide (l.length = 4) && l.all superframeOk
  | .exchange _ e => decide (e.tables.length = 4) && e.tables.all tableOk
  | .superframeEnd _ l => decide (l.length = 4) && l.all superframeOk
  | .loadPropose _ _ _ _ t => tableOk t
  | .forward _ p => p.wellFormed
  | .peerRead _ p => p.wellFormed
  | .peerWrite _ p => p.wellFormed
  | .peerAtomic _ p => p.wellFormed
  | .readRsp _ p => p.wellFormed
  | .writeAck _ p => p.wellFormed
  | .atomicRsp _ p => p.wellFormed
  | .ckptOpen _ p => p.wellFormed
  | .ckptData _ p => p.wellFormed
  | .ckptSeal _ p => p.wellFormed
  | .ckptAck _ p => p.wellFormed
  | .ckptRead _ p => p.wellFormed
  | .ckptReadRsp _ p => p.wellFormed
  | .coldReset b => b.link.ok
  | .warmReset b => b.link.ok
  | .vfFlr f => decide (f ≠ 0)
  | .vfBar2Access f _ (.read n) => decide (f ≠ 0 ∧ 1 ≤ n)
  | .vfBar2Access f _ (.write bs) => decide (f ≠ 0 ∧ 1 ≤ bs.length)
  | .bar2Read _ n => decide (1 ≤ n)
  | .bar2Write _ bs => decide (1 ≤ bs.length)
  | _ => true

end Sys2Proof
end

