-- ==== Sys2Proof/Tests/Slice0.lean ====
section
/-! SUPPORT. Tests of the model: ill-formed commands that WellFormed refuses, values worked out from the rules, and for each statement of
Certificates/Slice0/Obligations.lean states that meet its hypotheses. -/
set_option Elab.async false
namespace Sys2Proof.Tests
open Sys2Proof.Machine

/-! ### Small states -/

/-- A job: RUNNING in address space 0, with 1 to 4 clusters and its save area at 1 GiB. -/
def tJob : Job :=
  { phase := .running, aspace := 0, minCl := 1, maxCl := 4, attempts := 2, fromCheckpoint := false, seed := 5
    saveVa := 0x40000000, attempt := 0, startStream := 0, aborted := false, attemptPending := false, stripping := false
    base := none, saved := [], snapshots := [], ended := [], ckpt := none, restore := none }

/-- An enabled stream of job 0 with a ring of four slots. -/
def tStream : Stream := { Stream.reset with enabled := true, phase := .active, log2Size := 2, ringBase := 0x1000 }

/-- A fetched descriptor at an index. -/
def tDesc (idx : W32) (bits : Line) : Desc := Desc.fresh idx bits

/-- A device that takes work: READY, eight live clusters, all stacks trained, a job on stream 0, and completion ring 0 enabled. -/
def tDev : State :=
  { State.reset with
    card := { Card.reset with device := .ready, live := 0xFF, boardW := 600, auxPower := true, memOn := 63, rootLock := true }
    host := { HostSide.reset with linkUp := true, perst := true }
    sched := { Sched.reset with jobs := [(0, some tJob)], streams := [(0, tStream)] }
    memory := { Memory.reset with stacksTrained := 63 }
    setup := { Setup.reset with regs := [(0x41008, 0x80000004)] } }

/-- A cluster of job 0 with a Kestrel whose PC lies in the vector window. -/
def tCluster (k : Kestrel) : Cluster :=
  { Cluster.reset with powered := true, job := some (0, 0), stream := some 0, k := { k with pc := windowAt 0x200 } }

/-- A device whose cluster 0 is `x`. -/
def tWith (x : Cluster) : State := { tDev with clusters := [(0, x)] }

/-- A device whose cluster 0 runs a Kestrel at a level with registers g. -/
def tRun (level : BitVec 2) (g : Table Word) : State := tWith (tCluster { Kestrel.reset with level := level, g := g })

/-- The state that a command leaves. -/
def tNext (i : Instr) (s : State) : State :=
  match exec i s with
  | .next t => t
  | .fault _ => s
  | .refused _ => s

/-- Where an exec command leaves register r of cluster 0. -/
def tReg (i : Instr) (s : State) (r : BitVec 5) : Word := ((tNext i s).kestrel 0).get r

/-! ### The step -/

theorem wit_step : ({ tDev with pending := [.getTid, .nop 0 0] } : State).pending = .getTid :: [.nop 0 0] := rfl
theorem test_step_front : step { tDev with pending := [.getTid, .nop 0 0] } = exec .getTid { tDev with pending := [.nop 0 0] } := rfl
theorem wit_tick : tDev.pending = [] ∧ tDev.card.device ≠ .off ∧ tDev.fabric.tbSlew = 0 := by decide +kernel
theorem wit_tick_off : ({ tDev with card := { tDev.card with device := .off } } : State).card.device = .off := rfl
theorem wit_inv : tDev.Inv ∧ ∃ t, step tDev = .next t := by
  refine ⟨?_, _, rfl⟩; unfold State.Inv; decide +kernel
theorem wit_inv_command : ({ tDev with pending := [.getTid] } : State).Inv ∧
    ∃ t, step { tDev with pending := [.getTid] } = .next t := by
  refine ⟨?_, _, rfl⟩; unfold State.Inv; decide +kernel

/-! ### Well-formed commands -/

theorem test_wf_doorbell_error : WellFormed (.doorbellPoll 0 (.error .ur)) = true := by decide +kernel
theorem test_wf_slots : WellFormed (.descriptorFetch 0 (.data (List.replicate 9 0))) = false := by decide +kernel
theorem test_wf_vf_load : WellFormed (.vfStreamLoad 0 0 (.data 0)) = false := by decide +kernel
theorem test_wf_write_size : WellFormed (.setupRegisterWrite 0 0 9 0) = false := by decide +kernel
theorem test_wf_write_wide : WellFormed (.setupRegisterWrite 0 0 4 (2 ^ 32)) = false := by decide +kernel
theorem test_wf_probe : WellFormed (.probe 0 [[], [], [], []]) = false := by decide +kernel
theorem test_wf_exchange : WellFormed (.exchange 0 ⟨1, [[11], [], [], []]⟩) = false := by decide +kernel
theorem test_wf_superframe : WellFormed (.superframeEnd 0 []) = false := by decide +kernel
theorem test_wf_propose : WellFormed (.loadPropose 0 0 0 0 (List.replicate 960 11)) = false := by decide +kernel
theorem test_wf_packet : WellFormed (.forward 0 ⟨0, 0, 1, false, false, false, 0, 0, 0, 0, 0, 0, 0, List.replicate 193 0⟩) = false := by
  decide +kernel
theorem test_wf_vf_flr : WellFormed (.vfFlr 0) = false := by decide +kernel
theorem test_wf_vf_bar2 : WellFormed (.vfBar2Access 0 0 (.read 1)) = false ∧ WellFormed (.vfBar2Access 1 0 (.write [])) = false := by
  decide +kernel
theorem test_wf_boot (b : BootEnv) : WellFormed (.coldReset { b with link := ⟨6, 16, false⟩ }) = false
    ∧ WellFormed (.warmReset { b with link := ⟨5, 2, false⟩ }) = false ∧ WellFormed (.warmReset { b with link := ⟨5, 8, false⟩ }) = true := by
  refine ⟨?_, ?_, ?_⟩ <;> rfl
theorem test_wf_bar2 : WellFormed (.bar2Read 0 0) = false ∧ WellFormed (.bar2Write 0 []) = false := by decide +kernel
theorem test_decode_length : decodeTableWord 32 0x70 = none ∧ decodeTableWord 64 0x01 = none
    ∧ (tDev.withFetchWord 32 0x70).pending = [] := by decide +kernel

/-! ### Kestrel -/

/-- From the conditions of an issue. -/
theorem issues_of {s s1 : State} {c : ClusterId} {n : Nat}
    (h : s.canIssue c = true ∧ s.fetch c n = (true, s1) ∧ (s1.cluster c).sound = true) : Issues s c n s1 := h

/-- At J with g2 = 7 and g3 = -5. -/
def tJ : State := tRun 0 [(2, 7), (3, -5)]

theorem wit_alu : Issues tJ 0 4 tJ ∧ (tJ.kestrel 0).get 3 ≠ 0 ∧ (tJ.kestrel 0).get 4 = 0 := by
  refine ⟨issues_of ?_, ?_⟩ <;> decide +kernel
theorem test_add : tReg (.add 0 1 2 3) tJ 1 = 2 ∧ tReg (.sub 0 1 2 3) tJ 1 = 12 := by decide +kernel
theorem test_add_pc : ((tNext (.add 0 1 2 3) tJ).kestrel 0).pc = windowAt 0x204 := by decide +kernel
theorem test_g0_discards : tReg (.add 0 0 2 3) tJ 0 = 0 := by decide +kernel
theorem test_logic : tReg (.and 0 1 2 3) tJ 1 = 3 ∧ tReg (.or 0 1 2 3) tJ 1 = -1 ∧ tReg (.xor 0 1 2 3) tJ 1 = -4 := by decide +kernel
theorem test_shift_modulo : tReg (.sll 0 1 2 3) tJ 1 = 7 <<< 59 ∧ tReg (.srl 0 1 3 2) tJ 1 = 0x01FFFFFFFFFFFFFF
    ∧ tReg (.sra 0 1 3 2) tJ 1 = -1 := by decide +kernel
theorem test_compare : tReg (.slt 0 1 3 2) tJ 1 = 1 ∧ tReg (.sltu 0 1 3 2) tJ 1 = 0 := by decide +kernel
theorem test_minmax : tReg (.min 0 1 2 3) tJ 1 = -5 ∧ tReg (.max 0 1 2 3) tJ 1 = 7 ∧ tReg (.minu 0 1 2 3) tJ 1 = 7
    ∧ tReg (.maxu 0 1 2 3) tJ 1 = -5 := by decide +kernel
theorem test_mul : tReg (.mul 0 1 2 3) tJ 1 = -35 ∧ tReg (.mulh 0 1 2 3) tJ 1 = -1 ∧ tReg (.mulhu 0 1 2 3) tJ 1 = 6 := by decide +kernel
theorem test_div : tReg (.div 0 1 3 2) tJ 1 = 0 ∧ tReg (.rem 0 1 3 2) tJ 1 = -5 ∧ tReg (.divu 0 1 3 2) tJ 1 = 0x2492492492492491
    ∧ tReg (.remu 0 1 3 2) tJ 1 = 4 := by decide +kernel
theorem test_div_min : tReg (.div 0 1 2 3) (tRun 0 [(2, 0x8000000000000000), (3, -1)]) 1 = 0x8000000000000000
    ∧ tReg (.rem 0 1 2 3) (tRun 0 [(2, 0x8000000000000000), (3, -1)]) 1 = 0 := by decide +kernel
theorem wit_imm : (63#12).toNat < 64 ∧ 64 ≤ (64#12).toNat := by decide
theorem test_imm : tReg (.addi 0 1 2 0xFFF) tJ 1 = 6 ∧ tReg (.andi 0 1 2 0xFFE) tJ 1 = 6 ∧ tReg (.ori 0 1 2 8) tJ 1 = 15
    ∧ tReg (.xori 0 1 2 0xFFF) tJ 1 = -8 ∧ tReg (.slti 0 1 3 0xFFF) tJ 1 = 1 := by decide +kernel
theorem test_imm_shift : tReg (.slli 0 1 2 63) tJ 1 = 0x8000000000000000 ∧ tReg (.srli 0 1 3 60) tJ 1 = 15
    ∧ tReg (.srai 0 1 3 1) tJ 1 = -3 := by decide +kernel
theorem test_wide : tReg (.liw 0 1 0x80000) tJ 1 = 0xFFFFFFFFFFF80000 ∧ tReg (.liws 0 2 5) tJ 2 = 0x700005
    ∧ tReg (.pca 0 1 0xFFFFF) tJ 1 = windowAt 0x1FC := by decide +kernel

theorem wit_branch : (tJ.kestrel 0).get 2 ≠ (tJ.kestrel 0).get 3 ∧ (tJ.kestrel 0).get 4 = (tJ.kestrel 0).get 5
    ∧ ((tJ.kestrel 0).get 3).toInt < ((tJ.kestrel 0).get 2).toInt ∧ ((tJ.kestrel 0).get 2).toNat < ((tJ.kestrel 0).get 3).toNat := by
  decide +kernel
theorem test_branch : ((tNext (.blt 0 3 2 0xFFF) tJ).kestrel 0).pc = windowAt 0x1FC ∧ ((tNext (.bltu 0 3 2 8) tJ).kestrel 0).pc = windowAt 0x204
    ∧ ((tNext (.beq 0 4 5 8) tJ).kestrel 0).pc = windowAt 0x220 ∧ ((tNext (.bne 0 4 5 8) tJ).kestrel 0).pc = windowAt 0x204
    ∧ ((tNext (.bge 0 2 3 1) tJ).kestrel 0).pc = windowAt 0x204 ∧ ((tNext (.bgeu 0 2 3 4) tJ).kestrel 0).pc = windowAt 0x204 := by
  decide +kernel
theorem test_jump : ((tNext (.jmp 0 0x1FFFFFF) tJ).kestrel 0).pc = windowAt 0x1FC ∧ ((tNext (.jmpr 0 0 2 1) tJ).kestrel 0).pc = 8 := by
  decide +kernel

/-- At a level with shadow-stack depth n and 160 bytes of stack room. -/
def tStack (level : BitVec 2) (n : BitVec 13) : State :=
  tWith (tCluster { Kestrel.reset with level := level, ssp := n, esp := 0x2000, g := [(2, 0x1000), (31, 0x1234)] })

theorem wit_call : Issues (tStack 0 0) 0 4 (tStack 0 0) ∧ Mem.wf ((tStack 0 0).cluster 0).store = true
    ∧ ((tStack 0 4095).kestrel 0).ssp.toNat < 4096 := by
  refine ⟨issues_of ?_, ?_⟩ <;> decide +kernel
theorem wit_call_full : Issues (tStack 1 4096) 0 4 (tStack 1 4096) ∧ ((tStack 1 4096).kestrel 0).ssp = 4096 := by
  refine ⟨issues_of ?_, ?_⟩ <;> decide +kernel
theorem wit_call_owl : Issues (tStack 2 0) 0 4 (tStack 2 0) := issues_of (by decide +kernel)
/-- After a call. -/
def tCalled : State := tNext (.callr 0 0 2 4) (tStack 0 0)
theorem test_call : (tCalled.kestrel 0).pc = 0x1004 ∧ (tCalled.kestrel 0).ssp = 1 ∧ (tCalled.kestrel 0).get 31 = windowAt 0x204
    ∧ tCalled.shadowTop 0 = windowAt 0x204 := by decide +kernel
/-- A call that returned to the window. -/
def tBack : State := tCalled.modK 0 (fun k => { k with pc := windowAt 0x300 })
theorem wit_ret : Issues tBack 0 4 tBack ∧ (tBack.kestrel 0).ssp ≠ 0 ∧ tBack.shadowBad 0 = false
    ∧ tBack.shadowTop 0 = (tBack.kestrel 0).get 31 := by
  refine ⟨issues_of ?_, ?_⟩ <;> decide +kernel
theorem test_ret : ((tNext (.ret 0 0 0 0) tBack).kestrel 0).pc = windowAt 0x204 ∧ ((tNext (.ret 0 0 0 0) tBack).kestrel 0).ssp = 0 := by
  decide +kernel
theorem wit_ret_mismatch : (tStack 0 0).shadowBad 0 = false ∧ ((tStack 0 0).kestrel 0).ssp = 0
    ∧ (tStack 0 1).shadowBad 0 = false ∧ (tStack 0 1).shadowTop 0 ≠ ((tStack 0 1).kestrel 0).get 31 := by decide +kernel
theorem test_ret_mismatch : ((tNext (.ret 0 0 0 0) (tStack 0 0)).kestrel 0).ocause = 7
    ∧ ((tNext (.ret 0 0 0 0) (tStack 0 0)).kestrel 0).level = 2 := by decide +kernel

/-! ### Exceptions -/

/-- At a level with 0x2000 as ESP. -/
def tTrap (level : BitVec 2) : State := tStack level 3
theorem wit_trap : Issues (tTrap 0) 0 4 (tTrap 0) ∧ ((tTrap 0).kestrel 0).level ≠ 2 ∧ SEntryOk ((tTrap 0).drainStores 0) 0 0x80
    ∧ SEntryOk ((tTrap 0).drainStores 0) 0 0 := by
  unfold SEntryOk; refine ⟨issues_of ?_, ?_⟩ <;> decide +kernel
theorem wit_illegal : illegalWord 0x7F = true ∧ ¬(0x70 ≤ (0x7F : Word).toNat % 128 ∧ (0x7F : Word).toNat % 128 ≤ 0x7B) := by decide +kernel
theorem wit_trap_fields : (1 : BitVec 5) ≠ 0 := by decide
/-- After TRAPI 0x123 at J. -/
def tTrapped : State := tNext (.trapi 0 0 0 0x123) (tTrap 0)
theorem test_trapi : (tTrapped.kestrel 0).pc = windowAt 0x80 ∧ (tTrapped.kestrel 0).level = 1 ∧ (tTrapped.kestrel 0).cause = 0x0F
    ∧ (tTrapped.kestrel 0).tval = 0x123 ∧ (tTrapped.kestrel 0).esp = 0x1F60 ∧ (tTrapped.kestrel 0).ssp = 4 := by decide +kernel
theorem test_trapi_frame : BitVec.ofNat 64 (ofBytes (Mem.readBytes (tTrapped.cluster 0).store (0x1F60 + 120) 8)) = windowAt 0x204
    ∧ tTrapped.shadowTop 0 = windowAt 0x204 ||| 1 := by decide +kernel
theorem test_break : ((tNext (.breakK 0 0 0 5) (tTrap 1)).kestrel 0).pc = windowAt 0
    ∧ ((tNext (.breakK 0 0 0 5) (tTrap 1)).kestrel 0).cause = 0x10 := by decide +kernel
theorem test_illegal : ((tNext (.illegalOp 0 0x7F) (tTrap 1)).kestrel 0).cause = 1
    ∧ ((tNext (.illegalOp 0 0x7F) (tTrap 1)).kestrel 0).tval = 0x7F := by decide +kernel

/-- With a stack pointer that leaves no room, and with a full shadow stack. -/
def tNoRoom (esp : Word) (ssp : BitVec 13) : State :=
  tWith (tCluster { Kestrel.reset with level := 0, esp := esp, ssp := ssp })
theorem wit_escalated : Mem.wf (((tNoRoom 128 0).drainStores 0).cluster 0).store = true
    ∧ (((tNoRoom 128 0).drainStores 0).cluster 0).storeBuf = [] ∧ (((tNoRoom 128 0).drainStores 0).kestrel 0).level.toNat < 2
    ∧ (((tNoRoom 128 0).drainStores 0).kestrel 0).esp.toNat < 160
    ∧ shadowBase < (((tNoRoom 0x7F4020 0).drainStores 0).kestrel 0).esp.toNat
    ∧ 160 ≤ (((tNoRoom 160 4096).drainStores 0).kestrel 0).esp.toNat
    ∧ (((tNoRoom 0x7F4000 4096).drainStores 0).kestrel 0).esp.toNat ≤ shadowBase
    ∧ (((tNoRoom 160 4096).drainStores 0).kestrel 0).ssp = 4096 := by decide +kernel
theorem test_escalated : ((tNext (.trapi 0 0 0 1) (tNoRoom 128 0)).kestrel 0).ocause = 0x0F061F
    ∧ ((tNext (.trapi 0 0 0 1) (tNoRoom 128 0)).kestrel 0).otval = -32
    ∧ ((tNext (.trapi 0 0 0 1) (tNoRoom 160 4096)).kestrel 0).ocause = 0x0F081F
    ∧ ((tNext (.trapi 0 0 0 1) (tNoRoom 160 4096)).kestrel 0).otval = windowAt 0x204 ||| 1 := by decide +kernel
theorem wit_routes : Mem.wf ((((tTrap 0).modK 0 (fun k => k.setCause 6 0)).drainStores 0).cluster 0).store = true
    ∧ ((tTrap 0).kestrel 0).level ≠ 2 ∧ ((tTrap 2).kestrel 0).level = 2 := by decide +kernel
theorem test_routes : (((tTrap 0).raise 0 6 9 4).kestrel 0).pc = windowAt 0x800 ∧ (((tTrap 0).raise 0 6 9 4).kestrel 0).ocause = 6
    ∧ (((tTrap 1).raise 0 4 9 4).kestrel 0).pc = windowAt 0 := by decide +kernel
/-- A Kestrel at O. -/
def tOwl : State := tStack 2 0
theorem wit_owlLimit : tOwl.mayRun 0 = true ∧ (tOwl.kestrel 0).level = 2 ∧ (tOwl.kestrel 0).run = .running := by decide +kernel
theorem test_owlLimit : (tNext (.owlLimit 0) tOwl).isLive 0 = false ∧ ((tNext (.owlLimit 0) tOwl).kestrel 0).run = .halted := by
  decide +kernel

/-- A trapped Kestrel whose handler returns. -/
def tReturning : State := tTrapped.modK 0 (fun k => { k with pc := windowAt 0x300 })
theorem wit_eret : Issues tReturning 0 4 tReturning ∧ (tReturning.kestrel 0).level = 1
    ∧ (tReturning.kestrel 0).esp.toNat + 160 ≤ shadowBase ∧ (tReturning.cluster 0).storeFails (tReturning.kestrel 0).esp.toNat 160 = false
    ∧ tReturning.shadowBad 0 = false ∧ (tReturning.kestrel 0).ssp ≠ 0
    ∧ tReturning.shadowTop 0 = (BitVec.ofNat 64 (ofBytes (((Mem.readBytes (tReturning.cluster 0).store
        (tReturning.kestrel 0).esp.toNat 160).drop 120).take 8)) ||| 1)
    ∧ ofBytes (((Mem.readBytes (tReturning.cluster 0).store (tReturning.kestrel 0).esp.toNat 160).drop 128).take 8) % 4 ≤ 1 := by
  refine ⟨issues_of ?_, ?_⟩ <;> decide +kernel
theorem test_eret : ((tNext (.eret 0 0 0 0) tReturning).kestrel 0) = { (tTrap 0).kestrel 0 with
    g := [(1, 0), (2, 0x1000), (3, 0), (4, 0), (5, 0), (6, 0), (7, 0), (8, 0), (9, 0), (10, 0), (11, 0), (12, 0), (13, 0), (14, 0)
      , (15, 0), (31, 0x1234)], pc := windowAt 0x204, cause := 0x0F, tval := 0x123 } := by decide +kernel
theorem wit_eret_mismatch : Issues (tStack 1 0) 0 4 (tStack 1 0) ∧ ((tStack 1 0).kestrel 0).ssp = 0 ∧ (tStack 1 0).shadowBad 0 = false
    ∧ ((tStack 1 0).cluster 0).storeFails 0x2000 160 = false := by
  refine ⟨issues_of ?_, ?_⟩ <;> decide +kernel
theorem wit_wfi : ((tStack 1 0).kestrel 0).level.toNat % 2 = 1 ∧ ((tStack 0 0).kestrel 0).level = 0 ∧ (tOwl.kestrel 0).level = 2 := by
  decide +kernel
theorem test_wfi : ((tNext (.wfi 0 0 0 0) (tStack 1 0)).kestrel 0).run = .waiting
    ∧ ((tNext (.wfi 0 0 0 0) (tStack 0 0)).kestrel 0).cause = 3 ∧ ((tNext (.wfi 0 0 0 0) tOwl).unit 1 0).inReset = true
    ∧ ((tNext (.wfi 0 0 0 0) tOwl).job 0).map (·.phase) = some .restarting := by decide +kernel
/-- A line in the L1I. -/
def tWindow : State := tDev.setCluster 0 { tCluster { Kestrel.reset with level := 0 } with l1i := [.store 0] }
theorem test_iflush : ((tNext (.iflush 0 0 0 0) tWindow).cluster 0).l1i = [] := by decide +kernel

/-- At J with TIMER and MOVER enabled and the MOVER line pending. -/
def tIrq : State := tWith (tCluster { Kestrel.reset with level := 0, ie := true, irqEn := 5, irqPend := 4, esp := 0x2000 })
theorem wit_irq : tIrq.mayRun 0 = true ∧ (tIrq.kestrel 0).ie = true ∧ (tIrq.cluster 0).h.vprogValid = false
    ∧ (tIrq.irqPend (tIrq.kestrel 0) &&& (tIrq.kestrel 0).irqEn).getLsbD 2 = true
    ∧ (∀ m, m < 2 → (tIrq.irqPend (tIrq.kestrel 0) &&& (tIrq.kestrel 0).irqEn).getLsbD m = false)
    ∧ SEntryOk (tIrq.drainStores 0) 0 0x100 := by unfold SEntryOk; decide +kernel
theorem test_irq : ((tNext (.interruptEntry 0) tIrq).kestrel 0).cause = 0x82 ∧ ((tNext (.interruptEntry 0) tIrq).kestrel 0).pc = windowAt 0x100
    ∧ ((tNext (.interruptEntry 0) tIrq).kestrel 0).ie = false := by decide +kernel
/-- At J with reports. -/
def tReports (l : List Report) : State := tWith (tCluster { Kestrel.reset with level := 0, reports := l, esp := 0x2000 })
theorem wit_reports : (tReports [.xlate 8 16 4 1, .failure 4 8 3]).mayRun 0 = true
    ∧ (tReports [.xlate 8 16 4 1, .failure 4 8 3]).kestrel 0 = { (tReports []).kestrel 0 with
        reports := [.xlate 8 16 4 1] ++ .failure 4 8 3 :: [] }
    ∧ (tReports [.fpTrap 8]).kestrel 0 = { (tReports []).kestrel 0 with reports := [] ++ .fpTrap 8 :: [] } := by decide +kernel
theorem test_reports : ((tNext (.harrierReportAccept 0) (tReports [.xlate 8 16 4 1, .failure 4 8 3])).kestrel 0).cause = 4
    ∧ ((tNext (.harrierReportAccept 0) (tReports [.xlate 8 16 4 1, .failure 4 8 3])).kestrel 0).reports = [.xlate 8 16 4 1]
    ∧ ((tNext (.harrierReportAccept 0) (tReports [.fpTrap 8])).kestrel 0).cause = 9 := by decide +kernel
theorem test_report_fault : ((tNext (.harrierReportAccept 0) (tReports [.xlate 8 16 4 1])).kestrel 0).run = .faultStop
    ∧ ((tNext (.harrierReportAccept 0) (tReports [.xlate 8 16 4 1])).kestrel 0).pc = 8 := by decide +kernel
theorem test_watchdog : ((tNext (.watchdog 0) tJ).kestrel 0).ocause = 0xE := by decide +kernel
theorem test_timer : tJ.irqPend (tJ.kestrel 0) = 0
    ∧ (tDev.irqPend { Kestrel.reset with timecmp := 0 }).getLsbD 0 = true := by decide +kernel

/-! ### Kestrel memory -/

/-- A store with bytes 0x80 to 0x83 at 0x1000. -/
def tBytes : Mem := [(0x1000, 0x80), (0x1001, 0x81), (0x1002, 0x82), (0x1003, 0x83)]
/-- At J with g2 at those bytes. -/
def tLoad (level : BitVec 2) (g2 : Word) (buf : List StoreEntry) : State :=
  tWith { tCluster { Kestrel.reset with level := level, g := [(2, g2), (3, 0x55667788)], esp := 0x2000 } with store := tBytes, storeBuf := buf }
/-- A buffered store of one byte. -/
def tEntryByte : StoreEntry := { target := .store 0x1001, cacheable := false, aspace := 0, va := 0x1001, size := 1, data := 0x7F, gen := 0 }
theorem wit_load : Issues (tLoad 0 0x1000 []) 0 4 (tLoad 0 0x1000 []) ∧ 0x1000 % 8 = 0 ∧ 0x1000 + 8 ≤ shadowBase
    ∧ ((tLoad 0 0x1000 []).cluster 0).storeFails 0x1000 8 = false := by
  refine ⟨issues_of ?_, ?_⟩ <;> decide +kernel
theorem wit_load_edges : (shadowBase - 8) + 8 ≤ shadowBase ∧ (shadowBase - 8) % 8 = 0 ∧ 0x7FFFF8 % 8 = 0 ∧ shadowBase ≤ 0x7FFFF8
    ∧ 0x7FFFF8 < storeSize ∧ 0x1001 % 2 ≠ 0 := by decide +kernel
theorem test_load : tReg (.lb 0 1 2 0) (tLoad 0 0x1000 []) 1 = 0xFFFFFFFFFFFFFF80 ∧ tReg (.lbu 0 1 2 1) (tLoad 0 0x1000 []) 1 = 0x81
    ∧ tReg (.lh 0 1 2 2) (tLoad 0 0x1000 []) 1 = 0xFFFFFFFFFFFF8382 ∧ tReg (.lhu 0 1 2 2) (tLoad 0 0x1000 []) 1 = 0x8382 := by decide +kernel
theorem test_load_wide : tReg (.lw 0 1 2 0) (tLoad 0 0x1000 []) 1 = 0xFFFFFFFF83828180 ∧ tReg (.lwu 0 1 2 0) (tLoad 0 0x1000 []) 1 = 0x83828180
    ∧ tReg (.ld 0 1 2 0) (tLoad 0 0x1000 [tEntryByte]) 1 = 0x83827F80 := by decide +kernel
theorem test_load_misaligned : ((tNext (.lw 0 1 2 1) (tLoad 0 0x1000 [])).kestrel 0).cause = 4
    ∧ ((tNext (.lw 0 1 2 1) (tLoad 0 0x1000 [])).kestrel 0).tval = 0x1001 := by decide +kernel
theorem test_load_protected : ((tNext (.ld 0 1 2 0) (tLoad 0 0x7F4000 [])).kestrel 0).ocause = 6 := by decide +kernel

/-- A LIVE range of 64 KiB at 256 MiB, readable, writable and atomic, onto device memory at 1 MiB. -/
def tRange : RangeEntry :=
  { vbase := 0x10000000, length := 0x10000, target := 0x100000, gen := 1, type := 0, r := true, w := true, a := true, cacheable := false
    sealedR := false, counted := false, scratch := false, checkpoint := false, pinned := false, gran := 0, state := 0, cntIndex := 0 }
/-- Address space 0 with entries, over a state. -/
def tSpaced (es : List RangeEntry) (s : State) : State :=
  s.setSpace 0 { Space.reset with enabled := true, tableBase := 0x200000, genctr := 1, entries := es }
/-- At J with g2 in that range, and device memory with a word. -/
def tFar (g2 : Word) : State :=
  (tSpaced [tRange] (tLoad 0 g2 [])).withMem [(0x100000, 0x11), (0x100001, 0x22), (0x100002, 0x33), (0x100003, 0x94)]
/-- After the translation of an access of n bytes. -/
def tAfter (right : Right) (n : Nat) (s : State) : Access × State := s.access 0 .kestrel .mover right ((s.kestrel 0).get 2) n
/-- After the read behind it. -/
def tRead (n : Nat) (s : State) : Got × State := (tAfter .r n s).2.kestrelRead 0 0 0x10000000 (.device 0x100000) (some tRange) n
theorem wit_far : Issues (tFar 0x10000000) 0 4 (tFar 0x10000000) ∧ (Target.device 0x100000).isStore = false
    ∧ (tAfter .r 4 (tFar 0x10000000)).1 = .ok (.device 0x100000) (some tRange)
    ∧ (tRead 4 (tFar 0x10000000)).1 = .bytes [0x11, 0x22, 0x33, 0x94] := by
  refine ⟨issues_of ?_, ?_⟩ <;> decide +kernel
theorem wit_far_faults : (tAfter .r 4 (tFar 0x20000000)).1 = .fault ∧ (tAfter .r 4 (tFar 0xFFFFFFFFFFFFF000)).1 = .violation
    ∧ (tAfter .w 4 (tFar 0x20000000)).1 = .fault ∧ (tAfter .w 4 (tFar 0xFFFFFFFFFFFFF000)).1 = .violation := by decide +kernel
theorem test_far : tReg (.lw 0 1 2 0) (tFar 0x10000000) 1 = 0xFFFFFFFF94332211 := by decide +kernel
theorem test_far_fault : ((tNext (.lw 0 1 2 0) (tFar 0x20000000)).kestrel 0).run = .faultStop
    ∧ ((tNext (.lw 0 1 2 0) (tFar 0x20000000)).kestrel 0).cause = 5
    ∧ ((tNext (.lw 0 1 2 0) (tFar 0x20000000)).kestrel 0).tval = 0x20000000 := by decide +kernel
theorem wit_store : (tAfter .w 8 (tLoad 0 0x1000 [])).1 = .ok (.store 0x1000) none ∧ (tAfter .w 4 (tFar 0x10000000)).1
      = .ok (.device 0x100000) (some tRange)
    ∧ ((tAfter .w 8 (tLoad 0 0x1000 (List.replicate 16 tEntryByte))).2.cluster 0).storeBuf.length = 16 := by decide +kernel
theorem test_store : ((tNext (.sw 0 3 2 4) (tLoad 0 0x1000 [])).cluster 0).storeBuf
    = [{ target := .store 0x1004, cacheable := false, aspace := 0, va := 0x1004, size := 4, data := 0x55667788, gen := 0 }] := by decide +kernel
theorem test_store_full : ((tNext (.sb 0 3 2 0) (tLoad 0 0x1000 (List.replicate 16 tEntryByte))).cluster 0).storeBuf.length = 16
    ∧ Mem.read ((tNext (.sb 0 3 2 0) (tLoad 0 0x1000 (List.replicate 16 tEntryByte))).cluster 0).store 0x1001 = 0x7F := by decide +kernel
theorem test_store_misaligned : ((tNext (.sd 0 3 2 4) (tLoad 0 0x1000 [])).kestrel 0).cause = 4
    ∧ ((tNext (.sh 0 3 2 1) (tLoad 0 0x1000 [])).kestrel 0).cause = 4 := by decide +kernel
/-- A buffered word for device memory. -/
def tFarEntry : StoreEntry := { target := .device 0x100004, cacheable := false, aspace := 0, va := 0x10000004, size := 4, data := 0xAABBCCDD, gen := 1 }
theorem wit_drain : tEntryByte.size ∈ [1, 2, 4, 8] ∧ 0x1001 % tEntryByte.size = 0 ∧ Mem.wf ((tLoad 0 0 []).cluster 0).store = true
    ∧ ((tLoad 0 0 []).cluster 0).storeBad = [] ∧ (tFar 0).fencedUnit 0x100004 = none ∧ Mem.wf (tFar 0).memory.mem = true
    ∧ (tFar 0).entryAt 0 0x10000004 = some tRange ∧ tRange.counted = false ∧ (tFar 0).migration 0 0x10000004 = none := by decide +kernel
theorem test_drain : ((tFar 0).drainEntry 0 tFarEntry).readMem 0x100002 8 = [0x33, 0x94, 0xDD, 0xCC, 0xBB, 0xAA, 0, 0] := by decide +kernel

/-- At J with g2 = 0x1000 and g3 = -1, for atomics. -/
def tAtomic : State := tWith { tCluster { Kestrel.reset with level := 0, g := [(2, 0x1000), (3, -1)] } with store := tBytes }
theorem wit_atomic : Issues tAtomic 0 4 tAtomic ∧ ((tAtomic.drainStores 0).cluster 0).k.get 2 = 0x1000 ∧ 0x1000 + 8 ≤ shadowBase
    ∧ 0x83828180 = ofBytes (Mem.readBytes ((tAtomic.drainStores 0).cluster 0).store 0x1000 8)
    ∧ ((tAtomic.drainStores 0).cluster 0).storeFails 0x1000 8 = false ∧ Mem.wf ((tAtomic.drainStores 0).cluster 0).store = true
    ∧ ((tAtomic.drainStores 0).cluster 0).storeBad = [] := by
  refine ⟨issues_of ?_, ?_⟩ <;> decide +kernel
/-- The word at 0x1000 after an atomic, and g1. -/
def tSwap (i : Instr) (rd : BitVec 5) : Nat × Word :=
  (ofBytes (Mem.readBytes ((tNext i tAtomic).cluster 0).store 0x1000 8), tReg i tAtomic rd)
theorem test_atadd : tSwap (.atadd 0 1 2 3 0) 1 = (0x8382817F, 0x83828180) ∧ tSwap (.atadd 0 1 2 3 32) 1 = (0x8382817F, 0xFFFFFFFF83828180) := by
  decide +kernel
theorem test_atminmax : tSwap (.atmin 0 1 2 3 0) 1 = (0xFFFFFFFFFFFFFFFF, 0x83828180) ∧ tSwap (.atmax 0 1 2 3 0) 1 = (0x83828180, 0x83828180)
    ∧ tSwap (.atmin 0 1 2 3 32) 1 = (0x83828180, 0xFFFFFFFF83828180) := by decide +kernel
theorem test_atswp : tSwap (.atswp 0 1 2 3 32) 1 = (0xFFFFFFFF, 0xFFFFFFFF83828180) := by decide +kernel
theorem test_atcas : tSwap (.atcas 0 1 2 3 0) 1 = (0x83828180, 0x83828180) := by decide +kernel
theorem test_atfadd : tSwap (.atfadd 0 1 2 0 32) 1 = (0x83828180, 0xFFFFFFFF83828180) := by decide +kernel
theorem test_atomic_minor : ((tNext (.atadd 0 1 2 3 16) tAtomic).kestrel 0).ocause = 0x01061F ∧ 16 % 32 ≠ 0 := by decide +kernel

/-- A dirty line of the L1D at 256 MiB. -/
def tLine : L1Line :=
  { set := 0, way := 0, target := .device 0x100000, bytes := 0xAB, dirty := 1, pending := false, poison := false, aspace := 0, gen := 1
    held := [] }
/-- At S with g2 in a cacheable range whose line is held. -/
def tCached (level : BitVec 2) (g2 : Word) (l : L1Line) : State :=
  (tSpaced [{ tRange with cacheable := true }] (tWith { tCluster { Kestrel.reset with level := level, g := [(2, g2)], esp := 0x2000 } with
    l1d := [l] })).withMem [(0x100000, 0x11), (0x100001, 0x22)]
theorem wit_cache : Issues (tCached 1 0x10000000 tLine) 0 4 (tCached 1 0x10000000 tLine) ∧ (0x1000 : Word).toNat < storeSize
    ∧ storeSize ≤ (0x10000000 : Word).toNat ∧ (0x10000000 : Word).toNat < windowBase
    ∧ ((tCached 1 0x10000000 tLine).access 0 .mover .mover .r 0x10000000 1).1
      = .ok (.device 0x100000) (some { tRange with cacheable := true })
    ∧ ((((tCached 1 0x10000000 tLine).access 0 .mover .mover .r 0x10000000 1).2.drainStores 0).cluster 0).l1Find (.device 0x100000)
      = some tLine
    ∧ (((tCached 1 0 tLine).drainStores 0).cluster 0).l1d.find? (fun y => decide (y.set = 0) && decide (y.way = 0)) = some tLine
    ∧ tLine.pending = false ∧ ((tCached 1 0 tLine).kestrel 0).det = false ∧ ((tCached 0 0 tLine).kestrel 0).level = 0
    ∧ Mem.wf (tCached 1 0 tLine).memory.mem = true ∧ tLine.target = .device (64 * 0x4000) ∧ tLine.poison = false := by
  refine ⟨issues_of ?_, ?_⟩ <;> decide +kernel
theorem test_clean : (tNext (.clean 0 0 2 0) (tCached 0 0x10000000 tLine)).readMem 0x100000 2 = [0xAB, 0x22]
    ∧ ((tNext (.clean 0 0 2 0) (tCached 0 0x10000000 tLine)).cluster 0).l1d = [{ tLine with dirty := 0 }] := by decide +kernel
theorem test_inval : (tNext (.inval 0 0 2 0) (tCached 0 0x10000000 tLine)).readMem 0x100000 2 = [0x11, 0x22]
    ∧ ((tNext (.inval 0 0 2 0) (tCached 0 0x10000000 tLine)).cluster 0).l1d = [] := by decide +kernel
theorem test_clean_inval_sw : (tNext (.cleanInvalSw 0 0 2 0) (tCached 1 0 tLine)).readMem 0x100000 2 = [0xAB, 0x22]
    ∧ ((tNext (.cleanInvalSw 0 0 2 0) (tCached 1 0 tLine)).cluster 0).l1d = []
    ∧ ((tNext (.cleanSw 0 0 2 0) (tCached 0 0 tLine)).kestrel 0).cause = 3 := by decide +kernel
/-- A cluster whose mover has a request of the runtime. -/
def tQueued : State :=
  tWith { tCluster { Kestrel.reset with level := 1 } with queue := [⟨0x1000, 0x2000, 16, 0x3000, 0, 0, none, []⟩], store := tBytes }
/-- An outstanding request of cluster 0. -/
def tReq : PeerReq :=
  { tag := 7, dst := 3, mkind := .kestrel, cluster := 0, job := 0, purpose := .load 1 2, va := 0x10000000, sealedBlk := false, len := 4
    port := 0, work := none, answer := none, crc := 0, gen := 1 }
/-- A device with an outstanding store of cluster 0. -/
def tAwaits : State := { tRun 1 [] with fabric := { Fabric.reset with requests := [{ tReq with purpose := .store }] } }
theorem wit_fence : Issues (tRun 1 []) 0 4 (tRun 1 []) ∧ (((tRun 1 []).drainStores 0).cluster 0).queue = []
    ∧ ((tRun 1 []).drainStores 0).awaits 0 .kestrel = false ∧ ((tQueued.drainStores 0).cluster 0).queue ≠ []
    ∧ (tAwaits.drainStores 0).awaits 0 .kestrel = true := by
  refine ⟨issues_of ?_, ?_⟩ <;> decide +kernel
theorem test_fence : ((tNext (.fence 0 0 0 2) (tRun 1 [])).kestrel 0).pc = windowAt 0x204
    ∧ ((tNext (.fence 0 0 0 0) tQueued).kestrel 0).pc = windowAt 0x200 ∧ ((tNext (.fence 0 0 0 2) tAwaits).kestrel 0).pc = windowAt 0x200
    ∧ ((tNext (.fence 0 0 0 3) (tStack 1 0)).kestrel 0).cause = 2 := by decide +kernel

/-! ### System registers -/

theorem wit_mfsr : sysAccess 0x000 0 = some (true, false) ∧ sysAccess 0x001 0 = some (false, false) ∧ sysAccess 0x09F 0 = some (true, true)
    ∧ (tJ.slotBusy 0 15 = false) ∧ sysAccess 0x0A0 0 = none ∧ sysAccess 0x07F 1 = none ∧ tJ.sysWaits 0 0x0A0 = false := by decide +kernel
/-- Registers at S. -/
def tSys (level : BitVec 2) (g2 : Word) : State :=
  tWith { tCluster { Kestrel.reset with level := level, g := [(2, g2)], cause := 0x12, esp := 0x2000, ssp := 5, tval := 0x77 } with
    h := { Harrier.reset with vl := 9, vprogIndex := 3, vprogValid := true } }
theorem test_mfsr : tReg (.mfsr 0 1 0 0x000) (tSys 1 0) 1 = 1 ∧ tReg (.mfsr 0 1 0 0x001) (tSys 1 0) 1 = 0x12
    ∧ tReg (.mfsr 0 1 0 0x040) (tSys 1 0) 1 = 5 ∧ tReg (.mfsr 0 1 0 0x060) (tSys 1 0) 1 = 9 ∧ tReg (.mfsr 0 1 0 0x063) (tSys 1 0) 1 = 0x80000003
    ∧ tReg (.mfsr 0 1 0 0x006) (tSys 1 0) 1 = -1 := by decide +kernel
theorem test_mfsr_refused : ((tNext (.mfsr 0 1 0 0x001) (tSys 0 0)).kestrel 0).cause = 3
    ∧ ((tNext (.mfsr 0 1 0 0x007) (tSys 0 0)).kestrel 0).cause = 2 ∧ ((tNext (.mfsr 0 1 0 0x041) (tSys 1 0)).kestrel 0).cause = 3 := by
  decide +kernel
theorem wit_mtsr : sysAccess 0x000 1 = some (true, true) ∧ sysAccess 0x004 1 = some (true, false) ∧ sysAccess 0x040 1 = some (true, true)
    ∧ Issues (tSys 1 5) 0 4 (tSys 1 5) ∧ sysAccess 0x003 2 = some (true, true) := by
  refine ⟨?_, ?_, ?_, issues_of ?_, ?_⟩ <;> decide +kernel
theorem wit_mtsr_edges : (0x800000 : Word).toNat % 32 = 0 ∧ (0x800000 : Word).toNat ≤ 0x800000 ∧ ¬(0x800020 : Word).toNat ≤ 0x800000
    ∧ (2048 : Word).toNat ≤ 2048 ∧ ¬(2049 : Word).toNat ≤ 2048 ∧ (0x7FEFFFFFFFFFFFFF : Word).toNat < 0x7FF0000000000000 := by decide
theorem test_mtsr : ((tNext (.mtsr 0 0 2 0x000) (tSys 1 4)).kestrel 0).level = 0 ∧ ((tNext (.mtsr 0 0 2 0x000) (tSys 1 4)).kestrel 0).ie = true
    ∧ ((tNext (.mtsr 0 0 2 0x003) (tSys 1 0x800000)).kestrel 0).esp = 0x800000
    ∧ ((tNext (.mtsr 0 0 2 0x040) (tSys 1 2)).kestrel 0).ssp = 2 ∧ ((tNext (.mtsr 0 0 2 0x060) (tSys 1 2048)).cluster 0).h.vl = 2048 := by
  decide +kernel
theorem test_mtsr_refused : ((tNext (.mtsr 0 0 2 0x040) (tSys 1 6)).kestrel 0).cause = 2 ∧ ((tNext (.mtsr 0 0 2 0x060) (tSys 1 2049)).kestrel 0).cause = 2
    ∧ ((tNext (.mtsr 0 0 2 0x000) (tSys 0 4)).kestrel 0).cause = 3 ∧ ((tNext (.mtsr 0 0 2 0x010) (tSys 1 4)).kestrel 0).cause = 3 := by decide +kernel
theorem wit_special : Issues (tSys 1 9) 0 4 (tSys 1 9) ∧ ((tSys 1 9).kestrel 0).level = 1 ∧ (9 : Word).getLsbD 1 = false
    ∧ ((tSys 1 9).kestrel 0).ssp.toNat < 4096 ∧ Mem.wf ((tSys 1 9).cluster 0).store = true
    ∧ (9 : Word).toNat ∈ [1, 2, 3, 4, 9, 0xA, 0xF, 0x10] ∧ (((tSys 1 9).drainStores 0).kestrel 0).level = 1
    ∧ Mem.wf (((tSys 1 9).drainStores 0).cluster 0).store = true := by
  refine ⟨issues_of ?_, ?_⟩ <;> decide +kernel
theorem wit_special_else : (2 : Word).getLsbD 1 = true ∧ (5 : Word).toNat ∉ [1, 2, 3, 4, 9, 0xA, 0xF, 0x10] ∧ ((tSys 0 1).kestrel 0).level = 0 := by
  decide +kernel
theorem test_escalate : ((tNext (.escalate 0 0 2) (tSys 1 9)).kestrel 0).ocause = 0x0100091F
    ∧ ((tNext (.escalate 0 0 2) (tSys 1 9)).kestrel 0).otval = 0x77 ∧ ((tNext (.escalate 0 0 2) (tSys 1 5)).kestrel 0).cause = 2
    ∧ ((tNext (.escalate 0 0 2) (tSys 0 9)).kestrel 0).cause = 3 := by decide +kernel
theorem test_sspush : (tNext (.sspush 0 0 2) (tSys 1 0x1000)).shadowTop 0 = 0x1001
    ∧ ((tNext (.sspush 0 0 2) (tSys 1 0x1000)).kestrel 0).ssp = 6 := by decide +kernel
theorem test_mode : ((tNext (.modeDet 0 0 2) (tSys 1 1)).kestrel 0).det = true ∧ ((tNext (.modeDet 0 0 2) (tSys 1 2)).kestrel 0).cause = 2 := by
  decide +kernel
/-- The record of the OCAUSE example of 05_exceptions: SS_OVERFLOW while entering S for TRAPI at J. -/
theorem test_ocause : ((tNext (.trapi 0 0 0 1) (tNoRoom 0x4000 4096)).kestrel 0).ocause = 0x000F081F := by decide +kernel

/-! ### Harrier -/

/-- Fields of a vector instruction of a type: VD v3, VA v1, VB v2, span 1. -/
def tF (t : BitVec 4) : VFields :=
  { vd := 3, va := 1, vb := 2, vc := 0, pg := 0, pen := false, pz := false, span := 0, etype := t, etype2 := 0, gs := 0, rm := 0, imm8 := 0 }
/-- A register with 64-bit elements. -/
def tQ (l : List Nat) : BitVec 16384 := BitVec.ofNat 16384 (pack 64 l)
/-- A register with 32-bit elements. -/
def tD (l : List Nat) : BitVec 16384 := BitVec.ofNat 16384 (pack 32 l)
/-- A Harrier with v1, v2 and v3 at VL n. -/
def tH (a b d : BitVec 16384) (n : BitVec 12) : Harrier := { Harrier.reset with v := [(1, a), (2, b), (3, d)], vl := n, p := [(1, 0x4F)] }
/-- At J with that Harrier and g7 = 5. -/
def tV (a b d : BitVec 16384) (n : BitVec 12) : State :=
  tWith { tCluster { Kestrel.reset with level := 0, g := [(7, 5)], esp := 0x2000 } with h := tH a b d n }
/-- The first four 64-bit elements of v3 after an instruction. -/
def tOut (i : Instr) (s : State) : List Nat := ((tNext i s).cluster 0).h.elems 3 8 4
/-- Integers. -/
def tInts : State := tV (tQ [7, 0xFFFFFFFFFFFFFFFB, 1, 9]) (tQ [3, 2, 65, 9]) (tQ [100, 100, 100, 100]) 3
/-- Doubles: 1.0, -2.0, NaN, 0.5 and 3.0, 3.0, 1.0, 2^-1074. -/
def tReals : State :=
  tV (tQ [0x3FF0000000000000, 0xC000000000000000, 0x7FF8000000000001, 0x3FE0000000000000])
    (tQ [0x4008000000000000, 0x4008000000000000, 0x3FF0000000000000, 1]) (tQ [0, 0, 0, 0]) 4
theorem wit_vint : Issues tInts 0 8 tInts ∧ (tInts.kestrel 0).level ≠ 2 ∧ isInt 4 = true ∧ spanBad (tF 4) = false
    ∧ fieldsBad (arithUse (tF 4) false true) (tF 4) = false ∧ regsBad 3 1 [(1, 1), (2, 1)] = false
    ∧ fieldsBad (arithUse { tF 4 with vb := 0 } true false) { tF 4 with vb := 0 } = false := by
  refine ⟨issues_of ?_, ?_⟩ <;> decide +kernel
theorem wit_vint_edges : spanBad { tF 4 with span := 3, vd := 24, va := 24, vb := 0 } = false
    ∧ regsBad 24 8 [(24, 8), (0, 8)] = false ∧ regsBad 24 8 [(23, 8)] = true ∧ spanBad { tF 3 with span := 3 } = true := by decide +kernel
theorem test_vadd : tOut (.vadd 0 (tF 4)) tInts = [10, 0xFFFFFFFFFFFFFFFD, 66, 100]
    ∧ tOut (.vadd 0 { tF 4 with pz := true }) tInts = [10, 0xFFFFFFFFFFFFFFFD, 66, 0] := by decide +kernel
theorem test_vadd_pred : tOut (.vadd 0 { tF 4 with pen := true, pg := 1 }) (tV 0 (tQ [1, 1, 1, 1]) (tQ [9, 9, 9, 9]) 256)
    = [1, 1, 1, 1] ∧ tOut (.vadd 0 { tF 4 with pen := true, pg := 2 }) (tV 0 (tQ [1, 1, 1, 1]) (tQ [9, 9, 9, 9]) 256) = [9, 9, 9, 9] := by
  decide +kernel
theorem test_vsub : tOut (.vsub 0 (tF 4)) tInts = [4, 0xFFFFFFFFFFFFFFF9, 0xFFFFFFFFFFFFFFC0, 100] := by decide +kernel
theorem test_vmul : tOut (.vmul 0 (tF 4)) tInts = [21, 0xFFFFFFFFFFFFFFF6, 65, 100] := by decide +kernel
theorem test_vmulh : tOut (.vmulh 0 (tF 4)) tInts = [0, 0xFFFFFFFFFFFFFFFF, 0, 100] := by decide +kernel
theorem test_vminmax : tOut (.vmin 0 (tF 4)) tInts = [3, 0xFFFFFFFFFFFFFFFB, 1, 100] ∧ tOut (.vmax 0 (tF 4)) tInts = [7, 2, 65, 100] := by
  decide +kernel
theorem test_vbits : tOut (.vand 0 (tF 4)) tInts = [3, 2, 1, 100] ∧ tOut (.vor 0 (tF 4)) tInts = [7, 0xFFFFFFFFFFFFFFFB, 65, 100]
    ∧ tOut (.vxor 0 (tF 4)) tInts = [4, 0xFFFFFFFFFFFFFFF9, 64, 100] := by decide +kernel
theorem test_vshift : tOut (.vsll 0 (tF 4)) tInts = [56, 0xFFFFFFFFFFFFFFEC, 2, 100] ∧ tOut (.vsrl 0 (tF 4)) tInts = [0, 0x3FFFFFFFFFFFFFFE, 0, 100]
    ∧ tOut (.vsra 0 (tF 4)) tInts = [0, 0xFFFFFFFFFFFFFFFE, 0, 100] := by decide +kernel
theorem test_vunary : tOut (.vabs 0 { tF 4 with vb := 0 }) tInts = [7, 5, 1, 100]
    ∧ tOut (.vneg 0 { tF 4 with vb := 0 }) tInts = [0xFFFFFFFFFFFFFFF9, 5, 0xFFFFFFFFFFFFFFFF, 100] := by decide +kernel
theorem test_vabsd : tOut (.vabsd 0 (tF 4)) tInts = [4, 7, 64, 100] := by decide +kernel
theorem test_vadd_broadcast : tOut (.vadd 0 { tF 4 with vb := 0, gs := 7, imm8 := 1 }) tInts = [12, 0, 6, 100] := by decide +kernel
theorem test_vbad : ((tNext (.vadd 0 { tF 4 with vc := 1 }) tInts).kestrel 0).cause = 2
    ∧ ((tNext (.vadd 0 { tF 4 with vd := 31, span := 1 }) tInts).kestrel 0).cause = 2 := by decide +kernel
theorem wit_vfloat : Issues tReals 0 8 tReals ∧ (tReals.kestrel 0).level ≠ 2 ∧ isFloat 5 = true ∧ spanBad (tF 5) = false
    ∧ fieldsBad (arithUse (tF 5) false true) (tF 5) = false ∧ fieldsBad (arithUse { tF 5 with vb := 0 } true true) { tF 5 with vb := 0 } = false := by
  refine ⟨issues_of ?_, ?_⟩ <;> decide +kernel
theorem test_vfadd : tOut (.vadd 0 (tF 5)) tReals = [0x4010000000000000, 0x3FF0000000000000, 0x7FF8000000000000, 0x3FE0000000000000]
    ∧ ((tNext (.vadd 0 (tF 5)) tReals).cluster 0).h.vflags = 16 := by decide +kernel
theorem test_vfmul : tOut (.vmul 0 (tF 5)) tReals = [0x4008000000000000, 0xC018000000000000, 0x7FF8000000000000, 0]
    ∧ tOut (.vmul 0 { tF 5 with rm := 4 }) tReals = [0x4008000000000000, 0xC018000000000000, 0x7FF8000000000000, 1] := by decide +kernel
theorem test_vfminmax : tOut (.vmin 0 (tF 5)) tReals = [0x3FF0000000000000, 0xC000000000000000, 0x3FF0000000000000, 1]
    ∧ tOut (.vmax 0 (tF 5)) tReals = [0x4008000000000000, 0x4008000000000000, 0x3FF0000000000000, 0x3FE0000000000000] := by decide +kernel
theorem test_vdiv : tOut (.vdiv 0 (tF 5)) tReals = [0x3FD5555555555555, 0xBFE5555555555555, 0x7FF8000000000000, 0x7FF0000000000000]
    ∧ ((tNext (.vdiv 0 (tF 5)) tReals).cluster 0).h.vflags = 20 := by decide +kernel
theorem test_vsqrt : tOut (.vsqrt 0 { tF 5 with vb := 0 }) (tV (tQ [0x4010000000000000, 0xBFF0000000000000, 0x4000000000000000, 0]) 0 0 3)
    = [0x4000000000000000, 0x7FF8000000000000, 0x3FF6A09E667F3BCD, 0] := by decide +kernel
theorem test_vftz : tOut (.vmul 0 (tF 5)) { tReals with clusters := [(0, { (tReals.cluster 0) with
    h := { (tReals.cluster 0).h with vctl := 4 } })] } = [0x4008000000000000, 0xC018000000000000, 0x7FF8000000000000, 0] := by decide +kernel
theorem wit_vfma : arithType 5 = true ∧ fieldsBad { arithUse (tF 5) false true with vc := false } (tF 5) = false
    ∧ fieldsBad { arithUse { tF 5 with vc := 4 } false true with vc := true } { tF 5 with vc := 4 } = false
    ∧ regsBad 3 1 [(1, 1), (2, 1), (4, 1)] = false ∧ regsBad 8 8 [(1, 1), (2, 1)] = false := by decide +kernel
/-- a = [3.0, 3.0], b = [5.0, 5.0], d = [1.0, -15.0]. -/
def tFma : State := tV (tQ [0x4008000000000000, 0x4008000000000000]) (tQ [0x4014000000000000, 0x4014000000000000])
  (tQ [0x3FF0000000000000, 0xC02E000000000000]) 2
theorem test_vfma : tOut (.vfma 0 (tF 5)) tFma = [0x4030000000000000, 0, 0, 0] ∧ tOut (.vfms 0 (tF 5)) tFma = [0x402C000000000000, 0x403E000000000000, 0, 0]
    ∧ tOut (.vfnma 0 (tF 5)) tFma = [0xC02C000000000000, 0xC03E000000000000, 0, 0] := by decide +kernel
theorem test_vfmac : tOut (.vfmac 0 { tF 5 with vc := 2 }) tFma = [0x4034000000000000, 0x4034000000000000, 0, 0]
    ∧ tOut (.vfma 0 (tF 4)) (tV (tQ [3, 5]) (tQ [5, 7]) (tQ [1, 2]) 2) = [16, 37, 0, 0] := by decide +kernel
theorem test_vopa : tOut (.vopa 0 (tF 5)) tFma = [0x4030000000000000, 0, 0, 0] := by decide +kernel
theorem wit_vcmp : fieldsBad { arithUse (tF 5) false false with pz := false } (tF 5) = false ∧ (3 : BitVec 5).toNat < 8 ∧ 1 + 1 ≤ 32
    ∧ fieldsBad { arithUse { tF 4 with vd := 7 } false false with pz := false } { tF 4 with vd := 7 } = false := by decide +kernel
/-- The predicate p3 after a compare. -/
def tPred (i : Instr) (s : State) : BitVec 2048 := ((tNext i s).cluster 0).h.pred 3
theorem test_vcmp : tPred (.vcmpEq 0 (tF 4)) tInts = 0 ∧ tPred (.vcmpNe 0 (tF 4)) tInts = 7 ∧ tPred (.vcmpLt 0 (tF 4)) tInts = 6
    ∧ tPred (.vcmpLe 0 (tF 4)) tInts = 6 ∧ tPred (.vcmpGt 0 (tF 4)) tInts = 1 ∧ tPred (.vcmpGe 0 (tF 4)) tInts = 1 := by decide +kernel
theorem test_vcmp_nan : tPred (.vcmpNe 0 (tF 5)) tReals = 15 ∧ tPred (.vcmpLt 0 (tF 5)) tReals = 3
    ∧ ((tNext (.vcmpLt 0 (tF 5)) tReals).cluster 0).h.vflags = 1 ∧ ((tNext (.vcmpNe 0 (tF 5)) tReals).cluster 0).h.vflags = 0 := by decide +kernel
theorem wit_vcvt : fieldsBad (VUse.mk true true false false true true true true true false true 0x3F) { tF 10 with vb := 0, etype2 := 6, imm8 := 0x12 } = false
    ∧ spanOf { tF 10 with span := 2 } ≤ esize 6 ∧ regsBad 3 (regsFor 512 1) [(1, regsFor 512 4)] = false
    ∧ (tInts.slotBusy 0 2) = false := by decide +kernel
/-- The conversions of 08_formats' worked example, RM = RNE. -/
theorem test_convert_k4 : (convertElem 6 10 .rne false none 0x43960000).1 = 0x79 ∧ (convertElem 6 10 .rne false none 0x43FA0000).1 = 0x7E
    ∧ (convertElem 6 9 .rne false none 0x3DCCCCCD).1 = 0x2E ∧ (convertElem 6 10 .rne false none 0x3C23D70A).1 = 0x05
    ∧ (convertElem 6 10 .rne false none 0x7F800000).1 = 0x7F := by decide +kernel
theorem test_convert_f16 : (convertElem 6 7 .rne false none 0x35800000).1 = 0x0010 ∧ (convertElem 6 7 .rne true none 0x35800000).1 = 0
    ∧ (convertElem 6 8 .rne false none 0x3EAAAAAB).1 = 0x3EAB := by decide +kernel
theorem test_convert_flags : (convertElem 6 10 .rne false none 0x43960000).2 = { FFlags.none with nx := true }
    ∧ (convertElem 6 10 .rne false none 0x43FA0000).2 = { FFlags.none with of := true, nx := true }
    ∧ (convertElem 6 10 .rne false none 0x3C23D70A).2 = { FFlags.none with uf := true, nx := true }
    ∧ (convertElem 6 7 .rne false none 0x35800000).2 = FFlags.none
    ∧ (convertElem 6 10 .rne false none 0x7F800000).2 = { FFlags.none with nv := true } := by decide +kernel
/-- The DERIVE scales of 08_formats' worked example: 448 over 37.5 and over 61.0. -/
theorem test_derive : deriveExp (deriveMax 10) 0x4042C00000000000 0 = 3 ∧ deriveExp (deriveMax 10) 0x404E800000000000 0 = 2 := by decide +kernel
/-- A VCVT of four .f32 elements to .k4 that gathers into slot 2. -/
def tCvt : State := tV (tD [0x43960000, 0xC3FA0000, 0x3C23D70A, 0x3F800000]) 0 0 4
theorem test_vcvt : ((tNext (.vcvt 0 { tF 10 with vb := 0, etype2 := 6, imm8 := 0x12 }) tCvt).cluster 0).h.elems 3 1 5 = [0x79, 0xFE, 0x05, 0x38, 0]
    ∧ ((tNext (.vcvt 0 { tF 10 with vb := 0, etype2 := 6, imm8 := 0x12 }) tCvt).cluster 0).h.slot 2 = ⟨0x407F400000000000, false, false⟩ := by
  decide +kernel
theorem wit_vperm : fieldsBad (permUse true true false true false 0xFF) { tF 4 with vb := 0, imm8 := 1 } = false
    ∧ fieldsBad (permUse true true true true false 0) (tF 4) = false ∧ fieldsBad (permUse true false false true true 0) { tF 4 with va := 0, vb := 0, gs := 7 } = false
    ∧ fieldsBad (permUse true false false true true 0xFF) { tF 4 with va := 0, vb := 0, gs := 7, imm8 := 255 } = false
    ∧ fieldsBad { permUse false true false false true 0xFF with pz := false } { tF 4 with vd := 0, vb := 0, gs := 7, imm8 := 255 } = false
    ∧ (255 : Byte).toNat < epr 4 ∧ fieldsBad (permUse true true false true false 0) { tF 4 with vb := 0 } = false := by decide +kernel
theorem test_slide : ((slide (tF 4) 1 (tInts.cluster 0).h 0 0).drop 1).take 2 = [7, 0xFFFFFFFFFFFFFFFB]
    ∧ (slide (tF 4) (-1) (tInts.cluster 0).h 0 0).take 3 = [0xFFFFFFFFFFFFFFFB, 1, 9] := by decide +kernel
theorem test_vgather : tOut (.vgather 0 (tF 4)) (tV (tQ [10, 11, 12, 13]) (tQ [3, 0, 2]) 0 3) = [13, 10, 12, 0] := by decide +kernel
theorem test_compress : tOut (.compress 0 { tF 4 with vb := 0, pen := true, pg := 1 }) (tV (tQ [10, 11, 12, 13, 14, 15, 16]) 0 (tQ [9, 9, 9, 9, 9, 9]) 7)
    = [10, 11, 12, 13] ∧ ((tNext (.compress 0 { tF 4 with vb := 0, pen := true, pg := 1 }) (tV (tQ [10, 11, 12, 13, 14, 15, 16]) 0
      (tQ [9, 9, 9, 9, 9, 9]) 7)).cluster 0).h.elem 3 8 4 = 16 := by decide +kernel
theorem test_moves : tOut (.bcast 0 { tF 4 with va := 0, vb := 0, gs := 7 }) tInts = [5, 5, 5, 100]
    ∧ tOut (.mvto 0 { tF 4 with va := 0, vb := 0, gs := 7, imm8 := 1 }) tInts = [100, 5, 100, 100]
    ∧ tReg (.mvg 0 { tF 4 with vd := 0, vb := 0, gs := 9, imm8 := 1 }) tInts 9 = -5 := by decide +kernel
theorem wit_vpred : predBad { tF 0 with vd := 2, va := 1, vb := 1 } true true false = false ∧ predBad { tF 0 with vd := 0, va := 1, vb := 0, gs := 9 } false false true = false
    ∧ predBad { tF 0 with vd := 2, va := 1, vb := 0 } true false false = false
    ∧ fieldsBad (VUse.mk true true false false false false true true false false false 0) { tF 5 with vb := 0, span := 3 } = false := by decide +kernel
theorem test_vpred : ((tNext (.vpnot 0 { tF 0 with vd := 2, va := 1, vb := 0 }) tInts).cluster 0).h.pred 2 = ~~~ 0x4F#2048
    ∧ ((tNext (.vpand 0 { tF 0 with vd := 2, va := 1, vb := 3 }) tInts).cluster 0).h.pred 2 = 0
    ∧ ((tNext (.vpor 0 { tF 0 with vd := 2, va := 3, vb := 1 }) tInts).cluster 0).h.pred 2 = 0x4F := by decide +kernel
/-- VSETVL with 2,000 in g4 and .f64 at span 8, as 06_harrier's worked example. -/
theorem test_vsetvl : tReg (.vsetvl 0 { tF 5 with vd := 5, va := 4, vb := 0, span := 3 }) (tRun 0 [(4, 2000)]) 5 = 2000
    ∧ tReg (.vsetvl 0 { tF 5 with vd := 5, va := 4, vb := 0 }) (tRun 0 [(4, 2000)]) 5 = 256 := by decide +kernel
theorem wit_vred : fieldsBad (VUse.mk true true true false true true true true false false false 0) { tF 4 with pen := true, pg := 1 } = false
    ∧ regsBad 3 1 [(1, 1), (2, 1)] = false := by decide +kernel
theorem test_vred : tOut (.vredsum 0 (tF 4)) tInts = [6, 100, 100, 100] ∧ tOut (.vredmax 0 (tF 4)) tInts = [7, 100, 100, 100]
    ∧ tOut (.vredmin 0 (tF 4)) tInts = [0xFFFFFFFFFFFFFFFB, 100, 100, 100] := by decide +kernel
theorem test_vred_bits : tOut (.vredand 0 { tF 4 with pz := true }) tInts = [1, 0, 0, 0] ∧ tOut (.vredor 0 (tF 4)) tInts = [0xFFFFFFFFFFFFFFFF, 100, 100, 100]
    ∧ tOut (.vredxor 0 (tF 4)) tInts = [0xFFFFFFFFFFFFFFFE, 100, 100, 100] := by decide +kernel
/-- The tree of 06_harrier's worked example: bits 0-3 and 6 of the predicate, VL 7, VB[0] = 0.0. -/
theorem test_vredsum_tree : (tOut (.vredsum 0 { tF 5 with pen := true, pg := 1 })
    (tV (tQ [0x4340000000000000, 0x3FF0000000000000, 0x3FF0000000000000, 0x3FF0000000000000, 1, 1, 0xC340000000000000]) 0 0 7)).headD 0
    = 0x4000000000000000 := by decide +kernel

/-- At J with g7 at 0x1000, and the store bytes there. -/
def tVm (g7 : Word) (h : Harrier) : State :=
  tWith { tCluster { Kestrel.reset with level := 0, g := [(7, g7), (8, 16)], esp := 0x2000 } with store := tBytes, h := h }
/-- The fields of a load or store of 64-bit elements into v3. -/
def tM : VFields := { tF 4 with va := 0, vb := 0, gs := 7 }
theorem wit_vmem : Issues (tVm 0x1000 (tH 0 0 0 2)) 0 8 (tVm 0x1000 (tH 0 0 0 2)) ∧ ((tVm 0x1000 (tH 0 0 0 2)).cluster 0).storeBad = []
    ∧ spanBad tM = false ∧ fieldsBad (memUse false false false 0) tM = false ∧ pastEnd 3 1 = false
    ∧ fieldsBad (memUse true false false 0) tM = false ∧ fieldsBad (memUse false false true 0) { tM with vc := 8 } = false
    ∧ fieldsBad (memUse true false true 0) { tM with vc := 8 } = false
    ∧ fieldsBad (memUse false true false 3) { tM with vb := 2, imm8 := 3 } = false ∧ regsBad 3 1 [(2, regsFor 256 8)] = false
    ∧ fieldsBad (memUse true true false 3) { tM with vb := 2, imm8 := 3 } = false
    ∧ fieldsBad (memUse false false false 7) { tM with imm8 := 7 } = false ∧ pastEnd 3 8 = false
    ∧ fieldsBad (memUse true false false 7) { tM with imm8 := 1 } = false := by
  refine ⟨issues_of ?_, ?_⟩ <;> decide +kernel
theorem wit_vmem_places : (∀ e k, e < positions tM → (active (tH 0 0 0 2) tM e = true) → k < 1 →
    ((0x1000 : Word) + BitVec.ofNat 64 (8 * e)).toNat % 8 = 0 ∧ ((0x1000 : Word) + BitVec.ofNat 64 (8 * e)).toNat + 8 ≤ shadowBase) := by
  intro e k _ h _
  have : e < 2 := by simpa [active, tM, tF, tH] using h
  have he : e = 0 ∨ e = 1 := by omega
  rcases he with rfl | rfl <;> decide
theorem test_vld : tOut (.vld 0 tM) (tVm 0x1000 (tH 0 0 (tQ [9, 9, 9]) 2)) = [0x83828180, 0, 9, 0]
    ∧ tOut (.vlds 0 { tM with vc := 8 }) (tVm 0xFF0 (tH 0 0 (tQ [9, 9, 9]) 2)) = [0, 0x83828180, 9, 0] := by decide +kernel
theorem test_vldx : tOut (.vldx 0 { tM with vb := 2, imm8 := 3 }) (tVm 0x1008 (tH 0 (tQ [0xFFFFFFFFFFFFFFFF, 1]) (tQ [9, 9, 9]) 2))
    = [0x83828180, 0, 9, 0] := by decide +kernel
theorem test_vldseg : tOut (.vldseg 0 { tM with imm8 := 1 }) (tVm 0xFF0 (tH 0 0 (tQ [9, 9, 9]) 2)) = [0, 0x83828180, 9, 0]
    ∧ ((tNext (.vldseg 0 { tM with imm8 := 1 }) (tVm 0xFF0 (tH 0 0 (tQ [9, 9, 9]) 2))).cluster 0).h.elems 4 8 3 = [0, 0, 0] := by decide +kernel
/-- Words of the store of cluster 0 after a vector store. -/
def tWords (i : Instr) (s : State) (a : Nat) : List Nat :=
  [ofBytes (Mem.readBytes ((tNext i s).cluster 0).store a 8), ofBytes (Mem.readBytes ((tNext i s).cluster 0).store (a + 8) 8)]
theorem test_vst : tWords (.vst 0 tM) (tVm 0x1000 (tH 0 0 (tQ [5, 6, 7]) 2)) 0x1000 = [5, 6]
    ∧ tWords (.vsts 0 { tM with vc := 8 }) (tVm 0x1000 (tH 0 0 (tQ [5, 6, 7]) 2)) 0x1000 = [5, 0] := by decide +kernel
theorem test_vstx : tWords (.vstx 0 { tM with vb := 2, imm8 := 3 }) (tVm 0x1000 (tH 0 (tQ [1, 1]) (tQ [5, 6, 7]) 2)) 0x1000 = [0x83828180, 6]
    ∧ tWords (.vstseg 0 { tM with imm8 := 1 }) (tVm 0x1000 (tH 0 0 (tQ [5, 6, 7]) 1)) 0x1000 = [5, 0] := by decide +kernel
theorem wit_vstop : Issues (tVm 0x1001 (tH 0 0 0 2)) 0 8 (tVm 0x1001 (tH 0 0 0 2)) ∧ ((tVm 0x1001 (tH 0 0 0 2)).g 0 7).toNat % 8 ≠ 0
    ∧ active (tH 0 0 0 2) tM 0 = true ∧ (tH 0 0 0 2).vprogValid = false := by
  refine ⟨issues_of ?_, ?_⟩ <;> decide +kernel
theorem test_vstop : ((tNext (.vld 0 tM) (tVm 0x1001 (tH 0 0 0 2))).kestrel 0).reports = [.failure 4 (windowAt 0x200) 0x1001]
    ∧ ((tNext (.vst 0 tM) (tVm 0x1001 (tH 0 0 0 2))).cluster 0).h.vprogValid = true := by decide +kernel
/-- A pending line with one dirty byte. -/
def tPending : State := tCached 1 0x10000000 { tLine with pending := true }
theorem wit_fill : (tPending.cluster 0).l1d.find? (fun y => decide (y.set = 0 ∧ y.way = 0)) = some { tLine with pending := true }
    ∧ (tPending.cluster 0).l1Find tLine.target = some { tLine with pending := true } := by decide +kernel
theorem test_fill : ((tNext (.l1dFill 0 0 0) tPending).cluster 0).l1Find tLine.target = some { tLine with bytes := 0x22AB } := by decide +kernel
theorem wit_walk : (tFar 0).ready = true ∧ ((tFar 0).cluster 0).job.isSome = true ∧ (tFar 0).entryAt ((tFar 0).aspOf 0) 0x10000000 = some tRange
    ∧ tRange.state = 0 ∧ (((tFar 0).cluster 0).rangeCache .harrierLoad) = [] := by decide +kernel
theorem test_walk : ((tNext (.walk 0 .harrierLoad 0x10000000) (tFar 0)).cluster 0).loadCache = [(0, tRange)] := by decide +kernel

/-! ### Hearth -/

/-- Fields of an .i8 MMA of span 1 into t3 with a promotion every step, and of an .e4m3 by .f16 one. -/
def tI8 : VFields := tF 0
theorem wit_mma : Issues tInts 0 8 tInts ∧ hearthBad tI8 = false ∧ mmaTypes 0 0 = true ∧ tI8.imm8.toNat < 64 ∧ pastEnd 1 1 = false
    ∧ (tInts.cluster 0).m.isOpen = false ∧ (tInts.cluster 0).m.hctl = 0 := by
  refine ⟨issues_of ?_, ?_⟩ <;> decide +kernel
theorem wit_mma_edges : hearthBad { tF 10 with span := 3, imm8 := 0x3F, gs := 7, va := 24, vb := 0, etype2 := 10 } = false
    ∧ mmaTypes 10 10 = true ∧ isStorage 10 = true ∧ mmaTypes 6 6 = true ∧ mmaTypes 7 7 = true ∧ mmaTypes 8 8 = true ∧ mmaTypes 7 8 = false
    ∧ hearthBad { tF 6 with etype2 := 6 } = false ∧ pastEnd 24 8 = false ∧ pastEnd 25 8 = true := by decide +kernel
theorem wit_acc : accBad { tF 0 with va := 0, vb := 0 } true false = false ∧ accBad { tF 0 with vd := 0, va := 0, vb := 0 } false false = false
    ∧ accBad { tF 0 with vd := 0, va := 0, vb := 0, gs := 7 } false true = false ∧ moveBad { tF 6 with vb := 0, imm8 := 7 } = false
    ∧ moveBad { tF 3 with vb := 0, imm8 := 0, span := 3 } = false ∧ moveBad { tF 3 with vb := 0, imm8 := 1, span := 3 } = true := by
  decide +kernel
/-- The rounding generator, promotion and steps of 07_hearth's worked example. -/
theorem test_lfsr : (List.range 3).map (lfsrSeed 0 0 0) = [0x0001, 0xE78E, 0xCF1C]
    ∧ lfsrNext 0xE78E = 0x73C7 ∧ lfsrNext 0x73C7 = 0x8DE3 ∧ lfsrNext 0x8DE3 = 0xF2F1 ∧ lfsrNext 0xF2F1 = 0xCD78 ∧ lfsrNext 0xCD78 = 0x66BC
    ∧ lfsrNext 0x66BC = 0x335E ∧ lfsrNext 0x335E = 0x19AF ∧ lfsrNext 0x19AF = 0xB8D7 ∧ lfsrNext 0xB8D7 = 0xE86B := by decide +kernel
theorem test_p20 : p20Step 0 (.fin false 3 (-1)) false (some 0xE78E) = (0x3FC00, 0)
    ∧ p20Step 0x3FC00 (.fin false 11 (-14)) false (some 0x73C7) = (0x3FC01, 0)
    ∧ p20Step 0 (.fin false 1 (-2)) false (some 0x335E) = (0x3E800, 0)
    ∧ p20Step 0x3E800 (.fin false 3 (-15)) false (some 0xB8D7) = (0x3E801, 0) := by decide +kernel
theorem test_promote : promoteCell 10 false 0 0x40400000 0x3FC01 = (0x40900400, 0)
    ∧ promoteCell 10 false 0 0x40900400 0x3E801 = (0x40980500, 0) ∧ promoteCell 0 false 0 5 0xFFFFE = (3, 0) := by decide +kernel
theorem test_products : stepSum [product 0 0 0xFF 0x80, product 0 0 2 3, product 0 0 0 9, product 0 0 1 1] = (.fin false 135 0, false)
    ∧ stepSum [product 7 7 0x3C00 0x4000, product 7 7 0xBC00 0x3C00, product 7 7 0 0, product 7 7 0x7C00 0] = (.nan false, true) := by
  decide +kernel
theorem test_acc : (((tNext (.accZero 0 { tF 0 with va := 0, vb := 0 }) { tInts with clusters := [(0, { tInts.cluster 0 with
        m := { Hearth.reset with isOpen := true, openTile := 3, steps := 1, partials := 9, tiles := [(3, 7), (4, 8)] } })] }).cluster 0).m.isOpen,
      ((tNext (.accZero 0 { tF 0 with va := 0, vb := 0 }) { tInts with clusters := [(0, { tInts.cluster 0 with
        m := { Hearth.reset with tiles := [(3, 7), (4, 8)] } })] }).cluster 0).m.tile 3) = (false, 0) := by
  decide +kernel

/-! ### Rings, doorbells, events and messages -/

/-- Rings 0, 3, the event ring and the fault ring of 16, 64, 16 and 16 slots; MSI-X enabled on the PF. -/
def tRings : State := { tDev with
  setup := { Setup.reset with regs := [(0x40048, 0x80010004), (0x40058, 0x80020004), (0x41008, 0x80000004), (0x41038, 0x80030006), (0x4103C, 0x7D00007)] }
  host := { tDev.host with msixEnable := 1, msix := [(0, ⟨0xFEE00000, 9, false, false⟩), (1, ⟨0xFEE00000, 1, false, false⟩), (2, ⟨0xFEE00000, 2, false, false⟩), (3, ⟨0xFEE00000, 3, false, false⟩)] } }
/-- A doorbell line with PRODUCER p and SEQ 1 for its first stream. -/
def tWords8 (p : Nat) : Line := BitVec.ofNat 512 (p + 2 ^ 32)
theorem wit_doorbell : tRings.ready = true ∧ (∃ st ∈ lineStreams 0, (tRings.stream st).enabled = true)
    ∧ (∀ p ∈ lineWords 0 (tWords8 4), (tRings.stream p.1).enabled = true → (tRings.stream p.1).halted = false
      ∧ (p.2.producer - (tRings.stream p.1).readIdx).toNat ≤ 2 ^ (tRings.stream p.1).log2Size.toNat)
    ∧ (tRings.stream 0).seqActed ≠ some (⟨5, 1⟩ : DoorbellWord).seq ∧ 2 ^ (tRings.stream 0).log2Size.toNat < (5 - (tRings.stream 0).readIdx).toNat := by
  refine ⟨?_, ⟨0, ?_, ?_⟩, ?_, ?_, ?_⟩ <;> decide +kernel
theorem test_doorbell : ((tNext (.doorbellPoll 0 (.data (tWords8 4))) tRings).stream 0).producer = 4
    ∧ ((tNext (.doorbellPoll 0 (.data (tWords8 5))) tRings).stream 0).haltReason = 2
    ∧ (lineWords 511 (BitVec.ofNat 512 (2 ^ 480 * 9 + 2 ^ 448 * 3)))[7]? = some (4095, ⟨3, 9⟩) := by decide +kernel
/-- Stream 0 with a doorbell at 4, and two posted descriptors. -/
def tPosted : State := tRings.setStream 0 { tStream with producer := 4, readIdx := 0 }
/-- A NOP with TAG 7, and one with a nonzero payload byte. -/
def tNop : Line := 0x70000#512
def tBadNop : Line := 0x70000#512 ||| (1#512 <<< 200)
theorem wit_fetch : tPosted.canRead 0 = true ∧ (tPosted.stream 0).readIdx ≠ (tPosted.stream 0).producer ∧ tPosted.leftUnread 0 (descNum tNop 0 0 8) = false
    ∧ tPosted.leftUnread 0 (descNum tBadNop 0 0 8) = false ∧ (tPosted.stream 0).startPending = false ∧ tPosted.hasJob 0 = true
    ∧ tPosted.descError false false 0 (tPosted.maxClOf 0) tNop = none ∧ tPosted.descError false false 0 (tPosted.maxClOf 0) tBadNop = some 25 := by
  decide +kernel
theorem wit_fetch_many : [tNop, tNop].length ≤ min 8 (min (2 ^ (tPosted.stream 0).log2Size.toNat - 0) 4)
    ∧ (tPosted.stream 0).descs.length + [tNop, tNop].length ≤ 32 ∧ descNum tNop 0 0 8 ≠ opJobStart ∧ descNum tNop 0 0 8 ≠ opPeriodMark
    ∧ (tPosted.stream 0).descs.length < 32 ∧ (tPosted.stream 0).periodic = false := by decide +kernel
theorem test_fetch : ((tNext (.descriptorFetch 0 (.data [tNop, tNop])) tPosted).stream 0).descs = [tDesc 0 tNop, tDesc 1 tNop]
    ∧ ((tNext (.descriptorFetch 0 (.data [tBadNop])) tPosted).stream 0).halted = true
    ∧ (tNext (.descriptorFetch 0 (.data [])) tPosted).out = [.hostRead 0 0x1000 256] := by decide +kernel
/-- Stream 7 of job 5 as its TIMESTAMP at index 261 completes in 03_rings' worked example. -/
def tStamp : State := { tRings with
  tick := 104300
  sched := { tRings.sched with
    jobs := [(5, some tJob)]
    rings := [(3, ⟨71, 67, 4, 103100⟩)]
    streams := [(7, { tStream with job := 5, cring := 3, descs := [{ tDesc 261 0x01050004 with phase := .running }] })] } }
theorem wit_record : (tStamp.stream 7).notices = [] ∧ (tStamp.stream 7).descs = [{ tDesc 261 0x01050004 with phase := .running }]
    ∧ (tStamp.stream 7).restartHeld = false ∧ tStamp.ringRoom (cring 3) = true ∧ (tDesc 261 0x01050004).norec = false
    ∧ (tDesc 0 0x400).norec = true ∧ (tRings.setStream 0 { tStream with descs := [tDesc 0 tNop] }).ringRoom (cring 1) = false := by decide +kernel
theorem test_record : (tStamp.finish 7 261 0 0).out = [.completionRecord 3 0 (BitVec.ofNat 64 (32 * 7)) 7
    (0x0000976C00000000000000000105#256 <<< 0 &&& 0 ||| (7#256 ||| (4#256 <<< 24) ||| (0x105#256 <<< 32) ||| (5#256 <<< 48) ||| (261#256 <<< 64)
      ||| (0x1976C#256 <<< 128)))] := by decide +kernel
/-- An event and a fault that wait for their records, and a record held for stream 0. -/
def tEvent : Event := { type := 1, coalesced := false, tick := 9, source := 3, payload := 0x1234 }
def tFault : FaultInfo :=
  { id := 1, stream := 0, job := 0, access := 0, va := 0x5000, aspace := 0, master := 1, cluster := some 2, period := 0, tick := 8
    length := 8, idx := some 0, written := false, outstanding := true }
def tHeld : State := { tRings with sched := { tRings.sched with events := [tEvent], faults := [tFault] } }
theorem wit_held : tHeld.ready = true ∧ tHeld.sched.events = [tEvent] ∧ tHeld.sched.eventsHeld = [] ∧ tEvent.type ≠ 5
    ∧ tHeld.ringRoom eventRing = true ∧ tHeld.sched.faults = [tFault] ∧ tFault.written = false ∧ tHeld.ringRoom faultRing = true
    ∧ tDev.ringRoom eventRing = false ∧ tDev.ringRoom faultRing = false ∧ tDev.ready = true := by decide +kernel
theorem wit_held_stream : tRings.ready = true ∧ (0 : RingId).val < 256 ∧ tRings.ringStreams 0 = [0] ∧ (tRings.stream 0).phase ≠ .dropping := by
  decide +kernel
theorem test_held : (tNext (.heldRecordWrite eventRing) tHeld).out = [.eventRecord 0 0 (1#512 ||| (9#512 <<< 64) ||| (0x1234#512 <<< 128)
      ||| (0x80#512 <<< 504)), .msix 0 1 0xFEE00000 1]
    ∧ (tNext .faultRecordWrite tHeld).sched.faults = [{ tFault with written := true }] := by decide +kernel
/-- With vector 3 pending, and with ring 0 holding an unsignalled record. -/
def tPend : State := { tRings with host := { tRings.host with msix := [(3, ⟨0xFEE00000, 3, false, true⟩)] } }
theorem wit_msix : tRings.host.msixEnable.getLsbD 0 = true ∧ tRings.host.msixMask.getLsbD 0 = false ∧ (tRings.msix 0 3).masked = false
    ∧ (tRings.msix 0 9).masked = true ∧ tRings.hostAnswers = true ∧ (tPend.msix 0 3).pending = true ∧ tPend.host.msixEnable.getLsbD 0 = true
    ∧ tPend.host.msix = [(msixKey 0 3, ⟨0xFEE00000, 3, false, true⟩)] ∧ tPend.hostAnswers = true ∧ (tRings.msix 0 3).pending = false := by
  decide +kernel
theorem test_msix : (tNext (.vectorUnmask 0 3) tPend).out = [.msix 0 3 0xFEE00000 3]
    ∧ (tNext (.msixRelease 0 true false) tPend).host.msix = [(3, ⟨0xFEE00000, 3, false, false⟩)]
    ∧ (tNext (.msixRelease 0 false false) tPend).host.msixEnable = 0 := by decide +kernel
/-- Ring 0 with COAL.TIME 9 and two unsignalled records, the oldest of tick 1, at a tick. -/
def tCoal (tick : Word) : State :=
  let s := tRings.setRing 0 ⟨5, 0, 2, 1⟩
  { s with tick := tick, setup := { s.setup with regs := (0x4100C, 0x90000) :: s.setup.regs } }
theorem wit_coalesce : (tCoal 10).ready = true ∧ (tCoal 10).ringEnabled (cring 0) = true ∧ 0 < ((tCoal 10).ring (cring 0)).unsignalled
    ∧ (bitsAt ((tCoal 10).reg (ringBaseOff (cring 0) + 12)) 16 16).toNat = 9 := by decide +kernel
theorem test_coalesce : (tNext (.coalesceTimeout 0) (tCoal 10)).out = [.msix 0 0 0xFEE00000 9] ∧ (tNext (.coalesceTimeout 0) (tCoal 9)).out = [] := by
  decide +kernel
/-- Ring 3 with four of its 64 slots free. -/
def tFull : State := tRings.setRing 3 ⟨60, 0, 0, 0⟩
theorem wit_stale : tFull.ready = true ∧ tFull.ringEnabled 3 = true ∧ 4 * (tFull.ringSize 3 - ((tFull.ring 3).k - (tFull.ring 3).head).toNat) < tFull.ringSize 3
    ∧ tRings.ringSize 3 ≤ 4 * (tRings.ringSize 3 - ((tRings.ring 3).k - (tRings.ring 3).head).toNat) := by decide +kernel
theorem wit_reads : tRings.ready = true ∧ tRings.ringEnabled 3 = true ∧ tRings.ringEnabled 1 = false ∧ (tRings.stream 0).enabled = true
    ∧ (tRings.stream 0).halted = false ∧ ((tRun 0 []).cluster 0).job.isSome = true ∧ (tRun 0 []).ready = true := by decide +kernel
theorem test_reads : ((tNext (.headReread 3 (.data 50)) tFull).ring 3).head = 50 ∧ ((tNext (.headReread 3 (.data 50)) tRings).ring 3).head = 0
    ∧ (tNext (.headReread 3 (.error .ur)) tFull).host.ringErr = 8 ∧ (tNext (.completionTimeout (.headWord 3)) tRings).host.errKind = 4
    ∧ ((tNext (.completionTimeout (.ringSlots 0)) tRings).stream 0).haltReason = 3 := by decide +kernel

/-! ### Descriptors and jobs -/

/-- A line with values at byte offsets. -/
def tLineOf (l : List (Nat × Nat)) : Line := BitVec.ofNat 512 ((l.map (fun p => p.2 * 2 ^ (8 * p.1))).sum)
/-- Stream 0 of a running job with one fetched descriptor. -/
def tFetched (bits : Line) : State := tRings.setStream 0 { tStream with descs := [tDesc 0 bits] }
theorem begins_of {s : State} {st : StreamId} {idx : W32} {op : Nat} {d : Desc}
    (h : s.beginning st idx op = some d ∧ (s.stream st).periodic = false
      ∧ firstBad ((begunState s st idx).payloadChecks ((begunState s st idx).maxClOf st) d.bits) = none) : Begins st idx op d s :=
  ⟨h.1, fun _ p => (by rw [h.2.1] at p; cases p), h.2.2⟩
theorem goesOn_of {s : State} {st : StreamId} {idx : W32} {op : Nat} {d : Desc}
    (h : s.desc st idx = some d ∧ d.phase = .running ∧ d.opcode = op ∧ s.ready = true ∧ (s.stream st).phase ≠ .dropping) :
    GoesOn st idx op d s := ⟨h.1, h.2.1, h.2.2.1, h.2.2.2.1, h.2.2.2.2⟩
/-- A periodic stream in period 1 whose descriptor belongs to period 0. -/
def tLate : State := tRings.setStream 0 { tStream with periodic := true, periodOpen := true, current := 1, position := 1, descs := [tDesc 0 tNop] }
/-- A stream with a fetched descriptor before another, in a suspended fault, dropping, and without room on its ring. -/
def tBehind : State := tRings.setStream 0 { tStream with descs := [tDesc 0 tNop, tDesc 1 0x100] }
theorem wit_begin : (tFetched tNop).ready = true ∧ ((tFetched tNop).stream 0).enabled = true ∧ ((tFetched tNop).stream 0).restartHeld = false
    ∧ (tFetched tNop).desc 0 0 = some (tDesc 0 tNop) ∧ (tDesc 0 tNop).phase = .fetched ∧ (tFetched tNop).job 0 = some tJob ∧ tJob.phase = .running
    ∧ tJob.ended.contains 0 = false ∧ (tFetched tNop).heldBySave 0 = false ∧ (tDesc 0 tNop).opcode ≠ 1 ∧ (tFetched tNop).ringRoom (cring 0) = true
    ∧ before32 (tDesc 0 tNop).period (tLate.stream 0).current = true ∧ (tLate.stream 0).periodic = true ∧ tLate.desc 0 0 = some (tDesc 0 tNop)
    ∧ before32 (tLate.stream 0).current (tDesc 0 tNop).period = false ∧ tLate.ringRoom (cring 0) = true ∧ tBehind.desc 0 1 = some (tDesc 1 0x100)
    ∧ (tDesc 1 0x100).wait = true ∧ before32 (0 : W32) 1 = true := by
  decide +kernel
theorem test_late : (tNext (.nop 0 0) tLate) = tLate.finish 0 0 0x10 0 ∧ ((tNext (.nop 0 0) tLate).stream 0).descs = []
    ∧ tNext (.nop 0 1) tBehind = tBehind := by decide +kernel
/-- FENCE with SCOPE 0, TIMESTAMP without and with DEST_VA, PERIOD_MARK and CODE_SYNC. -/
def tFence : Line := 3
def tFenceHost : Line := tLineOf [(0, 3), (16, 1)]
def tFenceCross : Line := tLineOf [(0, 3), (18, 1), (19, 0x80), (20, 5)]
theorem wit_controls : Begins 0 0 0 (tDesc 0 tNop) (tFetched tNop) ∧ Begins 0 0 3 (tDesc 0 tFence) (tFetched tFence)
    ∧ Begins 0 0 3 (tDesc 0 tFenceHost) (tFetched tFenceHost) ∧ Begins 0 0 4 (tDesc 0 4) (tFetched 4) ∧ Begins 0 0 5 (tDesc 0 5) (tFetched 5)
    ∧ Begins 0 0 6 (tDesc 0 6) (tFetched 6) := by
  refine ⟨begins_of ?_, begins_of ?_, begins_of ?_, begins_of ?_, begins_of ?_, begins_of ?_⟩ <;> decide +kernel
theorem test_controls : (tNext (.fenceDescriptor 0 0) (tFetched tFenceHost)).out.head? = some (.hostRead 0 0 4)
    ∧ ((tNext (.timestamp 0 0) (tFetched 4)).stream 0).descs = [] ∧ ((tNext (.codeSync 0 0) (tFetched 6)).stream 0).nextTerminal = 1 := by
  decide +kernel
/-- A FENCE that waits for index 5 of stream 1, and a cluster idle between descriptors of stream 0. -/
def tCross : State := (tFetched tFenceCross).setStream 1 tStream
theorem wit_cross : Begins 0 0 3 (tDesc 0 tFenceCross) tCross ∧ flagAt tFenceCross 19 7 = true ∧ (tCross.stream 1).enabled = true
    ∧ (tCross.stream 1).job = (tCross.stream 0).job ∧ (tDesc 0 tFenceCross).num 18 0 12 = 1
    ∧ before32 (tCross.stream 1).nextTerminal ((tDesc 0 tFenceCross).half 20) = true := by
  refine ⟨begins_of ?_, ?_⟩ <;> decide +kernel
/-- A device range of 16 GiB, and a TIMESTAMP that is written in it. -/
def tSpan : RangeEntry :=
  { vbase := 0x40000000, length := 0x400000000, target := 0x40000000, gen := 1, type := 0, r := true, w := true, a := true, cacheable := true
    sealedR := false, counted := false, scratch := false, checkpoint := false, pinned := true, gran := 0, state := 0, cntIndex := 0 }
def tMapped (s : State) : State := s.setSpace 0 { Space.reset with enabled := true, entries := [tSpan] }
def tStampAt : Line := tLineOf [(0, 4), (16, 0x40000008)]
theorem wit_stamp : Begins 0 0 4 (tDesc 0 tStampAt) (tMapped (tFetched tStampAt)) ∧ (tDesc 0 tStampAt).word 16 ≠ 0
    ∧ ((begunState (tMapped (tFetched tStampAt)) 0 0).jobWrite 0 ((tDesc 0 tStampAt).word 16).toNat (toBytes 8 0x1234)).1 = none := by
  refine ⟨begins_of ?_, ?_⟩ <;> decide +kernel

/-- JOB_START of job 0 with MIN_CL 1, MAX_CL 4, ATTEMPTS 2, space 0, seed 5 and save area at 1 GiB; the job number is free. -/
def tStartBits : Line := tLineOf [(0, 1), (17, 1), (18, 4), (19, 2), (24, 5), (32, 0x40000000)]
def tNoJob (bits : Line) : State := { tMapped (tFetched bits) with sched := { (tFetched bits).sched with jobs := [] } }
theorem wit_jobStart : Begins 0 0 1 (tDesc 0 tStartBits) (tNoJob tStartBits) ∧ (begunState (tNoJob tStartBits) 0 0).job 0 = none
    ∧ ((begunState (tNoJob tStartBits) 0 0).space 0).enabled = true ∧ ((begunState (tNoJob tStartBits) 0 0).space 0).entries = [tSpan]
    ∧ tSpan.lo ≤ 0x40000000 ∧ 0x40000000 + (229376 + 256) * 4 ≤ tSpan.hi ∧ tSpan.type = tyDevice := by
  refine ⟨begins_of ?_, ?_⟩ <;> decide +kernel
theorem wit_jobStart_bad : Begins 0 0 1 (tDesc 0 tStartBits) (tMapped (tFetched tStartBits))
    ∧ (begunState (tMapped (tFetched tStartBits)) 0 0).job 0 ≠ none ∧ Begins 0 0 1 (tDesc 0 1) (tNoJob 1) ∧ (tDesc 0 1).num 17 0 6 = 0 := by
  refine ⟨begins_of ?_, ?_, begins_of ?_, ?_⟩ <;> decide +kernel
theorem test_jobStart : ((tNext (.jobStart 0 0) (tNoJob tStartBits)).job 0).map (fun y => (y.phase, y.minCl, y.maxCl, y.attempts, y.seed, y.saveVa))
      = some (.created, 1, 4, 2, 5, 0x40000000)
    ∧ ((tNext (.jobStart 0 0) (tNoJob 1)).stream 0).halted = true := by decide +kernel
/-- JOB_END, and JOB_END with ABORT. -/
def tAbortBits : Line := tLineOf [(0, 2), (16, 1)]
theorem wit_jobEnd : Begins 0 0 2 (tDesc 0 2) (tFetched 2) ∧ (tDesc 0 2).isAbort = false ∧ (tFetched 2).job 0 = some tJob
    ∧ (tFetched 2).jobStreams 0 = [0] ∧ ((tFetched 2).setStream 1 tStream).jobStreams 0 = [0, 1] ∧ tJob.ended.contains 1 = false
    ∧ (tFetched tAbortBits).desc 0 0 = some (tDesc 0 tAbortBits) ∧ (tDesc 0 tAbortBits).isAbort = true := by
  refine ⟨begins_of ?_, ?_⟩ <;> decide +kernel
theorem wit_jobEnd_rooms : (tFetched 2).ringRoom eventRing = true ∧ (tFetched 2).sched.events = [] ∧ (tFetched 2).integ.talon = []
    ∧ tDev.ringRoom eventRing = false := by decide +kernel
/-- The same with no event ring. -/
def tQuiet (s : State) : State := { s with setup := { Setup.reset with regs := [(0x41008, 0x80000004)] } }
theorem test_jobEnd : (tNext (.jobEnd 0 0) (tFetched 2)).job 0 = none ∧ (tNext (.jobEnd 0 0) (tFetched 2)).out.length = 4
    ∧ ((tNext (.jobEnd 0 0) (tQuiet (tFetched 2))).job 0).map (·.phase) = some .done
    ∧ ((tNext (.jobEndAbort 0 0) (tQuiet (tFetched tAbortBits))).job 0).map (·.phase) = some .failed := by decide +kernel
theorem wit_abort : tRings.job 0 = some tJob ∧ tRings.abortReady 0 = true ∧ tJob.attempt < tJob.attempts ∧ tJob.aborted = false
    ∧ ¬ (2 : BitVec 4) < tJob.attempts := by decide +kernel
theorem wit_abort_tables (st : StreamId) : (tRings.stream st).descs.any (·.tableBegun) = false := by
  by_cases h : st = 0
  · subst h; rfl
  · have : tRings.stream st = Stream.reset := by
      have : (0 : Nat) ≠ st.val := fun e => h (Fin.ext e.symm)
      simp [State.stream, tRings, tDev, Table.get, this]
    rw [this]; rfl
theorem test_abort : ((tRings.failJob 0).job 0).map (fun y => (y.phase, y.attempt)) = some (.restarting, 1)
    ∧ (((tDev.setJob 0 (some { tJob with attempt := 2 })).failJob 0).job 0).map (·.phase) = some .failed := by decide +kernel

/-! ### Kernels, periods, admission, grants and pre-emption -/

/-- A KERNEL for two clusters at 0x8000 with ARG_VA 0x9000, and clusters 0 and 1 of the job idle. -/
def tKernel : Line := tLineOf [(0, 0x10), (16, 0x8000), (24, 0x9000), (32, 2)]
def tIdle (jci : BitVec 6) : Cluster := { tCluster Kestrel.reset with job := some (0, jci), stream := none }
def tTwo (bits : Line) : State := { tFetched bits with clusters := [(0, tIdle 1), (1, tIdle 0)] }
theorem wit_kernel : (tTwo tKernel).beginning 0 0 0x10 = some (tDesc 0 tKernel) ∧ ((tTwo tKernel).stream 0).periodic = false
    ∧ firstBad ((tTwo tKernel).payloadChecks ((tTwo tKernel).maxClOf 0) tKernel) = none ∧ (tDesc 0 tKernel).num 32 0 6 = 2
    ∧ 2 ≤ (tTwo tKernel).liveCount ∧ ((tTwo tKernel).idleClusters 0).take 2 = [1, 0] ∧ flagAt tKernel 33 0 = false
    ∧ (tFetched tKernel).beginning 0 0 0x10 = some (tDesc 0 tKernel) ∧ (tFetched tKernel).idleClusters 0 = [] := by decide +kernel
theorem test_kernel : ((tNext (.kernel 0 0) (tTwo tKernel)).kestrel 0).irqPend = 2
    ∧ ((tNext (.kernel 0 0) (tTwo tKernel)).cluster 0).share = some ⟨0, 0, 1, 0, 0⟩
    ∧ tNext (.kernel 0 0) (tFetched tKernel) = tFetched tKernel := by decide +kernel
/-- The KERNEL dispatched, with the DISPATCH line enabled on cluster 1, the lowest job cluster index, at S with IE set. -/
def tDispatched : State := (tNext (.kernel 0 0) (tTwo tKernel)).modK 1 (fun k => { k with irqEn := 2, ie := true, level := 1, esp := 0x2000 })
theorem wit_dispatch : (tDispatched.cluster 1).share = some ⟨0, 0, 0, 0, 0⟩
    ∧ tDispatched.desc 0 0 = some { tDesc 0 tKernel with phase := .running, left := 2 } ∧ (tDispatched.kestrel 1).level = 1 := by decide +kernel
theorem test_dispatch : ((tNext (.interruptEntry 1) tDispatched).kestrel 1).g = [(1, 0x9000), (2, 0), (3, 2)]
    ∧ ((tNext (.interruptEntry 1) tDispatched).kestrel 1).pc = 0x8000 ∧ ((tNext (.interruptEntry 1) tDispatched).kestrel 1).level = 0
    ∧ ((tNext (.interruptEntry 1) tDispatched).kestrel 1).esp = 0x2000 := by decide +kernel
/-- Cluster 0 at the KEND of rank 0 of that KERNEL, of which `n` ranks are left. -/
def tKend (n : Nat) : State :=
  let d : Desc := { tDesc 0 tKernel with phase := .running, left := n }
  { (tFetched tKernel).setStream 0 { tStream with descs := [d] } with
    clusters := [(0, { tCluster { Kestrel.reset with level := 0 } with share := some ⟨0, 0, 0, 0, 0⟩ })] }
theorem wit_kend : Issues (tKend 2) 0 4 (tKend 2) ∧ ((tKend 2).cluster 0).share = some ⟨0, 0, 0, 0, 0⟩
    ∧ (tKend 2).desc 0 0 = some { tDesc 0 tKernel with phase := .running, left := 2 } ∧ ((tKend 2).kestrel 0).level ≠ 2
    ∧ ((tKend 2).cluster 0).storeBuf = [] ∧ ((tKend 2).cluster 0).l1d = [] ∧ Issues (tKend 1) 0 4 (tKend 1) ∧ (tDesc 0 tKernel).opcode = 0x10 := by
  refine ⟨issues_of ?_, ?_, ?_, ?_, ?_, ?_, issues_of ?_, ?_⟩ <;> decide +kernel
theorem test_kend : (((tNext (.kend 0 0 0 0) (tKend 2)).desc 0 0).map (·.left)) = some 1 ∧ ((tNext (.kend 0 0 0 0) (tKend 2)).cluster 0).share = none
    ∧ ((tNext (.kend 0 0 0 0) (tKend 2)).kestrel 0).pc = windowAt 0x204 ∧ ((tNext (.kend 0 0 0 0) (tKend 1)).stream 0).nextTerminal = 1 := by
  decide +kernel

/-- A periodic stream before its first boundary, in period 0 with and without work, and dropping. -/
def tPeriodic (x : Stream) : State :=
  { tRings with sched := { tRings.sched with jobs := [(0, some { tJob with base := some 0 })], streams := [(0, { x with periodic := true })] } }
def tOpen : Stream := { tStream with periodOpen := true }
theorem wit_period : (tPeriodic tStream).ready = true ∧ (tStream).periodOpen = false ∧ (tPeriodic tStream).contextsOf 0 = []
    ∧ (tPeriodic tStream).job 0 = some { tJob with base := some 0 } ∧ tOpen.periodOpen = true ∧ tOpen.phase ≠ .dropping ∧ tOpen.halted = false
    ∧ { tOpen with current := 1, periodic := true }.incomplete = false
    ∧ { tOpen with current := 1, periodic := true, descs := [tDesc 0 tNop] }.incomplete = true
    ∧ { tOpen with budget := 5, charge := 5 }.budget ≤ (5 : Word) ∧ tOpen.budget = 0 := by decide +kernel
theorem test_period : ((tNext (.periodBoundary 0) (tPeriodic tStream)).stream 0).periodOpen = true
    ∧ ((tNext (.periodBoundary 0) (tPeriodic { tOpen with charge := 7, demoted := true })).stream 0).current = 1
    ∧ ((tNext (.periodBoundary 0) (tPeriodic { tOpen with charge := 7, demoted := true })).stream 0).charge = 0
    ∧ ((tNext (.periodBoundary 0) (tPeriodic { tOpen with descs := [tDesc 0 tNop] })).stream 0).phase = .dropping
    ∧ ((tNext (.periodBoundary 0) (tPeriodic { tOpen with phase := .dropping })).stream 0).current = 1
    ∧ ((tNext (.budgetExhausted 0) (tPeriodic { tOpen with budget := 5, charge := 5 })).stream 0).demoted = true := by decide +kernel
/-- A drop in period 1 with a late descriptor. -/
def tDrop : State := tPeriodic { tOpen with phase := .dropping, current := 1, position := 1, descs := [tDesc 0 tNop] }
theorem wit_drop : tDrop.ready = true ∧ (tDrop.stream 0).dropWait = false ∧ tDrop.dropQuiet 0 = true ∧ tDrop.contextsOf 0 = []
    ∧ (tDrop.stream 0).notices = [] ∧ (tDrop.stream 0).descs = [tDesc 0 tNop] ∧ (tDrop.stream 0).drops (tDesc 0 tNop) = true
    ∧ (tDesc 0 tNop).opcode ≠ 0x32 ∧ (tDrop.stream 0).restartHeld = false ∧ tDrop.ringRoom (cring 0) = true := by decide +kernel
theorem test_drop : ((tNext (.dropComplete 0) tDrop).stream 0).phase = .idle ∧ ((tNext (.dropComplete 0) tDrop).stream 0).nextTerminal = 1
    ∧ (tNext (.dropComplete 0) tDrop).out.length = 2 := by decide +kernel
/-- A drop that waits for an access to a peer of its context. -/
def tPeer : PeerReq :=
  { tag := 1, dst := 2, mkind := .kestrel, cluster := 0, job := 0, purpose := .store, va := 0, sealedBlk := false, len := 8, port := 0
    work := none, answer := none, crc := 0, gen := 0 }
def tDropBusy : State := { tDrop with clusters := [(0, tIdle 0)], fabric := { tDrop.fabric with requests := [tPeer] } }
theorem wit_drop_busy : tDropBusy.dropQuiet 0 = false ∧ tDropBusy.ready = true ∧ (tDropBusy.stream 0).phase = .dropping
    ∧ (tDropBusy.stream 0).dropWait = false := by decide +kernel
theorem test_drop_busy : tNext (.dropComplete 0) tDropBusy = tDropBusy := by decide +kernel

/-- Jobs 0 and 1 of two streams with priorities 2 and 1: 8 clusters, MIN_CL as given. -/
def tJobs (a b : Job) : State :=
  { tRings with sched := { tRings.sched with jobs := [(0, some a), (1, some b)], streams := [(0, { tStream with prio := 2 }), (1, { tStream with prio := 1, job := 1 })] } }
theorem wit_admission : (tJobs { tJob with phase := .created } tJob).ready = true ∧ (tJobs { tJob with phase := .created } tJob).fits 0 = true
    ∧ tJob.admitted = true ∧ (tJobs { tJob with minCl := 8, phase := .created } tJob).minSum 0 (fun _ => true) + 8 > 8
    ∧ (tJobs tJob { tJob with minCl := 8, phase := .created }).fits 1 = false ∧ (tJobs { tJob with phase := .waitCapacity } tJob).waitsAhead 0 = false
    ∧ (tJobs { tJob with phase := .waitCapacity } { tJob with phase := .waitCapacity }).waitsAhead 1 = true
    ∧ (tJobs { tJob with phase := .restarting, minCl := 0 } tJob).fits 0 = true
    ∧ 0 ≤ ((tJobs { tJob with phase := .restarting, minCl := 0 } tJob).jobClusters 0).length ∧ { tJob with phase := .restarting, minCl := 0 }.restored = true := by
  decide +kernel
theorem test_admission : ((tNext (.admission 0) (tJobs { tJob with phase := .created } tJob)).job 0).map (·.phase) = some .running
    ∧ ((tNext (.admission 1) (tJobs tJob { tJob with minCl := 8, phase := .created })).job 1).map (·.phase) = some .waitCapacity
    ∧ ((tNext (.admission 0) (tJobs { tJob with phase := .waitCapacity } tJob)).job 0).map (·.phase) = some .running
    ∧ (tNext (.admission 1) (tJobs { tJob with phase := .waitCapacity } { tJob with phase := .waitCapacity })).job 1 = some { tJob with phase := .waitCapacity }
    ∧ ((tNext (.admission 0) (tJobs { tJob with minCl := 8, phase := .created } tJob)).job 1).map (·.phase) = some .running := by
  decide +kernel
/-- One live cluster, held by job 1 at its MIN_CL, and job 0 of higher priority to be admitted. -/
def tStrip : State := { tJobs { tJob with phase := .created } tJob with
  card := { tRings.card with live := 1 }
  clusters := [(0, { tCluster Kestrel.reset with job := some (1, 0), stream := some 1 })] }
theorem wit_strip : tStrip.fits 0 = true ∧ tStrip.obtainable 0 = 0
    ∧ tJob.minCl.toNat ≤ (tJobs { tJob with phase := .created } tJob).obtainable 0 := by decide +kernel
theorem test_strip : ((tNext (.admission 0) tStrip).job 1).map (·.stripping) = some true
    ∧ ((tNext (.admission 0) tStrip).cluster 0).stopped = true := by decide +kernel
/-- A KERNEL of two clusters waits for its first one; and one whose save left its context. -/
theorem wit_grant : (tFetched tKernel).ready = true ∧ (tFetched tKernel).card.stall = false ∧ (tFetched tKernel).job 0 = some tJob
    ∧ (tFetched tKernel).isFree 3 = true ∧ ((tFetched tKernel).cluster 3).storeBuf = [] ∧ ((tFetched tKernel).jobClusters 0).length = 0
    ∧ (tFetched tKernel).jobDemand 0 = 2 ∧ tJob.saved = [] := by decide +kernel
theorem test_grant : ((tNext (.clusterGrant 0 3) (tFetched tKernel)).cluster 3).job = some (0, 0)
    ∧ ((tNext (.clusterGrant 0 3) (tFetched tKernel)).cluster 3).powered = true := by decide +kernel
def tSaved : SavedContext := ⟨2, some 0, none, none, false⟩
def tWaiting : State := (tFetched tKernel).setJob 0 (some { tJob with saved := [tSaved] })
theorem wit_grant_saved : tWaiting.job 0 = some { tJob with saved := [tSaved] } ∧ tWaiting.isFree 3 = true ∧ 0 < tWaiting.jobDemand 0
    ∧ (tWaiting.jobClusters 0) = [] := by decide +kernel
theorem test_grant_saved : ((tNext (.clusterGrant 0 3) tWaiting).cluster 3).job = some (0, 2)
    ∧ ((tNext (.clusterGrant 0 3) tWaiting).cluster 3).restoring = true := by decide +kernel
/-- Two live clusters, both held by job 1 of lower priority with MIN_CL 1, and a KERNEL of job 0. -/
def tCrowd : State := { tJobs tJob tJob with
  card := { tRings.card with live := 3 }
  sched := { (tJobs tJob tJob).sched with streams := [(0, { tStream with prio := 2, descs := [tDesc 0 (tLineOf [(0, 0x10), (16, 0x8000), (32, 1)])] }), (1, { tStream with prio := 1, job := 1 })] }
  clusters := [(0, { tIdle 0 with job := some (1, 0), stream := some 1 }), (1, { tIdle 1 with job := some (1, 1), stream := some 1 })] }
theorem wit_preempt : tCrowd.victim 0 2 = some 1 ∧ tCrowd.stoppable 1 = true ∧ tCrowd.holder 1 ≠ some 0 ∧ tCrowd.suspendedVictim 1 = false
    ∧ tCrowd.ready = true ∧ tCrowd.card.stall = false ∧ tCrowd.job 0 = some tJob ∧ (tCrowd.stream 0).phase ≠ .suspendedFault
    ∧ (∀ d, tCrowd.isFree d = false) ∧ (tCrowd.jobClusters 0).length + (allClusters.filter (fun d => (tCrowd.cluster d).stopped)).length + 1
      = min tJob.maxCl.toNat (tCrowd.streamDemand 0 0) := by decide +kernel
theorem test_preempt : ((tNext (.preemption 0) tCrowd).cluster 1).stopped = true ∧ ((tNext (.preemption 0) tCrowd).cluster 0).stopped = false := by
  decide +kernel
/-- The same with job 1's stream 1 in a suspended fault. -/
def tCrowdFault : State := tCrowd.modStream 1 (fun (x : Stream) => { x with phase := .suspendedFault, prio := 7 })
theorem wit_preempt_fault : tCrowdFault.victim 0 0 = some 1 ∧ tCrowdFault.suspendedVictim 1 = true := by decide +kernel

/-! ### The mover -/

/-- Cluster 0 of the job with a device range at 1 GiB, its own store holding bytes 1 to 16 at 0x1000, and one descriptor. -/
def tMover (d : Desc) : State :=
  { tMapped (tRings.setStream 0 { tStream with descs := [d] }) with
    clusters := [(0, { tIdle 0 with store := (List.range 16).map (fun i => (0x1000 + i, BitVec.ofNat 8 (i + 1))) })] }
/-- COPY of 16 bytes from 0x1000 to 0x3000; CONVERT of four .i8 at 0x1000 to .f32 at 0x3000, with AMAX_RESET of slot 2 in DERIVE mode or none;
KV_APPEND of 3 tokens to the header at 1 GiB. -/
def tCopy : Line := tLineOf [(0, 0x11), (16, 0x1000), (24, 0x3000), (32, 16)]
def tConv : Line := tLineOf [(0, 0x12), (16, 0x1000), (24, 0x3000), (32, 4), (36, 0x60)]
def tDerive : Line := tLineOf [(0, 0x12), (16, 0x1000), (24, 0x3000), (32, 4), (36, 0xA6), (38, 0xF2), (48, 0x2000)]
def tKv : Line := tLineOf [(0, 0x29), (16, 0x40000000), (24, 0x1000), (32, 0x2000), (40, 3)]
theorem wit_mover_begins : (tMover (tDesc 0 tCopy)).moverReady 0 = true ∧ Begins 0 0 0x11 (tDesc 0 tCopy) (tMover (tDesc 0 tCopy))
    ∧ (tMover (tDesc 0 tCopy)).jciCluster 0 (BitVec.ofNat 6 ((tDesc 0 tCopy).num 40 0 6)) = some 0 ∧ (tMover (tDesc 0 tCopy)).moverDescs 0 = []
    ∧ Begins 0 0 0x12 (tDesc 0 tDerive) (tMover (tDesc 0 tDerive)) ∧ (tDesc 0 tDerive).num 39 0 6 = 0
    ∧ Begins 0 0 0x29 (tDesc 0 tKv) (tMover (tDesc 0 tKv)) ∧ (tDesc 0 tKv).num 44 0 6 = 0 := by
  refine ⟨?_, begins_of ?_, ?_, ?_, begins_of ?_, ?_, begins_of ?_, ?_⟩ <;> decide +kernel
/-- DERIVE at the write of its scale to the own store. -/
def tScale : Desc := { tDesc 0 tDerive with phase := .running, stage := 1 }
theorem wit_scale : GoesOn 0 0 0x12 tScale (tMover tScale) ∧ (tMover tScale).moverFirst 0 = some (0, tScale)
    ∧ (tMover tScale).awaitsRead 0 (some (0, 0)) = false
    ∧ ((tMover tScale).saveSpan 0 (some (0, 0)) (tScale.num 48 0 64) (toBytes 4 (2 ^ 23 * (127 - tScale.aux0.toInt).toNat))).1 = none := by
  refine ⟨goesOn_of ?_, ?_⟩ <;> decide +kernel
theorem test_scale : ofBytes (Mem.readBytes ((tNext (.moverSegment 0) (tMover tScale)).cluster 0).store 0x2000 4) = 0x3F800000
    ∧ ((tNext (.moverSegment 0) (tMover tScale)).desc 0 0).map (·.stage) = some 2 := by decide +kernel
theorem test_mover_begins : ((tNext (.convert 0 0) (tMover (tDesc 0 tDerive))).desc 0 0).map (fun d => (d.stage, d.aux0)) = some (1, 0)
    ∧ ((tNext (.copy 0 0) (tMover (tDesc 0 tCopy))).desc 0 0).map (·.phase) = some .running := by decide +kernel
/-- A running descriptor. -/
def tRunning (bits : Line) : Desc := { tDesc 0 bits with phase := .running }
theorem wit_segments : (tMover (tRunning tCopy)).moverReady 0 = true ∧ (tMover (tRunning tCopy)).moverFirst 0 = some (0, tRunning tCopy)
    ∧ GoesOn 0 0 0x11 (tRunning tCopy) (tMover (tRunning tCopy)) ∧ (tMover (tRunning tCopy)).fabric.requests = []
    ∧ ((tMover (tRunning tCopy)).cluster 0).storeBad = [] ∧ Mem.wf ((tMover (tRunning tCopy)).cluster 0).store = true
    ∧ GoesOn 0 0 0x12 { tRunning tConv with stage := 2 } (tMover { tRunning tConv with stage := 2 }) ∧ (tRunning tConv).cvMode = 0
    ∧ (tMover { tRunning tConv with stage := 2 }).moverFirst 0 = some (0, { tRunning tConv with stage := 2 })
    ∧ ((tMover (tRunning tCopy)).cluster 0).sound = true ∧ (tRunning tCopy).heldBy = none
    ∧ (tRunning tConv).num 56 0 64 = 0 ∧ flagAt tConv 38 4 = false ∧ (tRunning tConv).cvCount = 4 := by
  refine ⟨?_, ?_, goesOn_of ?_, ?_, ?_, ?_, goesOn_of ?_, ?_⟩ <;> decide +kernel
theorem test_copy : Mem.readBytes ((tNext (.moverSegment 0) (tMover (tRunning tCopy))).cluster 0).store 0x3000 17
      = (List.range 16).map (fun i => BitVec.ofNat 8 (i + 1)) ++ [0]
    ∧ ((tNext (.moverSegment 0) (tMover (tRunning tCopy))).stream 0).descs = [] := by decide +kernel
theorem test_convert : ofBytes (Mem.readBytes ((tNext (.moverSegment 0) (tMover { tRunning tConv with stage := 2 })).cluster 0).store 0x3000 16)
    = pack 32 [0x3F800000, 0x40000000, 0x40400000, 0x40800000] := by decide +kernel
/-- A request of the runtime of 16 bytes across a block's end, and one whose bytes are all moved. -/
def tRequests (p : Nat) : State :=
  { tMapped tRings with clusters := [(0, { tIdle 0 with
    k := { (tIdle 0).k with level := 1 }, store := (tMover (tDesc 0 tCopy)).cluster 0 |>.store
    queue := [⟨0x1000, 0x3FF8, 16, 0x5000, p, 0, none, []⟩] })] }
theorem wit_request : (tRequests 0).moverReady 0 = true ∧ (tRequests 0).mayRun 0 = true ∧ (tRequests 0).moverFirst 0 = none ∧ ((tRequests 0).cluster 0).sound = true
    ∧ ((tRequests 0).cluster 0).queue = [⟨0x1000, 0x3FF8, 16, 0x5000, 0, 0, none, []⟩] ∧ (tRequests 0).inDrop 0 = false
    ∧ (tRequests 0).fabric.requests = [] ∧ ((tRequests 0).cluster 0).storeBad = [] ∧ Mem.wf ((tRequests 0).cluster 0).store = true := by
  decide +kernel
theorem test_request : Mem.readBytes ((tNext (.moverSegment 0) (tRequests 0)).cluster 0).store 0x3FF8 9 = [1, 2, 3, 4, 5, 6, 7, 8, 0]
    ∧ ((tNext (.moverSegment 0) (tRequests 0)).cluster 0).queue = [⟨0x1000, 0x3FF8, 16, 0x5000, 8, 0, none, []⟩] := by decide +kernel
theorem wit_request_ends (s1 : State) (h : s1 = (({ tRequests 16 with free := 1 } : State).saveSpan 0 none 0x5000
      (toBytes 8 (Config.freeWord 0).toNat)).2) : ∃ o, (({ tRequests 16 with free := 1 } : State).saveSpan 0 none 0x5000
      (toBytes 8 (Config.freeWord 0).toNat)) = (o, s1) ∧ (16 : W32).toNat ≤ 16 := ⟨_, by rw [h], by decide⟩

/-- An append to an empty cache of pages of 16 tokens: BUSY clear or set, and with the header captured and everything moved. -/
def tHead : Line := tLineOf [(0, 1), (1, 1), (2, 7), (3, 1), (4, 64), (8, 0x40010000), (16, 0x40020000), (24, 4), (36, 8), (48, 0x40030000)]
def tAppend (busy : Bool) (d : Desc) : State :=
  let s := tMover d
  { s with memory := { s.memory with mem := (((List.range 8).map (fun i => (0x40000000 + i, bitsAt tHead (8 * i) 8))).filter (fun p => decide (p.2 ≠ 0)))
      ++ (if busy then [(0x40000007, 1)] else []) } }
theorem wit_kv : (tAppend false (tRunning tKv)).jciCluster 0 (BitVec.ofNat 6 ((tRunning tKv).num 44 0 6)) = some 0
    ∧ (tAppend false (tRunning tKv)).moverReady 0 = true ∧ GoesOn 0 0 0x29 (tRunning tKv) (tAppend false (tRunning tKv))
    ∧ ((tAppend false (tRunning tKv)).access 0 .mover .mover .a 0x40000000 8).1 = .ok (.device 0x40000000) (some tSpan)
    ∧ (((tAppend false (tRunning tKv)).access 0 .mover .mover .a 0x40000000 8).2.readThrough 0 none 0x40000000 (.device 0x40000000) (some tSpan) 8 none).1
        = .bytes [1, 1, 7, 1, 64, 0, 0, 0]
    ∧ (((tAppend true (tRunning tKv)).access 0 .mover .mover .a 0x40000000 8).2.readThrough 0 none 0x40000000 (.device 0x40000000) (some tSpan) 8 none).1
        = .bytes [1, 1, 7, 1, 64, 0, 0, 1]
    ∧ ((tAppend false (tRunning tKv)).writeThrough 0 none 0x40000007 (.device 0x40000007) (some tSpan) [1] 0x40000007 0x40000008 0).1 = none := by
  refine ⟨?_, ?_, goesOn_of ?_, ?_⟩ <;> decide +kernel
theorem wit_kv_sound : (tRunning tKv).stage = 0 ∧ (tRunning tKv).heldBy = none ∧ ((tAppend false (tRunning tKv)).cluster 0).upsets = [] := by
  decide +kernel
theorem test_kv_busy : (tNext (.kvBusyRetry 0 0) (tAppend true (tRunning tKv))).desc 0 0 = some (tRunning tKv) := by decide +kernel
def tCommit : Desc := { tRunning tKv with stage := 2, hdr := tHead, progress := 8 }
theorem wit_kv_commit : (tAppend false tCommit).moverFirst 0 = some (0, tCommit) ∧ tCommit.heldBy = none ∧ (tAppend false tCommit).awaitsRead 0 (some (0, 0)) = false
    ∧ 2 * tCommit.num 40 0 32 * kvHeads tHead + 2 * (kvNew tHead (tCommit.num 40 0 32) + 0) ≤ 8 ∧ kvPages tHead = 0
    ∧ ((tAppend false tCommit).saveSpan 0 (some (0, 0)) 0x40000000 (toBytes 64 tCommit.kvCommit.toNat)).1 = none
    ∧ kvPages tHead + kvNew tHead 3 < 2 ^ 32 ∧ 1 ≤ kvPages tHead + kvNew tHead 3 ∧ kvTokens tHead + 3 - kvPt tHead * 0 < 2 ^ 16 := by decide +kernel
theorem test_kv_commit : kvPages tCommit.kvCommit = 1 ∧ kvLast tCommit.kvCommit = 3 ∧ kvFreeUsed tCommit.kvCommit = 2
    ∧ ((tNext (.moverSegment 0) (tAppend true tCommit)).stream 0).descs = []
    ∧ Mem.read (tNext (.moverSegment 0) (tAppend true tCommit)).memory.mem 0x40000007 = 0 := by decide +kernel
/-- An append with BUSY held is dropped or aborted; a second append to the same header waits for the first. -/
theorem wit_kv_drop : (tRunning tKv).phase = .running ∧ (tRunning tKv).opcode = 0x29 ∧ tCommit.stage ≠ 0
    ∧ (tAppend true tCommit).entryAt 0 0x40000007 = some tSpan ∧ (tAppend true tCommit).targetOf 0 tSpan 0x40000007 = .device 0x40000007
    ∧ (tAppend true tCommit).mirrorAt 0 0x40000007 = none ∧ Mem.wf (tAppend true tCommit).memory.mem = true := by decide +kernel
theorem test_kv_drop : Mem.read ((tAppend true tCommit).revertDesc 0 0 tCommit).memory.mem 0x40000007 = 0
    ∧ Mem.read ((tAppend true tCommit).failJob 0).memory.mem 0x40000007 = 0
    ∧ ((tMover (tRunning tKv)).modStream 0 (fun (x : Stream) => { x with descs := x.descs ++ [tDesc 1 tKv] })).beginning 0 1 0x29 = none := by
  decide +kernel

/-! ### Operators -/

/-- A table of one group of one MAXPOOL of 3 by 3 on a 16 by 16 image of 32 channels, held in the own store of cluster 0. -/
def tTable (out : Nat) : List Word :=
  [0x0010_0010_0A01_0101, 32, 0, 0, BitVec.ofNat 64 out, 0x0001_0100_0001_0000, 8, 0, 0x0000_0020_A000_3302, 0, 0, 0x3F80_0000]
def tTableStore (out : Nat) : Mem :=
  (((tTable out).zipIdx.flatMap (fun p => ((toBytes 8 p.1.toNat).zipIdx.map (fun q => (0x1000 + 8 * p.2 + q.2, q.1))))).filter
    (fun p => decide (p.2 ≠ 0)))
/-- An operator on one cluster. -/
def tOperator (op out : Nat) : State :=
  let bits := tLineOf [(0, op), (16, 0x1000), (24, 0x40010000), (32, 1)]
  { tMapped (tFetched bits) with clusters := [(0, { tIdle 0 with store := tTableStore out })] }
def tOpBits (op : Nat) : Line := tLineOf [(0, op), (16, 0x1000), (24, 0x40010000), (32, 1)]
theorem wit_operators : Begins 0 0 0x20 (tDesc 0 (tOpBits 0x20)) (tOperator 0x20 0x40020000) ∧ Begins 0 0 0x21 (tDesc 0 (tOpBits 0x21)) (tOperator 0x21 0x40020000)
    ∧ Begins 0 0 0x22 (tDesc 0 (tOpBits 0x22)) (tOperator 0x22 0x40020000) ∧ (tDesc 0 (tOpBits 0x22)).stage = 0 ∧ (tDesc 0 (tOpBits 0x22)).num 32 0 6 = 1
    ∧ ((tOperator 0x22 0x40020000).idleClusters 0).take 1 = [0]
    ∧ ((tableRun 0 (some (0, 0)) 0x1000).run (begunState (tOperator 0x22 0x40020000) 0 0)).1.toOption = some (tTable 0x40020000)
    ∧ Machine.tableOk 0x22 0 0x40010000 (tTable 0x40020000) = true ∧ Machine.tableOk 0x22 0 0x40010000 (tTable 0x40020020) = false := by
  refine ⟨begins_of ?_, begins_of ?_, begins_of ?_, ?_⟩ <;> decide +kernel
theorem test_operators : (((tNext (.pool 0 0) (tOperator 0x22 0x40020000)).cluster 0).share) = some ⟨0, 0, 0, 0, 0⟩
    ∧ ((tNext (.convLoaf 0 0) (tOperator 0x21 0x40020000)).desc 0 0).map (·.pages) = some (tTable 0x40020000)
    ∧ ((tNext (.convStripe 0 0) (tOperator 0x20 0x40020020)).stream 0).halted = true := by decide +kernel
/-- The loaf and stripe groups of 09_image_ops' worked example. -/
def tStage (kind k s c ch h w : Nat) : ImgStage :=
  ⟨{ index := 0, type := kind, kh := k, kw := k, sy := s, sx := s, act := 0, wtype := 10, outType := 10, cout := c, wgt := 0, bias := 0, scale := 0 }, 10, ch, h, w⟩
def tChain : List ImgStage := [tStage 0 3 2 32 32 1088 1920, tStage 1 3 1 32 32 544 960, tStage 0 1 1 64 32 544 960, tStage 0 3 2 64 64 544 960]
theorem test_loaf : loafWork 16 16 tChain = (71, 71, 200512) ∧ crustBytes tChain = 184320 := by decide +kernel
/-- ATTN of one query head and an empty cache, and with 65 query heads' worth of a bad scale. -/
def tAttn (scale : Nat) : Line := tLineOf [(0, 0x28), (16, 0x40000000), (24, 0x40010000), (32, 0x40020000), (40, scale), (48, 1), (49, 1), (50, 1), (51, 6)]
def tAttnAt (scale : Nat) : State :=
  let s := tMapped (tFetched (tAttn scale))
  { s with clusters := [(0, tIdle 0)], memory := { s.memory with mem := ((List.range 64).map (fun i => (0x40000000 + i, bitsAt tHead (8 * i) 8))).filter (fun p => decide (p.2 ≠ 0)) } }
theorem wit_attn : Begins 0 0 0x28 (tDesc 0 (tAttn 0x3F800000)) (tAttnAt 0x3F800000) ∧ ((tAttnAt 0x3F800000).idleClusters 0).take 1 = [0]
    ∧ ((begunState (tAttnAt 0x3F800000) 0 0).loadSpan 0 (some (0, 0)) 0x40000000 64).1.toOption = some (toBytes 64 tHead.toNat)
    ∧ attnOk (tDesc 0 (tAttn 0x3F800000)) tHead (some tSpan) = true ∧ attnOk (tDesc 0 (tAttn 0x7F800000)) tHead (some tSpan) = false := by
  refine ⟨begins_of ?_, ?_⟩ <;> decide +kernel
theorem test_attn : ((tNext (.attn 0 0) (tAttnAt 0x3F800000)).desc 0 0).map (·.hdr) = some tHead
    ∧ ((tNext (.attn 0 0) (tAttnAt 0x7F800000)).stream 0).halted = true := by decide +kernel

/-! ### Range tables, migration, resume and checkpoints -/

/-- A RANGE_UPDATE of an OP with an entry image. -/
def tUpdate (op : Nat) (e : RangeEntry) : Line :=
  BitVec.ofNat 512 (0x30 + 2 ^ 128 * op + 2 ^ 256 * e.bits.toNat)
/-- An entry of 64 KiB at an address, to a device address, and a counted one. -/
def tEnt (va pa : Nat) : RangeEntry := { tRange with
  vbase := BitVec.ofNat 64 va, length := 0x10000, target := BitVec.ofNat 64 pa, gen := 0, type := 0, r := true, w := true, a := true, cacheable := true
  sealedR := false, counted := false, scratch := false, checkpoint := false, pinned := false, gran := 0, state := 0, cntIndex := 0 }
/-- Space 0 with those entries, counters at 2 GiB, and a fetched or running descriptor. -/
def tTableOf (es : List RangeEntry) (d : Desc) : State :=
  (tRings.setStream 0 { tStream with descs := [d] }).setSpace 0
    { Space.reset with enabled := true, entries := es, tableBase := 0x90000000, cntBase := 0x80000000, cntSize := 0x100000, genctr := 6 }
def tOld : RangeEntry := { tEnt 0x1010000 0x40000000 with gen := 3 }
theorem wit_insert : Begins 0 0 0x30 (tDesc 0 (tUpdate 0 (tEnt 0x1030000 0x50000000))) (tTableOf [tOld] (tDesc 0 (tUpdate 0 (tEnt 0x1030000 0x50000000))))
    ∧ (tDesc 0 (tUpdate 0 (tEnt 0x1030000 0x50000000))).num 16 0 8 = 0
    ∧ (tTableOf [tOld] (tDesc 0 (tUpdate 0 (tEnt 0x1030000 0x50000000)))).meetsMigrating 0 0x1030000 0x10000 = false ∧ ((tTableOf [tOld] (tDesc 0 (tUpdate 0 (tEnt 0x1030000 0x50000000)))).space 0).ops = []
    ∧ (tDesc 0 (tUpdate 0 (tEnt 0x1030000 0x50000000))).updateSpan = (0x1030000, 0x10000)
    ∧ firstBad (offsetBy 32 ((tTableOf [tOld] (tDesc 0 0)).entryChecks 0x100000 (tEnt 0x1030000 0x50000000).bits)) = none
    ∧ RangeEntry.ofBits (tEnt 0x1030000 0x50000000).bits = tEnt 0x1030000 0x50000000 ∧ spansMeet 0x1010000 0x10000 0x1030000 0x10000 = false := by
  refine ⟨begins_of ?_, ?_⟩ <;> decide +kernel
theorem test_insert : ((tNext (.insert 0 0) (tTableOf [tOld] (tDesc 0 (tUpdate 0 (tEnt 0x1030000 0x50000000))))).space 0).entries
      = [tOld, { tEnt 0x1030000 0x50000000 with gen := 7 }]
    ∧ ((tNext (.insert 0 0) (tTableOf [tOld] (tDesc 0 (tUpdate 0 (tEnt 0x1011000 0x50000000))))).stream 0).halted = true := by decide +kernel
/-- MODIFY to a longer entry, and to one without W. -/
def tWider : RangeEntry := { tOld with length := 0x20000, gen := 0 }
def tNarrow : RangeEntry := { tOld with w := false, a := false, gen := 0 }
theorem wit_modify : Begins 0 0 0x30 (tDesc 0 (tUpdate 1 tWider)) (tTableOf [tOld] (tDesc 0 (tUpdate 1 tWider)))
    ∧ Begins 0 0 0x30 (tDesc 0 (tUpdate 1 tNarrow)) (tTableOf [tOld] (tDesc 0 (tUpdate 1 tNarrow)))
    ∧ [tOld].find? (fun x => decide (x.lo = tWider.lo)) = some tOld
    ∧ firstBad ((tTableOf [tOld] (tDesc 0 0)).modifyChecks 0 (tDesc 0 (tUpdate 1 tWider)) tOld tWider) = none
    ∧ firstBad ((tTableOf [tOld] (tDesc 0 0)).modifyChecks 0 (tDesc 0 (tUpdate 1 tNarrow)) tOld tNarrow) = none
    ∧ tOld.narrows { tWider with gen := 7 } = false ∧ tOld.narrows { tNarrow with gen := 7 } = true
    ∧ (tTableOf [tOld] (tDesc 0 (tUpdate 1 tWider))).meetsMigrating 0 0x1010000 0x20000 = false ∧ ((tTableOf [tOld] (tDesc 0 (tUpdate 1 tWider))).space 0).ops = []
    ∧ (∀ c : ClusterId, ((tTableOf [tOld] (tDesc 0 0)).cluster c).job = none) := by
  refine ⟨begins_of ?_, begins_of ?_, ?_⟩ <;> decide +kernel
theorem test_modify : ((tNext (.modify 0 0) (tTableOf [tOld] (tDesc 0 (tUpdate 1 tWider)))).space 0).entries = [{ tWider with gen := 7 }]
    ∧ ((tNext (.modify 0 0) (tTableOf [tOld] (tDesc 0 (tUpdate 1 tNarrow)))).space 0).ops = [(0, 0)] := by decide +kernel
/-- A table operation under way, of an entry of GEN 3. -/
def tGoing (bits : Line) : Desc := { tRunning bits with stage := 1, aux0 := 3 }
/-- An INSERT that begins behind another operation of its space. -/
def tSecond : State :=
  let s := tTableOf [tOld] (tDesc 0 (tUpdate 0 (tEnt 0x1030000 0x50000000)))
  s.setSpace 0 { s.space 0 with ops := [(9, 4)] }
theorem wit_second : Begins 0 0 0x30 (tDesc 0 (tUpdate 0 (tEnt 0x1030000 0x50000000))) tSecond ∧ (tSecond.space 0).ops = [(9, 4)] := by
  refine ⟨begins_of ?_, ?_⟩ <;> decide +kernel
theorem test_second : ((tNext (.insert 0 0) tSecond).space 0).entries = [tOld] ∧ ((tNext (.insert 0 0) tSecond).space 0).ops = [(9, 4), (0, 0)] := by
  decide +kernel
theorem wit_modify_drain : GoesOn 0 0 0x30 (tGoing (tUpdate 1 tNarrow)) (tTableOf [tOld] (tGoing (tUpdate 1 tNarrow)))
    ∧ (tTableOf [tOld] (tGoing (tUpdate 1 tNarrow))).openIn 0 3 0x1010000 0x10000 = false
    ∧ { tTableOf [tOld] (tGoing (tUpdate 1 tNarrow)) with fabric := { Fabric.reset with requests := [{ tPeer with va := 0x101FFFF, gen := 3 }] } }.openIn 0 3 0x1010000 0x10000 = true
    ∧ { tTableOf [tOld] (tGoing (tUpdate 1 tNarrow)) with fabric := { Fabric.reset with requests := [{ tPeer with va := 0x1020000, gen := 3 }] } }.openIn 0 3 0x1010000 0x10000 = false := by
  refine ⟨goesOn_of ?_, ?_⟩ <;> decide +kernel
/-- CLEAR_COUNTS of an entry of one granule whose counter is 5. -/
def tCounted : RangeEntry := { tOld with counted := true, cntIndex := 8 }
def tCounting : State :=
  let s := tTableOf [tCounted] (tDesc 0 (tUpdate 2 { tRange with vbase := 0x1010000, length := 0, target := 0, gen := 0, type := 0, r := false, w := false, a := false, cacheable := false, sealedR := false, counted := false, scratch := false, checkpoint := false, pinned := false, gran := 0, state := 0, cntIndex := 0 }))
  { s with memory := { s.memory with mem := [(0x80000010, 5), (0x80000012, 6)] } }
theorem wit_clearCounts : Begins 0 0 0x30 (tDesc 0 (((tCounting.stream 0).descs.headD (tDesc 0 0)).bits)) tCounting
    ∧ ((tCounting.space 0).entries.find? (fun x => decide (x.lo = 0x1010000) && x.counted)) = some tCounted ∧ Mem.wf tCounting.memory.mem = true
    ∧ tCounted.granule = 0x10000 := by
  refine ⟨begins_of ?_, ?_⟩ <;> decide +kernel
theorem test_clearCounts : (tNext (.clearCounts 0 0) tCounting).memory.mem = [(0x80000012, 6)] := by decide +kernel
/-- WITHDRAW of the middle 8 KiB of an entry. -/
def tWithdraw : Line := tLineOf [(0, 0x31), (16, 0x1012000), (24, 0x2000)]
theorem wit_withdraw : Begins 0 0 0x31 (tDesc 0 tWithdraw) (tTableOf [tOld] (tDesc 0 tWithdraw))
    ∧ (tTableOf [tOld] (tDesc 0 tWithdraw)).meetsMigrating 0 0x1012000 0x2000 = false ∧ ((tTableOf [tOld] (tDesc 0 tWithdraw)).space 0).ops = []
    ∧ firstBad ((tTableOf [tOld] (tDesc 0 tWithdraw)).withdrawChecks 0 0x1012000 0x2000) = none
    ∧ ((tTableOf [tOld] (tDesc 0 tWithdraw)).space 0).holding 0x1012000 0x2000 = some tOld := by
  refine ⟨begins_of ?_, ?_⟩ <;> decide +kernel
def tLeaving : RangeEntry := tOld.part 0x1012000 0x1014000 1
theorem test_withdraw : ((tNext (.withdraw 0 0) (tTableOf [tOld] (tDesc 0 tWithdraw))).space 0).entries
    = [tOld.part 0x1010000 0x1012000 0, tLeaving, tOld.part 0x1014000 0x1020000 0] ∧ tLeaving.target = 0x40002000 := by decide +kernel
theorem wit_withdraw_remove : GoesOn 0 0 0x31 (tGoing tWithdraw) (tTableOf [tLeaving] (tGoing tWithdraw))
    ∧ ((tTableOf [tLeaving] (tGoing tWithdraw)).drainSpace 0).openIn 0 3 0x1012000 0x2000 = false
    ∧ (((tTableOf [tLeaving] (tGoing tWithdraw)).drainSpace 0).space 0).entries.find? (fun e => decide (e.lo = 0x1012000) && decide (e.state = 1)) = some tLeaving := by
  refine ⟨goesOn_of ?_, ?_⟩ <;> decide +kernel
theorem test_withdraw_remove : ((tNext (.withdrawRemove 0 0) (tTableOf [tLeaving] (tGoing tWithdraw))).space 0).entries = []
    ∧ ((tNext (.withdrawRemove 0 0) (tTableOf [tLeaving] (tGoing tWithdraw))).stream 0).descs = [] := by decide +kernel
/-- MIGRATE of a whole entry to 0x60000000, begun, with nothing and with all of it copied. -/
def tMigrate : Line := tLineOf [(0, 0x32), (16, 0x1010000), (24, 0x10000), (32, 0x60000000)]
theorem wit_migrate : Begins 0 0 0x32 (tDesc 0 tMigrate) (tTableOf [tOld] (tDesc 0 tMigrate))
    ∧ ((tTableOf [tOld] (tDesc 0 tMigrate)).space 0).ops = [] ∧ firstBad ((tTableOf [tOld] (tDesc 0 tMigrate)).migrateChecks 0 (tDesc 0 tMigrate)) = none
    ∧ ((tTableOf [tOld] (tDesc 0 tMigrate)).space 0).holding 0x1010000 0x10000 = some tOld := by
  refine ⟨begins_of ?_, ?_⟩ <;> decide +kernel
def tMoving : RangeEntry := { tOld with state := 2, cacheable := false }
def tMoved (p : Nat) : State :=
  let s := tTableOf [tMoving] { tGoing tMigrate with progress := p }
  { s with memory := { s.memory with mem := [(0x40000FFF, 9)] } }
theorem wit_migrate_goes : GoesOn 0 0 0x32 { tGoing tMigrate with progress := 0 } (tMoved 0) ∧ (tMoved 0).fabric.requests = [] ∧ Mem.wf (tMoved 0).memory.mem = true
    ∧ ((tMoved 0).space 0).entries.find? (fun e => decide (e.lo = 0x1010000) && decide (e.state = 2)) = some tMoving
    ∧ (tMoved 0).targetOf 0 tMoving 0x1010000 = .device 0x40000000 ∧ (tMoved 0).targetOf 0 ((tRunning tMigrate).migrated tMoving) 0x10000 = .device 0x60000000
    ∧ (tMoved 0).fencedUnit 0x40000000 = none ∧ (tMoved 0).fencedUnit 0x60000000 = none ∧ (tMoved 0).mirrorAt 0 0x1010000 = none ∧ (tMoved 0).memory.poison = []
    ∧ GoesOn 0 0 0x32 { tGoing tMigrate with progress := 0x10000 } (tMoved 0x10000) ∧ ((tMoved 0x10000).drainSpace 0).openIn 0 3 0x1010000 0x10000 = false
    ∧ (tMoved 0x10000).tableRuns 0 = false ∧ ((tMoved 0).job ((tMoved 0).stream 0).job).map (·.phase.runs) = some true ∧ (tGoing tMigrate).late = [] := by
  refine ⟨goesOn_of ?_, ?_, ?_, ?_, ?_, ?_, ?_, ?_, ?_, ?_, goesOn_of ?_, ?_⟩ <;> decide +kernel
theorem test_migrate_swap : ((tNext (.migrateSwap 0 0) (tMoved 0x10000)).space 0).entries = [{ tMoving with target := 0x60000000, gen := 7, state := 0 }] := by
  decide +kernel
/-- A RESUME of fault 1, which stopped cluster 2. -/
def tResume : Line := tLineOf [(0, 0x38), (16, 1)]
def tStopped (out : Bool) : State := { tFetched tResume with
  sched := { (tFetched tResume).sched with faults := [{ tFault with outstanding := out }], nextFault := 2 }
  clusters := [(2, { tIdle 0 with fault := some 1, k := { (tIdle 0).k with run := .faultStop } })] }
def tResume2 : Line := tLineOf [(0, 0x38), (16, 2)]
theorem wit_resume : Begins 0 0 0x38 (tDesc 0 tResume) (tStopped true) ∧ Begins 0 0 0x38 (tDesc 0 tResume) (tStopped false)
    ∧ (begunState (tStopped true) 0 0).sched.faults.find? (fun f => decide (f.id = 1)) = some { tFault with outstanding := true }
    ∧ ((begunState (tStopped true) 0 0).stream tFault.stream).function = ((begunState (tStopped true) 0 0).stream 0).function
    ∧ Begins 0 0 0x38 (tDesc 0 tResume2) ((tStopped true).setStream 0 { tStream with descs := [tDesc 0 tResume2] }) ∧ before32 ((2 : W32) - 1) 2 = true := by
  refine ⟨begins_of ?_, begins_of ?_, ?_, ?_, begins_of ?_, ?_⟩ <;> decide +kernel
theorem wit_resume_other : Begins 0 0 0x38 (tDesc 0 tResume) ((tStopped true).setStream 1 { tStream with function := 3 })
    ∧ tFault.stream = 0 := by
  refine ⟨begins_of ?_, ?_⟩ <;> decide +kernel
theorem test_resume : ((tNext (.resume 0 0) (tStopped true)).kestrel 2).run = .running
    ∧ ((tNext (.resume 0 0) (tStopped true)).sched.faults.map (·.outstanding)) = [false] ∧ ((tNext (.resume 0 0) (tStopped true)).stream 0).nextTerminal = 1 := by
  decide +kernel

/-! ### Checkpoints and set-up accesses -/

/-- CHECKPOINT of slot 3 on this device, fabric ID 5, whose 1 MiB slots lie at 2 GiB: SAVE or RESTORE with the mover of JCI 0. -/
def tCkBits (restore : Bool) : Line := tLineOf [(0, 0x39), (16, 5), (18, 3), (19, bit restore)]
def tCk (restore : Bool) (d : Desc → Desc) (m : Mem) : State :=
  let s := tMover (d (tDesc 0 (tCkBits restore)))
  { s with
    setup := { s.setup with regs := [(0x200, 0x80000005), (0x310, 0x80000000), (0x318, 1), (0x32C, 0x80000005)] ++ s.setup.regs }
    memory := { s.memory with mem := m } }
theorem wit_ck_begins : (tCk false id []).fabId = 5 ∧ (tCk false id []).ckptBase = 0x80000000 ∧ (tCk false id []).ckptSlotBytes = 0x100000
    ∧ (tCk false id []).jciCluster 0 (BitVec.ofNat 6 ((tDesc 0 (tCkBits false)).num 20 0 6)) = some 0 ∧ (tCk false id []).moverReady 0 = true
    ∧ (tCk false id []).job 0 = some tJob ∧ ((tCk false id []).jobStreams 0).length ≤ 248 ∧ Begins 0 0 0x39 (tDesc 0 (tCkBits false)) (tCk false id [])
    ∧ Begins 0 0 0x39 (tDesc 0 (tCkBits true)) (tCk true id []) ∧ (tDesc 0 (tCkBits false)).ckRestore = false
    ∧ (tDesc 0 (tCkBits true)).ckRestore = true ∧ Mem.wf (tCk true id []).memory.mem = true := by
  refine ⟨?_, ?_, ?_, ?_, ?_, ?_, ?_, begins_of ?_, begins_of ?_, ?_⟩ <;> decide +kernel
theorem test_ck_begins : ((tNext (.checkpointSave 0 0) (tCk false id [])).desc 0 0).map (fun d => (d.phase, d.stage, d.ckStreams)) = some (.running, 0, [0x100000000])
    ∧ ((tNext (.checkpointRestore 0 0) (tCk true id [])).desc 0 0).map (fun d => (d.phase, d.stage)) = some (.running, 0) := by decide +kernel
/-- Slot 3 with a half A SEALED of SEQ 6 and B FILLING, and one with none FILLING. -/
def tHalves (b : Byte) : Mem := [(0x80300000, 1), (0x80300001, 2), (0x80300004, 6), (0x80380000, 1), (0x80380001, b), (0x80380004, 7)]
def tSealing (d : Desc) : Desc := { d with phase := .running, stage := 2, progress := 0x1000000, aux2 := 0xFFFFFFFF }
theorem wit_ck_seal : GoesOn 0 0 0x39 (tSealing (tDesc 0 (tCkBits false))) (tCk false tSealing (tHalves 1)) ∧ (tSealing (tDesc 0 (tCkBits false))).heldBy = none
    ∧ (tCk false tSealing (tHalves 1)).fabric.requests = [] ∧ fieldAt (tCkBits false) 16 0 12 = (tCk false tSealing (tHalves 1)).fabId
    ∧ (tCk false tSealing (tHalves 1)).ownsSlot 5 3 = true ∧ 0x40 + (tSealing (tDesc 0 (tCkBits false))).ckTotal ≤ 0x1000000
    ∧ (((tCk false tSealing (tHalves 1)).sealHalf 3 0).map (fun w => (w.halfState 3 true, w.newest 3))) = some (2, some true)
    ∧ ((tCk false tSealing (tHalves 1)).sealHalf 3 5) = none ∧ ((tCk false tSealing (tHalves 0)).sealHalf 3 0) = none := by
  refine ⟨goesOn_of ?_, ?_⟩ <;> decide +kernel
theorem test_ck_seal : (((tNext (.checkpointSave 0 0) (tCk false tSealing (tHalves 1))).job 0).bind (·.ckpt)).map (fun k => (k.peer, k.slot)) = some (5, 3)
    ∧ ((tNext (.checkpointSave 0 0) (tCk false tSealing (tHalves 1))).stream 0).descs = []
    ∧ (tNext (.checkpointSave 0 0) (tCk false tSealing (tHalves 1))).newest 3 = some true
    ∧ ((tNext (.checkpointSave 0 0) (tCk false tSealing (tHalves 0))).job 0).bind (·.ckpt) = none := by decide +kernel
/-- A RESTORE whose header gives no data and CRC `c`, at its end. -/
def tRestoring (c : Nat) (d : Desc) : Desc := { d with phase := .running, stage := 1, progress := 0x40, aux2 := 0xFFFFFFFF, hdr := tLineOf [(24, c)] }
theorem wit_ck_restore : GoesOn 0 0 0x39 (tRestoring 0 (tDesc 0 (tCkBits true))) (tCk true (tRestoring 0) (tHalves 1))
    ∧ 0x40 + (fieldAt (tRestoring 0 (tDesc 0 0)).hdr 16 0 64).toNat ≤ 0x40
    ∧ (~~~ (bitsAt (tRestoring 0 (tDesc 0 0)).aux2 0 32) : W32) = fieldAt (tRestoring 0 (tDesc 0 0)).hdr 24 0 32
    ∧ (~~~ (bitsAt (tRestoring 0 (tDesc 0 0)).aux2 0 32) : W32) ≠ fieldAt (tRestoring 1 (tDesc 0 0)).hdr 24 0 32 := by
  refine ⟨goesOn_of ?_, ?_⟩ <;> decide +kernel
theorem test_ck_restore : ((tNext (.checkpointRestore 0 0) (tCk true (tRestoring 0) (tHalves 1))).stream 0).descs = []
    ∧ ((tNext (.checkpointRestore 0 0) (tCk true (tRestoring 0) (tHalves 1))).job 0).map (·.phase) = some .running
    ∧ ((tNext (.checkpointRestore 0 0) (tCk true (tRestoring 1) (tHalves 1))).job 0).map (·.phase) ≠ some .running := by decide +kernel
theorem test_half : ((tCk true id (tHalves 1)).openHalf 5 3).1 = true ∧ ((tCk true id (tHalves 1)).openHalf 5 3).2.halfSeq 3 true = 7
    ∧ ((tCk true id (tHalves 1)).openHalf 5 3).2.halfState 3 false = 2 ∧ ((tCk true id [(0x80300001, 1)]).openHalf 5 3).1 = false
    ∧ ((tCk true id [(0x80300001, 1)]).openHalf 5 3).2.halfSeq 3 false = 1 := by decide +kernel

/-- Writes of the PF: an unassigned register, a read-only one, a reserved bit, one in FAILED, a plain one, a misaligned one, and vector 5. -/
def tPut (s : State) (off : BitVec 26) (size : Nat) (d : Word) : State := tNext (.setupRegisterWrite 0 off size d) s
def tErrOf (s : State) : Nat × Nat × Nat × Nat := (s.setup.errCount.toNat, s.setup.errReason.toNat, s.setup.errAddr.toNat, s.setup.errData.toNat)
def tVector (p : Bool) : State := { tRings with host := { tRings.host with msix := [(5, ⟨0xFEE00010, 5, true, p⟩)] } }
theorem wit_setup : tRings.hostAnswers = true ∧ tRings.card.device = .ready ∧ inMsixTable 0x41058 = false ∧ fields 0x60 = none
    ∧ fields 0 = some (0, 0xFFFFFFFF) ∧ fields 0x41058 ≠ none ∧ fields 0x50000 ≠ none ∧ inMsixTable 0x34058 = true ∧ (tVector true).msix 0 5 = ⟨0xFEE00010, 5, true, true⟩
    ∧ ((tVector false).msix 0 5).pending = false ∧ (0x34058 - 0x34000) / 16 = 5 ∧ tRings.frozen .vf 1 = false ∧ (tRings.freezeVf 1).frozen .vf 1 = true
    ∧ (tRings.freezeVf 1).hostAnswers = true ∧ fields 0x64 = none := by decide +kernel
/-- 20_setup's worked example at ring 5, and the other refusals. -/
theorem test_setup : tErrOf (tPut tRings 0x41058 4 0x800C2009) = (1, 1, 0x41058, 0x800C2009) ∧ tErrOf (tPut tRings 0x41058 4 0x800C0009) = (0, 0, 0, 0)
    ∧ (tPut tRings 0x41058 4 0x800C0009).reg 0x41058 = 0x800C0009
    ∧ tErrOf (tPut (tPut tRings 0x41058 4 0x800C0009) 0x41058 4 0x800D0009) = (1, 4, 0x41058, 0x800D0009)
    ∧ (tPut (tPut tRings 0x41058 4 0x800C0009) 0x41058 4 0x800D0009).reg 0x41058 = 0x800C0009
    ∧ tErrOf (tPut tRings 0x50008 8 0x80010000) = (1, 1, 0x50008, 0x80010000) ∧ tErrOf (tPut tRings 0x50008 8 0x80020000) = (0, 0, 0, 0)
    ∧ (tPut tRings 0x50008 8 0x80020000).regPair 0x50008 = 0x80020000 ∧ tErrOf (tPut tRings 0x60 4 7) = (1, 5, 0x60, 7) ∧ tErrOf (tPut tRings 0 4 7) = (1, 3, 0, 7)
    ∧ (tPut tRings 0x41059 4 0).out = [.unsupportedRequest] := by decide +kernel
theorem test_setup_failed : tErrOf (tPut { tRings with card := { tRings.card with device := .failed } } 0x40038 4 0) = (1, 6, 0x40038, 0)
    ∧ (tPut tRings 0x34058 4 0x77) = { tRings with host := { tRings.host with msix := Table.set tRings.host.msix 5 ⟨0, 0x77, true, false⟩ } }
    ∧ ((tPut tRings 0x34050 8 0xFEE000100).msix 0 5).addr = 0xFEE000100 ∧ (tPut (tVector true) 0x3405C 4 0).msix 0 5 = ⟨0xFEE00010, 5, false, false⟩
    ∧ (tPut (tVector true) 0x3405C 4 0).out = [.msix 0 5 0xFEE00010 5] ∧ (tPut (tVector false) 0x3405C 4 1).msix 0 5 = ⟨0xFEE00010, 5, true, false⟩ := by
  decide +kernel
def tVfPut (s : State) (off : BitVec 26) (d : Word) : State := tNext (.setupRegisterWrite 1 off 4 d) s
theorem test_setup_vf : (tVfPut (tRings.freezeVf 1) 0 0).out = (tRings.freezeVf 1).out ++ [.unsupportedRequest]
    ∧ (tVfPut tRings 0x10 0) = tRings.freezeVf 1 ∧ (tVfPut tRings 8 5).setup.errReason = 3 ∧ (tVfPut tRings 8 5).setup.errFunction = 1
    ∧ ((tVfPut tRings 0x8018 5).msix 1 1).data = 5 := by decide +kernel
/-- Reads that change state: two errors counted, an event lost, a counter of port 2, and the timebase. -/
def tCounts : State := { tRings with
  tick := 0x123456789
  setup := { tRings.setup with errCount := 3, errReason := 1 }
  sched := { tRings.sched with evtLost := 4 }
  fabric := (tRings.setPort 2 { (tRings.port 2) with replays := 6 }).fabric }
theorem test_setup_reads : (tNext .genSetupErrRead tCounts).out = [.mmioData 0x00010003] ∧ (tNext .genSetupErrRead (tNext .genSetupErrRead tCounts)).out = [.mmioData 0x00010003, .mmioData 0x00010000]
    ∧ (tNext .stbEvtLostRead tCounts).out = [.mmioData 4] ∧ (tNext .stbEvtLostRead tCounts).sched.evtLost = 0
    ∧ (tNext .tbTimeLoRead tCounts).out = [.mmioData 0x23456789] ∧ (tNext .tbTimeLoRead tCounts).setup.latch = some 1
    ∧ (tNext (.evlCounterRead 2 2) tCounts).out = [.mmioData 6] ∧ ((tNext (.evlCounterRead 2 2) tCounts).port 2).replays = 0
    ∧ (tNext .tbTimeLoRead { tCounts with card := { tCounts.card with device := .recovery } }).out = [.mmioData 0] := by decide +kernel

/-! ### Writes that act, stream loads, and resets of units -/

/-- An abort of job 0, ring 9 enabled, ring 0 disabled with records unsignalled. -/
theorem wit_acting : tRings.job 0 = some tJob ∧ tJob.phase.abortable = true ∧ tRings.cfgRefused (cring 9) 0x80000006 = none
    ∧ tRings.ringEnabled (cring 9) = false ∧ (0x80000006#32 &&& ~~~ 0x87FF1F0F#32) = 0 ∧ tRings.ringEnabled (cring 0) = true
    ∧ tRings.cfgRefused (cring 0) 0 = none ∧ (cring 9).val < 256 ∧ ringCfgOff (cring 9) = 0x41098 ∧ (0x87FF1F0F#32).toNat < 2 ^ 32 := by decide +kernel
theorem test_acting : tNext (.stbJobAbort 0x80000000) tRings = tRings.requestAbort 0 ∧ ((tRings.requestAbort 0).job 0).map (·.phase) ≠ some .running
    ∧ tNext (.ringEnable (cring 9) 0x80000006) tRings = (tRings.setReg 0x41098 0x80000006).setRing 9 Ring.reset
    ∧ (tNext (.ringDisable (cring 0) 0) (tRings.setRing 0 ⟨5, 0, 2, 1⟩)).ring 0 = ⟨5, 0, 0, 1⟩
    ∧ (tNext (.ringDisable (cring 0) 0) (tRings.setRing 0 ⟨5, 0, 2, 1⟩)).ringEnabled 0 = false := by decide +kernel
/-- Address space 5 loaded from a table of one entry at 0x90000000, for function 0. -/
def tTableRegs (cfg : W32) : State :=
  { tRings with
    setup := { tRings.setup with regs := tRings.setup.regs ++ [(0x50000, 5), (0x50008, 0x90000000), (0x50010, 0x80000000), (0x50018, 0x1000), (0x5001C, cfg)] }
    memory := { tRings.memory with mem := (((List.range 32).map (fun i => (0x90000000 + i, bitsAt (tEnt 0x1010000 0x40000000).bits (8 * i) 8))).filter
      (fun p => decide (p.2 ≠ 0))) } }
theorem wit_asp : (tTableRegs 0x80000001).aspLoadable = true ∧ (tTableRegs 0x80000001).aspSel = 5 ∧ (tTableRegs 0x80000002).aspLoadable = false
    ∧ (tTableRegs 0x80000001).stagedEntries.map RangeEntry.ofBits = [tEnt 0x1010000 0x40000000] ∧ (tTableRegs 0).aspLoadable = true := by decide +kernel
theorem test_asp : ((tNext (.aspLoad 1) (tTableRegs 0x80000001)).space 5).entries = [tEnt 0x1010000 0x40000000]
    ∧ ((tNext (.aspLoad 1) (tTableRegs 0x80000001)).space 5).enabled = true ∧ ((tNext (.aspLoad 1) (tTableRegs 0x80000001)).space 5).tableBase = 0x90000000
    ∧ (tNext (.aspLoad 1) (tTableRegs 0x80000002)).setup.errReason = 4 ∧ ((tNext (.aspLoad 1) (tTableRegs 0)).space 5).enabled = false := by decide +kernel
/-- The Kestrel of cluster 2, and the one of the dead cluster 20, in Talon. -/
def tTalon (d : Bool) : State := { tRings with integ := { tRings.integ with talon := [⟨.kestrel, 2, d, none, 1, false⟩, ⟨.kestrel, 20, true, none, 1, false⟩] } }
theorem wit_unfreeze : (tTalon true).talonOf 1 2 = some ⟨.kestrel, 2, true, none, 1, false⟩ ∧ (tTalon true).fencedMaster 1 2 = false
    ∧ (tTalon true).talonOf 1 20 = some ⟨.kestrel, 20, true, none, 1, false⟩ ∧ (tTalon true).fencedMaster 1 20 = true
    ∧ (tTalon false).talonOf 1 2 = some ⟨.kestrel, 2, false, none, 1, false⟩ := by decide +kernel
theorem test_unfreeze : (tNext (.errUnfreeze 0x80000201) (tTalon true)).frozen .kestrel 2 = false ∧ (tNext (.errUnfreeze 0x80001401) (tTalon true)).setup.errReason = 4
    ∧ (tNext (.errUnfreeze 0x80001401) (tTalon true)).frozen .kestrel 20 = true ∧ (tNext (.errUnfreeze 0x80000201) (tTalon false)).setup.errReason = 4
    ∧ tNext (.errUnfreeze 0x80000201) (tTalon true) = (tTalon true).unfreeze .kestrel 2 := by decide +kernel
/-- A retired cluster, units to reset, ways and quadrants, a port that carries traffic, and ring errors. -/
def tActive : State := ({ tRings with
  integ := { tRings.integ with retired := 0x300 }, host := { tRings.host with ringErr := 0x1000000000000000F } }.setQuad 3 ⟨0, 0, false⟩).setPort 2
    { tRings.port 2 with cable := true, lstate := 2, replay := [⟨4, .null⟩], powered := true }
theorem wit_units : tActive.integ.retired.getLsbD 8 = true ∧ tActive.unitResetRefused 2 3 = none ∧ (tActive.unit 2 3).lastTick = none
    ∧ tActive.quadOffOk 0 = true ∧ (tActive.unit ukPort 2).inReset = false ∧ (tActive.port 2).cable = true ∧ tActive.card.auxPower = true
    ∧ (tActive.port 2).carries = true ∧ (tActive.port 2).replay ≠ [] ∧ tActive.quadOffOk 8 = true ∧ tActive.quadOffOk 2 = false
    ∧ (3#32 &&& ~~~ 0xFF3F1F03#32) = 0 ∧ (bitsAt (3#32) 8 5).toNat ≤ 16 := by decide +kernel
theorem test_units : (tNext (.errRetireClear 0x80000008) tActive).integ.retired = 0x200 ∧ tNext (.pwrUnitReset 0x80000302) tActive = tActive.resetUnit 2 3
    ∧ ((tActive.resetUnit 2 3).unit 2 3) = ⟨1, true, some 0, false⟩ ∧ (tNext (.pwrL2qWayon 1 0x00F0) tActive).quad 1 = { tActive.quad 1 with cleaning := (tActive.quad 1).on &&& 0xFF0F }
    ∧ (tNext (.pwrL2qWayon 1 0x00F0) tActive).wayOn 1 = 0xF0 ∧ ((tNext (.pwrL2qOff 8) tActive).quad 3).off = true ∧ ((tNext (.pwrL2qOff 8) tActive).unit 5 3).epoch = 1
    ∧ ((tNext (.pwrL2qOff 8) tActive).quad 0).off = false := by decide +kernel
theorem test_ports : ((tNext (.retrain 2 3) tActive).port 2).train = .lock ∧ ((tNext (.retrain 2 3) tActive).port 2).retrains = 1
    ∧ ((tNext (.retrain 2 3) tActive).port 2).lstate = 1 ∧ (tNext (.retrain 2 3) tActive).evlCtl 2 = 1 ||| (tActive.evlCtl 2 &&& ~~~0xFF3F1F03#32)
    ∧ tNext (.evlDrain 2 1) tActive = tActive.drainPort 2 ∧ ((tActive.drainPort 2).port 2).lstate = 5
    ∧ (tNext (.hifRingErrClear 0 3) tActive).host.ringErr = 0x1000000000000000C ∧ (tNext (.hifRingErrClear 2 1) tActive).host.ringErr = 0xF := by decide +kernel
/-- A periodic entry of stream 9: job 3, priority 5, ring 0, start index 100, period 4,000 with phase 50 and a budget. -/
def tEntry (en : Nat) (f : Nat) (size : Nat) : Line :=
  tLineOf [(0, 0x7000), (8, size), (9, 3), (10, 5 + 16 + 32 * en), (11, f), (12, 0), (16, 4000), (20, 50), (24, 900), (32, 100)]
theorem wit_stream_load : flagAt (tEntry 1 0 6) 10 5 = true ∧ tRings.entryLoadable (tEntry 1 0 6) = true ∧ (tRings.stream 9).enabled = false ∧ (tRings.stream 9).descs = []
    ∧ (tRings.stream 9).notices = [] ∧ tRings.entryLoadable (tEntry 1 0 3) = false ∧ tRings.entryLoadable (tEntry 1 4 6) = false
    ∧ flagAt (tEntry 0 0 6) 10 5 = false ∧ tRings.frozen .vf 4 = false ∧ (fieldAt (tEntry 1 0 6) 11 0 5).toNat ≠ 4 ∧ (fieldAt (tEntry 1 4 6) 11 0 5).toNat = 4
    ∧ tRings.hostAnswers = true := by decide +kernel
def tLoadAs (f : FunctionId) (s : State) (e : Line) : State := tNext (.vfStreamLoad f 0x10009 (.data e)) s
def tLoaded : Stream := (tNext (.stbStreamLoad 0x10009 (.data (tEntry 1 0 6))) tRings).stream 9
theorem test_stream_load : tLoaded.enabled = true ∧ tLoaded.ringBase = 0x7000 ∧ tLoaded.log2Size = 6 ∧ tLoaded.job = 3 ∧ tLoaded.prio = 5
    ∧ tLoaded.cring = 0 ∧ tLoaded.period = 4000 ∧ tLoaded.phaseTicks = 50 ∧ tLoaded.budget = 900 ∧ tLoaded.readIdx = 100 ∧ tLoaded.producer = 100
    ∧ tLoaded.nextTerminal = 100 ∧ tLoaded.phase = .idle ∧ tLoaded.halted = false ∧ tLoaded.periodic = true ∧ tLoaded.seqActed.isNone = true := by decide +kernel
theorem test_stream_load_refused : (tNext (.stbStreamLoad 0x10009 (.data (tEntry 1 0 3))) tRings).setup.errReason = 4
    ∧ ((tNext (.stbStreamLoad 0x10009 (.error .ur)) tRings).setup.errReason, (tNext (.stbStreamLoad 0x10009 (.error .ur)) tRings).setup.errAddr) = (4, 0x40018)
    ∧ ((tLoadAs 4 tRings (tEntry 1 0 6)).setup.errReason, (tLoadAs 4 tRings (tEntry 1 0 6)).setup.errFunction, (tLoadAs 4 tRings (tEntry 1 0 6)).setup.errAddr) = (4, 4, 4)
    ∧ ((tNext (.stbStreamLoad 0x10009 (.data (tEntry 0 0 6))) tRings).stream 9).enabled = false ∧ tNext (.stbStreamLoad 9 (.data (tEntry 1 0 6))) tRings = tRings := by
  decide +kernel
/-- Cluster 0, its mover and port 2 in reset, with store-buffer entries and a request. -/
def tHalting : State := tRings.setCluster 0 { tCluster { Kestrel.reset with g := [(2, 5)] } with store := [(0x1000, 1)], storeBuf := [tEntryByte], queue := [⟨0x1000, 0x3FF8, 16, 0x5000, 0, 0, none, []⟩] }
def tInReset (k n : Nat) (again : Bool) (r : Bool) : State :=
  (tHalting.setUnit k n ⟨3, r, some 0, again⟩).setPort 2 { tRings.port 2 with cable := true, lstate := 0, powered := true }
theorem wit_unit_resets : (tInReset 1 0 false true).host.b2Held = [] ∧ unitExists 1 0 = true ∧ ((tInReset 1 0 false true).unit 1 0).inReset = true
    ∧ (tInReset 1 0 false true).isLive 0 = true ∧ (tInReset 1 0 false true).frozen .kestrel 0 = false ∧ ((tInReset 3 2 false true).port 2).cable = true
    ∧ ((tInReset 3 2 false true).setReg (evlBase 2) 1).evlEnabled 2 = true ∧ ((tInReset 2 0 true false).unit 2 0).again = true
    ∧ ((tInReset 1 0 false true).cluster 0).storeBuf ≠ [] := by decide +kernel
theorem test_unit_resets : ((tNext (.unitResetDone 1 0) (tInReset 1 0 false true)).cluster 0) = { Cluster.reset with powered := true }
    ∧ (tNext (.unitResetDone 1 0) (tInReset 1 0 false true)).unit 1 0 = ⟨3, false, some 0, false⟩
    ∧ ((tNext (.unitResetDone 2 0) (tInReset 2 0 false true)).cluster 0).queue = []
    ∧ ((tNext (.unitResetDone 3 2) ((tInReset 3 2 false true).setReg (evlBase 2) 1)).port 2).train = .lock
    ∧ (tNext (.resetHoldEnd 2 0) (tInReset 2 0 true false)).unit 2 0 = ⟨4, true, some 0, false⟩ := by decide +kernel
theorem test_store_drain : (tNext (.storeDrainLimit 0) (tInReset 1 0 false true)).cluster 0 = { (tInReset 1 0 false true).cluster 0 with storeBuf := [] }
    ∧ (tNext (.storeDrainLimit 0) (tInReset 1 0 false true)).integ.logNext = 1 ∧ (tNext (.storeDrainLimit 0) (tInReset 1 0 false true)).memory = tHalting.memory := by
  decide +kernel
/-- Quadrant 0 with way 3 CLEANING, and way 5 requested on while OFF. -/
def tWays : State := tRings.setQuad 0 ⟨0xFFDF, 8, false⟩
theorem wit_ways : (tWays.quad 0).cleaning.getLsbD 3 = true ∧ (tWays.wayOn 0).getLsbD 5 = true ∧ (tWays.quad 0).on.getLsbD 5 = false
    ∧ (tWays.quad 0).off = false := by decide +kernel
theorem test_ways : (tNext (.wayOff 0 3) tWays).quad 0 = ⟨0xFFD7, 0, false⟩ ∧ (tNext (.wayPowerUp 0 5) tWays).quad 0 = ⟨0xFFFF, 8, false⟩ := by decide +kernel

/-! ### Boots, resets of functions, losses, fatal conditions, power -/

/-- A boot with 600 W, auxiliary power, a good image 1.3 in slot 0 and a bad one in slot 1, stacks 1 to 5, slice 62 failing, a cable on port 4. -/
def tEnv (ok : Bool) (aux : Bool) : BootEnv :=
  { sense0Open := false, sense1Open := false, auxPower := aux, slot0 := ⟨ok, 2, 0x10003⟩, slot1 := ⟨false, 9, 0x20000⟩
    measurements := 77, stacksTrain := 0x3E, slicesPass := 0xBFFFFFFFFFFFFFFF, cables := 0x10, link := ⟨6, 16, true⟩ }
def tUsed : State := { tRings with integ := { tRings.integ with retired := 0x81, log := [(4, LogEntry.mk 4 1 0 0 0 0 0 0 0 0 1 0 0 0 0 0 0 0)], logNext := 5 } }
def tNow (r : Result) (s : State) : State :=
  match r with
  | .next t => t
  | .fault _ => s
  | .refused _ => s
def tBooted (ok aux : Bool) : State := tNow (execColdReset (tEnv ok aux) tUsed) tUsed
def tOff : State := tNow (execPowerRemoval tUsed) tUsed
theorem wit_boot : (tEnv true true).slot0.ok = true ∧ tUsed.host.activeSlot = false ∧ tUsed.host.staged = [] ∧ tUsed.card.device ≠ .off
    ∧ tUsed.card.device ≠ .booting ∧ (tEnv false true).slot0.ok = false ∧ (tEnv false true).slot1.ok = false ∧ tOff.card.device = .off
    ∧ { tEnv true true with slicesPass := 0xFFFFFFFFFFFFFFFF }.slicesPass = BitVec.allOnes 64 := by decide +kernel
theorem test_boot : (tBooted true true).card.device = .ready ∧ (tBooted true true).card.boardW = 600 ∧ (tBooted true true).card.live = 0xFFFFFFFFFF7E
    ∧ (tBooted true true).memory.stacksTrained = 0x3E ∧ (tBooted true true).memory.slicesLost = 0x4000000000000000
    ∧ (tBooted true true).integ.dumpBase = 0x3EF800000 ∧ (tBooted true true).host.fwVersion = 0x10003 ∧ (tBooted true true).integ.svn = 2
    ∧ ((tBooted true true).cluster 0).powered = false ∧ ((tBooted true true).cluster 1).powered = true ∧ ((tBooted true true).port 4).train = .lock
    ∧ (tBooted true true).integ.logNext = 1 ∧ (tBooted true true).job 0 = none ∧ (tBooted true true).integ.meas = 77 := by decide +kernel
theorem test_boot_other : (tBooted true false).card.live = 0 ∧ (tBooted true false).integ.dumpState = 4 ∧ (tBooted false true).card.device = .recovery
    ∧ (tNext (.warmReset (tEnv true false)) tUsed).integ.logNext = 5 ∧ tNext (.warmReset (tEnv true true)) tOff = tOff
    ∧ (tNext .perstDeassert tUsed).host.perst = false ∧ tNext .powerRemoval tUsed = tOff ∧ (tNext .supplyCutoff tUsed).integ.retired = 0x81
    ∧ (tNext .supplyCutoff tUsed).integ.log = [] := by decide +kernel
/-- HIF_LINK at 64 GT/s on 16 lanes in FLIT mode, before and after PERST# is deasserted; VF_INFO, and an offset that VF BAR0 does not list. -/
theorem test_link : (tBooted true true).bar0Read 0x30000 = 0 ∧ (tNext .perstDeassert (tBooted true true)).bar0Read 0x30000 = 0x30106
    ∧ tRings.vfBar0Read 4 0 = some 4 ∧ tRings.vfBar0Read 4 8 = some 0 ∧ tRings.vfBar0Read 4 0x8400 = none := by decide +kernel
/-- R433 at level 4 (the worked example of 18_clocks_power): frames 3, 7, 11 and 15. -/
theorem test_frames : (List.range 16).filter (frameSuppressed 4) = [3, 7, 11, 15] := by decide +kernel
/-- A job, a stream of VF 4, ring 9 and space 5 of VF 4, and a master of Talon that is dumped and one that is not. -/
def tFunctions : State :=
  let s := (tRings.setStream 9 { tStream with function := 4 }).setReg 0x41098 0x80000406
  (({ s with integ := { s.integ with talon := [⟨.kestrel, 2, true, none, 1, false⟩, ⟨.mover, 3, false, none, 1, false⟩] } } : State).setSpace 5
    { Space.reset with enabled := true, function := 4 }).setCluster 0 (tIdle 0)
def tHot : State := tNow (execHotReset tFunctions) tFunctions
theorem wit_functions : tFunctions.hostAnswers = true ∧ tFunctions.ready = true ∧ (tFunctions.stream 9).enabled = true ∧ (tFunctions.stream 9).function = 4
    ∧ tFunctions.ringFunction 9 = 4 ∧ (tFunctions.space 5).enabled = true ∧ (tFunctions.space 5).function = 4 ∧ tFunctions.ringEnabled 9 = true
    ∧ { tFunctions with card := { tFunctions.card with device := .recovery } }.hostAnswers = true
    ∧ { tFunctions with card := { tFunctions.card with device := .recovery } }.ready = false := by decide +kernel
theorem test_hot_reset : tHot.sched.jobs = [] ∧ tHot.sched.streams = [] ∧ tHot.ringEnabled 0 = false ∧ tHot.ringEnabled 9 = false ∧ (tHot.space 5).enabled = false
    ∧ (tHot.cluster 0).job = none ∧ tHot.integ.talon = [⟨.mover, 3, false, none, 1, true⟩] ∧ tHot.out = [] ∧ tHot.host.msix = [] := by decide +kernel
theorem test_vf_reset : ((tNext (.vfFlr 4) tFunctions).stream 9) = Stream.reset ∧ (tNext (.vfFlr 4) tFunctions).ringEnabled 9 = false
    ∧ ((tNext (.vfFlr 4) tFunctions).space 5).enabled = false ∧ (tNext (.vfFlr 4) tFunctions).ringEnabled 0 = true
    ∧ (tNext (.vfFlr 3) tFunctions).ringEnabled 9 = true ∧ ((tNext .vfEnableClear tFunctions).stream 9).enabled = false := by decide +kernel
/-- One master in Talon, a cluster that retires, an L2 line of slice k, and an open request of a withdrawal. -/
def tOne (rel : Bool) : State := { tRings with integ := { tRings.integ with talon := [⟨.mover, 3, false, none, 1, rel⟩], retiring := [3] } }
theorem wit_losses : (tOne false).ready = true ∧ ((tOne false).cluster 3).job = none ∧ (tOne false).isLive 3 = true
    ∧ ({ tOne false with card := { (tOne false).card with live := 0 } } : State).isLive 3 = false
    ∧ (tOne false).memory.slicesLost.getLsbD 62 = false ∧ (tOne false).memory.stacksTrained.getLsbD 2 = true
    ∧ (tOne false).memory.stacksLost.getLsbD 2 = false ∧ (tOne false).card.memOn.getLsbD 2 = true ∧ ((tOne false).unit 4 2).lastTick = none := by decide +kernel
theorem test_losses : (tNext (.talonDumpDone .mover 3) (tOne false)).integ.talon = [⟨.mover, 3, true, none, 1, false⟩]
    ∧ (tNext (.talonDumpDone .mover 3) (tOne true)).integ.talon = [] ∧ (tNext (.clusterRetire 3) (tOne false)).integ.retired = 8
    ∧ (tNext (.clusterRetire 3) (tOne false)).isLive 3 = false ∧ (tNext (.clusterRetire 3) (tOne false)).frozen .kestrel 3 = true
    ∧ (tNext (.correctedEccLimit 5) tRings).integ.suspects = [(5, [0])] ∧ (tNext (.correctedEccLimit 5) tRings).integ.retiring = [] := by decide +kernel
/-- A clean line of slice 62 (13_memory's worked example) and one elsewhere. -/
def tSliced : State := { tRings with memory := { tRings.memory with l2 := [⟨none, 0x48D159E, 0, false, 7⟩, ⟨none, 0x48D159F, 0, false, 7⟩] } }
theorem test_slices : sliceOf 0x48D159E = 62 ∧ (tNext (.sliceLost 62 true 2) tSliced).memory.l2 = [⟨none, 0x48D159F, 0, false, 7⟩]
    ∧ (tNext (.sliceLost 62 true 2) tSliced).memory.slicesLost = 0x4000000000000000 ∧ (tNext (.sliceLost 62 true 2) tSliced).integ.logNext = 1
    ∧ (tNext (.stackLost 2 1) tRings).memory.stacksLost = 4 ∧ (tNext (.stackLost 2 1) tRings).card.memOn = 0x3B ∧ ((tNext (.stackLost 2 1) tRings).unit 4 2).epoch = 1
    ∧ (tNext (.stackLost 2 1) tRings).ready = true ∧ (tNext (.stackLost 3 1) (tNext (.stackLost 2 1) tRings)).integ.reason = 3
    ∧ (tNext (.stackLost 3 1) (tNext (.stackLost 2 1) tRings)).ready = false ∧ (tNext (.controllerHang 2) tRings).unit 4 2 = ⟨1, true, some 0, false⟩ := by
  decide +kernel
/-- A withdrawal whose span has an open request. -/
def tOpenRequest : State :=
  let t := tTableOf [tLeaving] (tGoing tWithdraw)
  let s := t.setSpace 0 { t.space 0 with ops := [(0, 0)] }
  { s with fabric := { s.fabric with requests := [{ tPeer with cluster := 0, mkind := .mover, va := 0x1012000, job := 0, answer := none, gen := 3 }] } }
theorem wit_open_request : tOpenRequest.ready = true ∧ tOpenRequest.fabric.requests = [{ tPeer with cluster := 0, mkind := .mover, va := 0x1012000, job := 0, answer := none, gen := 3 }]
    ∧ tOpenRequest.waitsOn (.withdraw 0) { tPeer with cluster := 0, mkind := .mover, va := 0x1012000, job := 0, answer := none, gen := 3 } = true
    ∧ tOpenRequest.frozen .mover 0 = false := by decide +kernel
theorem test_open_request : (tNext (.xactTimeout 0 .mover (.withdraw 0)) tOpenRequest).fabric.requests = []
    ∧ (tNext (.xactTimeout 0 .mover (.withdraw 0)) tOpenRequest).frozen .mover 0 = true := by decide +kernel
/-- A device with a dump area, one without, and dumps that go on: one on the Steward's path and one on the boot ROM's. -/
def tArea : State := { tRings with tick := 500, integ := { tRings.integ with dumpBase := 0x1EF800000 } }
def tNoArea : State := { tRings with tick := 500, integ := { tRings.integ with dumpState := 4 } }
def tDumps (rom : Bool) : State := { tNoArea with
  integ := { tNoArea.integ with dumpState := 4, reason := 2, dumpDetail := 9, tickFatal := 400, romDump := rom } }
def tDumpArea : State := { tArea with integ := { tArea.integ with dumpState := 1, reason := 2, dumpDetail := 9, tickFatal := 400 } }
def tFatal : State := tNow (execStewardFault 0x77 tNoArea) tNoArea
theorem wit_fatal : tArea.card.device = .ready ∧ tArea.integ.reason = 0 ∧ tArea.card.rootLock = true ∧ tArea.hasDumpArea = true ∧ tNoArea.hasDumpArea = false
    ∧ Mem.wf tArea.memory.mem = true ∧ (tDumps false).dumping = true ∧ (tDumps false).integ.romDump = false ∧ (tDumps true).dumping = true
    ∧ tDumpArea.dumping = true ∧ tDumpArea.hasDumpArea = true ∧ tDumpArea.nextSection tDumpArea.integ.dumpNext = some 0 := by decide +kernel
theorem test_fatal : tFatal.integ.reason = 1 ∧ tFatal.integ.tickFatal = 500 ∧ tFatal.integ.dumpDetail = 0x77 ∧ tFatal.ready = false ∧ tFatal.integ.dumpState = 4
    ∧ tFatal.integ.logNext = 1 ∧ tFatal.frozen .hearth 47 = true ∧ tFatal.frozen .vf 31 = true ∧ tFatal.frozen .evoirIn 7 = true := by decide +kernel
theorem test_fatal_pll : (tNext .rootPllUnlock tNoArea).integ.reason = 2 ∧ (tNext .rootPllUnlock tNoArea).integ.dumpDetail = 0xFF
    ∧ (tNext .rootPllUnlock tNoArea).card.rootLock = false ∧ (tNext .rootPllUnlock tNoArea).integ.dumpState = 4 := by decide +kernel
theorem test_dumping : (tNext (.networkUncorrectable 4) (tDumps false)).integ.logNext = 1 ∧ (tNext (.networkUncorrectable 4) (tDumps false)).integ.dumpDetail = 9
    ∧ (tNext (.stewardFault 3) (tDumps false)).integ.romDump = true ∧ (tNext (.stewardFault 3) (tDumps false)).integ.reason = 2
    ∧ (tNext (.stewardFault 3) (tDumps true)).card.device = .failed := by decide +kernel
theorem test_dump_timeout : (tNext .dumpTimeout (tDumps false)).card.device = .failed ∧ (tNext .dumpTimeout (tDumps false)).integ.tickDone = 500
    ∧ (tNext .dumpTimeout (tDumps false)).integ.dumpState = 4 ∧ (tNext .dumpTimeout (tDumps false)).out.contains .aerUncorrectableInternal = true
    ∧ ((tNext .dumpTimeout (tDumps false)).port 2).powered = false := by decide +kernel
/-- 18_power's worked example: a cap of 420 W. -/
def tCapped (l : BitVec 4) (floor : BitVec 4) : State := { tRings.setReg 0x20000 (420 <<< 16) with card := { tRings.card with level := l, floor := floor } }
def tLevel (l : BitVec 4) (mw : W32) : BitVec 4 := (tNow (execPowerLoop mw (tCapped l 0)) tRings).card.level
def tFloor (f : BitVec 4) (t : Int) : BitVec 4 := (tNow (execThermalSample (BitVec.ofInt 16 (256 * t)) (tCapped 0 f)) tRings).card.floor
theorem wit_power : (tCapped 0 0).ready = true ∧ (tCapped 0 0).capW = 420 ∧ (tCapped 0 0).card.memOn.getLsbD 1 = true
    ∧ ((tCapped 0 0).setReg 0x20010 5).isFree 3 = true ∧ (({ tRings with clusters := [(3, { Cluster.reset with powered := true })] } : State).setReg 0x20010 5).isFree 3 = true := by
  decide +kernel
theorem test_power : tLevel 0 452000 = 4 ∧ tLevel 4 418000 = 4 ∧ tLevel 4 401000 = 3 ∧ tLevel 3 399000 = 2 ∧ tLevel 12 500000 = 15 ∧ tLevel 0 420001 = 1 := by decide +kernel
theorem test_thermal : tFloor 0 91 = 0 ∧ tFloor 0 96 = 4 ∧ tFloor 4 93 = 4 ∧ tFloor 4 91 = 0 ∧ tFloor 4 101 = 8 ∧ tFloor 8 103 = 8 ∧ tFloor 15 103 = 15 ∧ tFloor 15 101 = 8
    ∧ (tNext (.thermalSample 0x6E00) (tCapped 0 0)).card.stall = true ∧ (tNext (.thermalSample 0x6B00) (tCapped 0 0)).card.stall = false := by decide +kernel
def tCold : State := ({ tRings with clusters := [(3, { Cluster.reset with powered := true, store := [(1, 1)] })] } : State).setReg 0x20010 5
theorem wit_idle : tCold.ready = true ∧ tCold.reg 0x20010 ≠ 0 ∧ tCold.isFree 3 = true ∧ (tCold.cluster 3).powered = true
    ∧ tRings.card.memOn.getLsbD 1 = true ∧ (tRings.setReg 0x20014 8).reg 0x20014 ≠ 0 := by decide +kernel
theorem test_idle : (tNext (.clusterIdlePowerDown 3) tCold).cluster 3 = Cluster.reset ∧ ((tNext (.clusterIdlePowerDown 3) tCold).unit 1 3).epoch = 1
    ∧ (tNext (.selfRefresh 1) (tRings.setReg 0x20014 8)).card.selfRefresh = 2
    ∧ (tNext (.stackTemperature 1 0x5F00) tRings).card.refresh2 = 2 ∧ (tNext (.stackTemperature 1 0x5F00) tRings).card.slowReq = 0
    ∧ (tNext (.stackTemperature 1 0x6900) tRings).card.slowReq = 2 := by decide +kernel

/-! ### The Evoir link and fabric -/

/-- A device of fabric ID 0x111 in a 4 x 4 x 4 torus with root 0x000 and port `p` in a given state; its x- port is port 1. -/
def tPort : Port := { Port.reset with cable := true, powered := true, lstate := 2, neigh := 0x011, neighValid := true }
def tNode (p : PortId) (x : Port) : State :=
  { tRings with setup := { tRings.setup with regs := (0x200, 0x83330111) :: tRings.setup.regs } }.setPort p x
def tTrain (t : TrainPhase) : State := tNode 1 { tPort with lstate := 1, train := t }
def tLine10 : List (BitVec 4) := List.replicate 96 10
def tUp : Port := { tPort with lstate := 1, train := .verify, lanes := [(0, { Lane.reset with rxA := tLine10 })] }
theorem wit_train : (tTrain .lock).ready = true ∧ (tTrain .lock).fabId = 0x111 ∧ (tTrain .lock).evlEnabled 1 = true ∧ (tTrain .lock).card.auxPower = true
    ∧ (tTrain .probe).evlThresh 1 = 192 ∧ (tTrain .probe).evlMargin 1 = 300 ∧ (tTrain .verify).deadDimension 1 = false
    ∧ ((tTrain .verify).setReg 0x200 0x80000111).deadDimension 1 = true ∧ tableBits tLine10 = 960 ∧ (tNode 1 tPort).receives 1 = true
    ∧ (tNode 1 tPort).impliedNeighbour 1 = some 0x011 ∧ (tNode 1 tPort).torusPort 1 = none ∧ (tNode 1 { tPort with cable := false, lstate := 0 }).ready = true := by
  decide +kernel
theorem test_train : ((tNext (.cablePresent 1) (tNode 1 { Port.reset with lstate := 0 })).port 1).train = .lock ∧ ((tNext (.cableRemoval 1) (tNode 1 tPort)).port 1).lstate = 0
    ∧ ((tNext (.cableRemoval 1) (tNode 1 tPort)).port 1).powered = false ∧ ((tNext (.lock 1) (tTrain .lock)).port 1).train = .detect
    ∧ ((tNext (.preambleDetect 1 192) (tTrain .detect)).port 1).train = .probe ∧ ((tNext (.preambleDetect 1 191) (tTrain .detect)).port 1).train = .detect
    ∧ ((tNext (.correlatorTimeout 1) (tTrain .detect)).port 1).fails = 1
    ∧ ((tNext (.correlatorTimeout 1) (tNode 1 { tPort with lstate := 1, train := .detect, fails := 2 })).port 1).lstate = 6
    ∧ ((tNext (.preambleDetect 1 200) (tNode 1 { tPort with lstate := 3 })).port 1).lstate = 2
    ∧ ((tNext (.preambleDetect 1 200) (tNode 1 { tPort with lstate := 4 })).port 1).train = .lock := by decide +kernel
/-- 15_evoir_link's worked example of the loading at a margin of 3 dB. -/
theorem test_loading : newLoad 300 3900 0 = 10 ∧ newLoad 300 3320 0 = 8 ∧ newLoad 300 2700 0 = 6 ∧ newLoad 300 2010 0 = 4 ∧ newLoad 300 1610 3 = 3 := by decide +kernel
/-- The lane's table of that example: 3 bits where the noise rose, BITS 7,440 and 7,380. -/
theorem test_bits : tableBits (List.replicate 300 10 ++ List.replicate 300 8 ++ List.replicate 300 6 ++ List.replicate 60 4) = 7440
    ∧ tableBits (List.replicate 300 10 ++ List.replicate 300 8 ++ List.replicate 300 6 ++ List.replicate 60 3) = 7380 := by decide +kernel
theorem test_bins : dataBin 0 = 16 ∧ dataBin 29 = 45 ∧ dataBin 30 = 47 ∧ dataBin 959 = 991 ∧ pilotBin 15 = 961 ∧ binRole 46 = .pilot 0
    ∧ binRole 991 = .data 959 ∧ binRole 961 = .pilot 15 ∧ binRole 0 = .zero ∧ binRole 992 = .zero := by decide +kernel
/-- Ratios of 30 dB and of a factor of 2, and a group error that rises by a factor of 2 and by less. -/
theorem test_snr : snrOf (1, 1000) = 3000 ∧ snrOf (1, 2) = 301 ∧ snrOf (2, 1) = -302 ∧ snrOf (1, 8000) = 3903
    ∧ rose 20 10 = true ∧ rose 19 10 = false ∧ rose 5 0 = true := by decide +kernel
/-- A lane sees an IDLE symbol, by its pilots, and a DATA symbol, whose errors count only on the pilots. -/
theorem test_noise : (Lane.reset.sees [⟨0xFF, [2 ^ 22], [5]⟩, ⟨0, [9], [7]⟩]).noise 0 = (2 ^ 22, 2 ^ 32)
    ∧ (Lane.reset.sees [⟨0xFF, [2 ^ 22], [5]⟩, ⟨0, [9], [7]⟩]).noise 1 = (12, 256 * 2 ^ 32)
    ∧ pilotFlag 0x1F false = true ∧ pilotFlag 0x07 true = false ∧ pilotFlag 0x0F true = true := by decide +kernel
/-- The QPSK points, a label of two bits, its first bit the least significant. -/
theorem test_points : constellation [false, false] = ⟨1, 1, 2⟩ ∧ constellation [true, false] = ⟨1, -1, 2⟩ ∧ constellation [false, true] = ⟨-1, 1, 2⟩
    ∧ constellation [] = Tone.zero := by decide +kernel
/-- A codeword of four flits at the start of a burst: a packet with SEQ 9, and three NULL flits, as 36 blocks of 256 bits. -/
def tBlocks : List Nat := [
  0x2F07B3C00F1F7BC03F0FFF820F831CF0C039300073F6FF1B07D13EE1007F0091,
  0x13E7BBF80F0F8C7DF09C1B38FFC8307C73FF00E0F9CFBC13074237B31C8B3FC7,
  0x3F73FF82F07CE2F743DB373E444C1C6BC6089314B48238AC674B00C8D085BC43,
  0xEC1724FFD0CF83BC7CE07B20C6C0439108C12B4BDCB30FC75CF84CDF08DF4430,
  0x935E8B7D57ABA793C9071F69441E2394988330B4A37ABCA3EA2807EB084DBBCE,
  0x743F3F10F9B3BC13F8BDC9BC9F6838F918B450B4CED7D7248BF1C72E9737E23F,
  0xC14AA4A7A809076B484CB308DF9AC7832CE8447A008C908530A42B388C37CF63,
  0x49FAFB870C36B3844F1FF72707D0C84DCFEFE4BA0FB4D28B302437DEBD83A078,
  0xC47B7C6BABA5F893D55BF869F8315939AFCC13C194839FD7BAE8E83472417B9D,
  0xF29C575FC69A6CEA67E6E3D147F86183EFBEF05D916BE402C1C6342298AD2C53,
  0xA719835497BB72BAA3FAA045DB9C68F0BD382079BDAD9F87603EF9083C12845A,
  0xFF4BCF8283831DE8441B08CE44301C6B39F76D1B37613F9250F8E3BC114D10A7,
  0x9FE8241F29003FAF7BA24C93DA4B7C5627C6988BD3AC740763F7B35D075C58C8,
  0x55561869E3299F3FAE4C1FA1949B9FD78B648B4CAC7530DE1AB41CD3F7858BB2,
  0x7CFE145B2500B3D4A445856397B77CC927C7AF363EAB35D3C82AF010D37BFE54,
  0x32CF81E70B73BBC8A264B4E3D7D77C4DC0FF6085D04313394C4450184AF78CF2,
  0x773E7B37C2E164A0C4EE300990E72A725CB16FC7581F7518F92328B7F99E834C,
  0xE8933811AB296816E5FFD3517406965ADBF32CD16D3023C442552188ED2A43C4,
  0x3D73B3E5C92EBE6157C2D40FFA7BC1FB2EF454FA3962E369898A872A4737EBD0,
  0x08D590950338ED6D19124871A9DE13CDD2B20BFAB19B2C032F210E2F3BC24C17,
  0x10F53FDF12E8F9EA85DD3CECDC9D3038FD8C11709CC4C70185A31BD5E97C499E,
  0x22D0046694ADA0281B9CB59BE659F80CD55ACFD4153618ED0411508C40A4394B,
  0x6CA17572D448A0ADFEB4FC1D85D68F702C7D08183BCE4264B94EBC962C19E342,
  0x303E9924F6ACC7D3C7B2363E90EB2401D88C60B4BD28283B8C31F8DE974BE23F,
  0xD2AD1F5FA7068B16B8D0A8302052F7FF5F17449AF9432C9637E61C8B90BFF004,
  0x50F9D401FC4A51730CC4C019439CD42609E777AEBB36EA27576F37166D061C3B,
  0x286C58947B6A7B2FA9BB83493EF11AA8A70D388A48309010E610A4EB7A9D3F0D,
  0x61C2DC229131CB79AEE1FCB803E64217773DC0E9321158A12BEE33C990E0979D,
  0xD326BC446E08CEA95B4769F944F45009A58C70CD737A48A3EBCF3E26AB256665,
  0x3E016B252B8A1A830C57BBC69BAADBE8151F296137EDAF17605CC8849D7ADFC4,
  0xF0620F9C25368C2B34BDBBB4DD9BB41BE8297C31DC18A68C53D38483BADFF8B0,
  0xFA2B71F6488C67AC7B17E7C86CAAC6EE24A8988D38F6AF09A05CF4E785C7F08F,
  0x99B2CDD5518263DA439F673632BFA5FA6901DB37BCF7A765AC5241345C3383A0,
  0xED8ABC5A92959753EDFED2513342D120DFAB4837C0561C40A9221C9DAE632351,
  0x1F5E51EB3743CA1137C7EBA03C85438E6FAEDA2FDF4CB0653833E3CF3846EB2C,
  0x62D3E79F2801217BE968FE42F205605E37C4AA44553445144085ACED9CFB8488]
def tWord : BitVec 9216 := BitVec.ofNat 9216 (tBlocks.foldr (fun b a => b + 2 ^ 256 * a) 0)
def tCarried : Packet :=
  { dst := 0x111, src := 0x011, kind := 4, vcb := false, sealedBlk := false, sealValid := false, tag := 9, op := 0, mkind := 1, mnum := 0
    addr := 8, crc := 0, len := 0, data := List.replicate 192 0 }
def tFlitBytes (n : Nat) : List Byte :=
  ((scramble ((List.range 1024).map (fun k => bitsAt tWord (8 * k) 8)) (scramblerAt 0)).drop (256 * n)).take 256
theorem wit_codeword : codewordFails tWord = false ∧ codewordFails (tWord ^^^ 1) = true := by decide +kernel
set_option maxRecDepth 100000 in
theorem wit_flit_data : flitBody (tFlitBytes 0) = some (.data tCarried) ∧ flitSeq (tFlitBytes 0) = 9 := by decide +kernel
set_option maxRecDepth 100000 in
theorem wit_flit_null : flitBody (tFlitBytes 1) = some .null ∧ flitBody (tFlitBytes 3) = some .null := by decide +kernel
theorem wit_verify : (tNode 1 tUp).ready = true ∧ ((tNode 1 tUp).port 1).train = .verify ∧ 960 ≤ tableBits (((tNode 1 tUp).port 1).lane 0).rx := by decide +kernel
theorem test_hello : ((tNext (.lanePllUnlock 1) (tNode 1 tPort)).port 1).retrains = 1 ∧ ((tNext (.hello 1 0x011 1) (tNode 1 tPort)).port 1).lstate = 2
    ∧ ((tNext (.hello 1 0x211 1) (tNode 1 tPort)).port 1).lstate = 7
    ∧ ((tNext (.correlatorNoiseFire 1 5) (tNode 1 { tPort with agcFrozen := true, lstate := 1, train := .probe })).port 1).train = .detect := by decide +kernel
/-- Two flits in the replay buffer, and after some replays without progress. -/
def tReplay (n : Nat) : State := tNode 1 { tPort with replay := [⟨4, .null⟩, ⟨5, .null⟩], nextSeq := 6, noProgress := n }
def tEarly : State := tNode 1 { tPort with expected := 9, early := [⟨10, .null⟩] }
theorem wit_replay : (tReplay 0).receives 1 = true ∧ ((tReplay 0).port 1).waiting = [] ∧ ((tReplay 0).port 1).draining = false ∧ ((tReplay 0).port 1).sleep = .none
    ∧ ((tReplay 0).port 1).lstate = 2 ∧ (tEarly.port 1).early ≠ [] ∧ (tEarly.port 1).nakSent = false ∧ (tEarly.port 1).canSend = true
    ∧ (tReplay 7).evlEnabled 1 = true := by decide +kernel
theorem test_replay : ((tNext (.nak 1 5) (tReplay 3)).port 1).replay = [⟨5, .null⟩] ∧ ((tNext (.nak 1 5) (tReplay 3)).port 1).noProgress = 1
    ∧ (tNext (.nak 1 5) (tReplay 3)).out = [.flit 1 0 ⟨5, .null⟩] ∧ ((tNext (.resync 1 6) (tReplay 3)).port 1).replay = []
    ∧ ((tNext (.replayTimeout 1) (tReplay 8)).port 1).train = .lock ∧ ((tNext (.replayTimeout 1) (tReplay 7)).port 1).train = .none
    ∧ (tNext (.holdExpiry 1) tEarly).out = [.flit 1 9 ⟨0, .nak 9⟩] ∧ ((tNext (.holdExpiry 1) tEarly).port 1).early = [] := by decide +kernel
/-- A lane whose pilots have not risen since its table was computed. -/
def tCalm : Lane := { Lane.reset with pilotUsed := List.replicate 16 (2 ^ 40), pilotNext := List.replicate 16 (2 ^ 40) }
/-- A lane with a swap of its receiver proposed, one whose transmitter switches next, and one whose computation is due. -/
def tLanes : State := tNode 1 { tPort with superframe := 40, txFrame := 40, lanes := [(0, { tCalm with rxSwap := some ⟨3, 50⟩ }), (1, { tCalm with txSwap := some ⟨2, 41⟩ }),
  (2, { tCalm with sinceLoad := 15 }), (3, { tCalm with rxA := [2] })] }
/-- A superframe of one symbol whose bank pilots read so, an IDLE symbol of small errors on one sub-carrier. -/
def tMeasure (pilots : BitVec 8) : LaneMeasure := [⟨pilots.setWidth 16 <<< 8 ||| 0xFF, [2 ^ 19], [3]⟩]
/-- The lanes after the end of a superframe, its symbols apart. -/
def tEnded : Port := ([0xFF, 0, 0, 0].zipIdx.foldl (fun s p => s.laneEnd 1 p.2 (tMeasure p.1))
  (tLanes.modPort 1 (fun x => { x with superframe := 41, txFrame := 41 }))).port 1
theorem wit_tables : tLanes.receives 1 = true ∧ 0 < tableBits ((tLanes.port 1).lane 3).rxA ∧ (tLanes.port 1).lstate = 2 ∧ tLanes.loadInterval 1 = 16 ∧ ((tLanes.port 1).lane 1).txSwap ≠ none
    ∧ ((tLanes.port 1).lane 0).txSwap = none ∧ ((tLanes.port 1).lane 0).rxSwap = some ⟨3, 50⟩ ∧ ((tLanes.port 1).lane 1).rxSwap = none := by decide +kernel
theorem test_tables : tEnded.superframe = 41 ∧ (tEnded.lane 0).rxBank = true ∧ (tEnded.lane 0).rxSwap = none ∧ (tEnded.lane 1).txBank = true ∧ (tEnded.lane 1).txSwap = none
    ∧ (tEnded.lane 2).rxSwap = some ⟨0, 44⟩ ∧ (tEnded.lane 2).rxB.length = 960 ∧ nthD (tEnded.lane 2).rxB 0 0 = 10 ∧ (tEnded.lane 2).sinceLoad = 0 ∧ (tEnded.lane 3).sinceLoad = 1
    ∧ (((tNext (.loadPropose 1 0 7 45 [3]) tLanes).port 1).lane 0).txSwap = some ⟨7, 45⟩ ∧ (((tNext (.loadPropose 1 0 7 40 [3]) tLanes).port 1).lane 0).txSwap = some ⟨7, 42⟩
    ∧ (tNext (.loadPropose 1 0 7 45 [3]) tLanes).out = [.flit 1 0 ⟨0, .loadAccept 0 7 45⟩] ∧ tNext (.loadPropose 1 1 7 45 [3]) tLanes = tLanes
    ∧ (((tNext (.loadAccept 1 0 3 51) tLanes).port 1).lane 0).rxSwap = some ⟨3, 51⟩ ∧ tNext (.loadAccept 1 0 4 51) tLanes = tLanes
    ∧ tNext (.loadAccept 1 1 4 51) tLanes = tLanes := by decide +kernel
/-- A port in a phase of the sleep agreement. -/
def tAgree (z : SleepPhase) (l : Byte) (wake : Bool) : State := tNode 1 { tPort with sleep := z, lstate := l, wake := wake }
def tSleepPkt (k : Nat) (b : Byte) : Outbound := .flit 1 0 ⟨0, .data ((tAgree .none 2 false).ownPacket k 0x011 [b])⟩
theorem wit_sleep : (tAgree .none 2 false).perchTicks 1 = 400 ∧ (tAgree .none 2 false).roostTicks 1 = 200 ∧ (tAgree .none 3 false).parentPort = some 1
    ∧ (tNode 0 { tPort with lstate := 3 }).parentPort ≠ some 0 ∧ (tNode 0 { tPort with lstate := 3 }).ready = true ∧ ¬ (tAgree .requested 2 false).fabId < ((tAgree .requested 2 false).port 1).neigh
    ∧ (tNode 1 { tPort with sleep := .requested, neigh := 0x211 }).fabId < 0x211 ∧ (tReplay 0).ready = true ∧ ((tNode 1 { tPort with replay := [⟨4, .null⟩] }).port 1).isQuiet = false := by
  decide +kernel
theorem test_sleep : (tNext (.perchIdle 1) (tAgree .none 2 false)).out = [tSleepPkt 0xC 0] ∧ ((tNext (.perchIdle 1) (tAgree .none 2 false)).port 1).sleep = .requested
    ∧ (tNext (.sleepReq 1 true) (tAgree .none 2 false)).out = [tSleepPkt 0xD 1] ∧ ((tNext (.sleepReq 1 true) (tAgree .none 2 false)).port 1).sleep = .acked
    ∧ (tNext (.sleepAck 1 false) (tAgree .requested 2 false)).out = [tSleepPkt 0xE 0] ∧ ((tNext (.sleepAck 1 false) (tAgree .requested 2 true)).port 1).sleep = .none
    ∧ ((tNext (.sleepConfirm 1) (tAgree .acked 2 false)).port 1).lstate = 3 ∧ ((tNext (.sleepConfirm 1) (tAgree .acked 2 true)).port 1).sleep = .stoop
    ∧ ((tNext (.sleepConfirm 1) (tAgree .aborted 2 false)).port 1).sleep = .none ∧ ((tNext (.sleepAbort 1) (tAgree .requested 2 true)).port 1).wake = false := by decide +kernel
theorem test_wake : ((tNext (.wakeRequest 1) (tAgree .none 3 false)).port 1).lstate = 2 ∧ ((tNext (.wakeRequest 1) (tAgree .none 4 false)).port 1).roostExit = true
    ∧ (tNext (.wakeRequest 1) (tAgree .acked 2 false)).out = [tSleepPkt 0xF 0] ∧ ((tNext (.wakeRequest 1) (tAgree .acked 2 false)).port 1).sleep = .aborted
    ∧ ((tNext (.wakeRequest 1) (tAgree .confirmed 2 false)).port 1).wake = true ∧ ((tNext (.stoop 1) (tAgree .stoop 3 true)).port 1).lstate = 2
    ∧ ((tNext (.stoop 1) (tAgree .stoop 4 true)).port 1).train = .lock ∧ ((tNext (.roostIdle 0) (tNode 0 { tPort with lstate := 3 })).port 0).sleepRoost = true
    ∧ (tNext (.sleepReq 1 false) (tNode 1 { tPort with replay := [⟨4, .null⟩] })).out = [tSleepPkt 0xF 0]
    ∧ tNext (.sleepReq 1 false) (tNode 1 { tPort with sleep := .requested, neigh := 0x211 }) = tNode 1 { tPort with sleep := .requested, neigh := 0x211 } := by decide +kernel
/-- A packet to this device from 0x011 on port 1, and one to a destination. -/
def tPkt (kind : Byte) (addr : BitVec 48) (len : Byte) (data : List Byte) : Packet :=
  { dst := 0x111, src := 0x011, kind := kind, vcb := false, sealedBlk := false, sealValid := false, tag := 9, op := 0, mkind := 1, mnum := 0
    addr := addr, crc := 0, len := len, data := data }
def tTo (dst : BitVec 12) (kind : Byte) : Packet := { tPkt kind 0 8 [] with dst := dst }
def tHops : State := (tNode 1 tPort).setPort 0 tPort
theorem wit_forward : tHops.receives 1 = true ∧ knownKind 7 = false ∧ knownKind 1 = true ∧ linkLocal 1 = false ∧ tHops.hop 0x211 false (tHops.roleDim 1) = some (0, false)
    ∧ tHops.hop 0x121 false (tHops.roleDim 1) = none ∧ responseKind 1 = some 2 ∧ tHops.hop 0x011 false none = some (1, false) ∧ (0x011 : BitVec 12) ≠ tHops.fabId := by
  decide +kernel
theorem test_forward : (tNext (.forward 1 (tTo 0x211 1)) tHops).out = [.flit 0 0 ⟨0, .data (tTo 0x211 1)⟩] ∧ (tNext (.forward 1 (tTo 0x211 7)) tHops).out = []
    ∧ (tNext (.forward 1 (tTo 0x121 1)) tHops).out = [.flit 1 0 ⟨0, .data { tTo 0x011 2 with src := 0x111, op := 3, len := 0 }⟩] := by decide +kernel
/-- An export window of 4 KiB at 0x100000 with R, W and A; memory holds 7 at 0x100008. -/
def tExport (cfg : W32) : State :=
  let s := tNode 1 tPort
  { s with
    setup := { s.setup with regs := [(0x200, 0x83330111), (0x210, 0x100000), (0x218, 1), (0x21C, cfg)] ++ tRings.setup.regs }
    memory := { s.memory with mem := [(0x100008, 7)] } }
def tAnswer (kind st : Byte) (data : List Byte) : Outbound :=
  .flit 1 0 ⟨0, .data { tPkt kind 0x100008 (BitVec.ofNat 8 data.length) data with dst := 0x011, src := 0x111, op := st }⟩
theorem wit_serve : (tExport 0x80000007).receives 1 = true ∧ (tExport 0x80000007).frozen .evoirIn 1 = false ∧ (tExport 0x80000007).exports (tPkt 1 0x100008 8 []) 0 = true
    ∧ (tExport 0x80000007).exports (tPkt 3 0x100008 2 [1, 2]) 1 = true ∧ (tExport 0x80000007).exports (tPkt 5 0x100008 8 []) 2 = true
    ∧ (tExport 0x80000001).exports (tPkt 3 0x100008 2 [1, 2]) 1 = false ∧ (tExport 0x80000007).exports (tPkt 1 0x100FFC 8 []) 0 = false
    ∧ (tExport 0x80000007).fencedUnit 0x100008 = none ∧ ((tExport 0x80000007).setUnit 4 0 ⟨1, true, none, false⟩).fencedUnit 0x100008 ≠ none
    ∧ Mem.wf (tExport 0x80000007).memory.mem = true ∧ ((tExport 0x80000007).holdMaster .evoirIn 1 none 5).frozen .evoirIn 1 = true
    ∧ (tExport 0x8000000F).exports { tPkt 3 0x100000 64 [] with sealedBlk := true, sealValid := true } 1 = true := by decide +kernel
theorem test_serve : (tNext (.peerRead 1 (tPkt 1 0x100008 4 [])) (tExport 0x80000007)).out = [tAnswer 2 0 [7, 0, 0, 0]]
    ∧ (tNext (.peerWrite 1 (tPkt 3 0x100008 2 [1, 2])) (tExport 0x80000007)).memory.mem = [(0x100008, 1), (0x100009, 2)]
    ∧ (tNext (.peerWrite 1 (tPkt 3 0x100008 2 [1, 2])) (tExport 0x80000007)).out = [tAnswer 4 0 []]
    ∧ (tNext (.peerWrite 1 (tPkt 3 0x100008 2 [1, 2])) (tExport 0x80000001)).out.head? = some (tAnswer 4 1 [])
    ∧ (tNext (.peerWrite 1 (tPkt 3 0x100008 2 [1, 2])) (tExport 0x80000001)).frozen .evoirIn 1 = true
    ∧ (tNext (.peerRead 1 (tPkt 1 0x100008 4 [])) ((tExport 0x80000007).setUnit 4 0 ⟨1, true, none, false⟩)).out = [tAnswer 2 2 []]
    ∧ (tNext (.peerAtomic 1 { tPkt 5 0x100008 16 (toBytes 8 5 ++ toBytes 8 0) with op := 0 }) (tExport 0x80000007)).memory.mem = [(0x100008, 12)] := by decide +kernel
/-- A held port, before and after a dump has begun. -/
def tTurned (reason : BitVec 3) : State :=
  let s := (tExport 0x80000007).holdMaster .evoirIn 1 none 5
  { s with integ := { s.integ with reason := reason }, out := [] }
theorem wit_turned : (tTurned 2).dumping = true ∧ (tTurned 2).card.device = .ready ∧ ((tTurned 2).port 1).carries = true
    ∧ ((tTurned 2).port 1).waiting = [] ∧ ((tTurned 2).port 1).canSend = true := by decide +kernel
theorem test_turned : (tNext (.peerRead 1 (tPkt 1 0x100008 4 [])) (tTurned 2)).out = [tAnswer 2 3 []]
    ∧ (tNext (.peerRead 1 (tPkt 1 0x100008 4 [])) (tTurned 0)).out = [] := by decide +kernel
def tSealedWrite : State :=
  tNow (execPeerWrite 1 { tPkt 3 0x100000 2 [1, 2] with sealedBlk := true, sealValid := true, crc := 0x55 } (tExport 0x8000000F)) (tExport 0x8000000F)
theorem test_sealed_write : tSealedWrite.storedSeal 0x100000 = 0x55 ∧ tSealedWrite.readMem 0x100000 2 = [1, 2] := by decide +kernel
/-- A request of cluster 0 to 0x011, for a load into g5, an atomic, or a mover's read; and the answers. -/
def tAsk (f : PeerFor) : PeerReq := { tPeer with tag := 9, dst := 0x011, purpose := f, cluster := 0 }
def tAsked (f : PeerFor) : State :=
  let s := (tNode 1 tPort).setCluster 0 (tCluster { Kestrel.reset with run := .remote })
  { s with fabric := { s.fabric with requests := [tAsk f] } }
def tRsp (kind op : Byte) (data : List Byte) : Packet := { tPkt kind 0 8 data with op := op }
theorem wit_answers : (tAsked .store).receives 1 = true ∧ (tAsked .store).fabId = 0x111 ∧ ((tAsked (.load 5 3)).kestrel 0).run = .remote ∧ (tAsk .store).answer = none
    ∧ (tAsked .moveRead).fabric.requests = [tAsk .moveRead] ∧ (tAsked .store).ready = true ∧ (tAsk .store).tag = (tRsp 4 0 []).tag ∧ (tAsk .store).dst = (tRsp 4 0 []).src := by
  decide +kernel
/-- The same request where the cluster no longer waits for it. -/
def tUnawaited (f : PeerFor) : State := (tAsked f).setCluster 0 (tCluster { Kestrel.reset with run := .running })
theorem wit_answers_open : (tAsked (.load 5 3)).requestOf (tRsp 2 0 []) = some (tAsk (.load 5 3)) ∧ (tAsked .moveRead).requestOf (tRsp 2 0 []) = some (tAsk .moveRead)
    ∧ (tAsked .ckpt).requestOf (tRsp 0x15 0 []) = some (tAsk .ckpt) ∧ (tAsked .store).requestOf (tRsp 4 2 []) = some (tAsk .store)
    ∧ (tAsked (.atomic 5 true)).requestOf (tRsp 6 1 []) = some (tAsk (.atomic 5 true)) ∧ (tAsked .store).requestOf { tRsp 4 0 [] with tag := 8 } = none
    ∧ ((tUnawaited (.load 5 3)).kestrel 0).run ≠ .remote ∧ (tUnawaited (.load 5 3)).requestOf (tRsp 2 0 []) = some (tAsk (.load 5 3))
    ∧ (tAsk .store).work = none ∧ { tAsk .store with work := some (1, 2) }.work = some (1, 2) ∧ ((tAsked .store).cluster 0).storeBuf = []
    ∧ (tAsked .store).fabric.requests.find? (fun q => decide (q.tag = 9) && q.answer.isNone) = some (tAsk .store)
    ∧ (∀ q ∈ (tAsked .store).fabric.requests, q.tag = 8 → q.answer.isSome = true) := by decide +kernel
theorem test_answers : ((tNext (.readRsp 1 (tRsp 2 0 [1, 2, 3, 4, 5, 6, 7, 0x88])) (tAsked (.load 5 3))).kestrel 0).get 5 = 0x8807060504030201
    ∧ ((tNext (.readRsp 1 (tRsp 2 0 [1, 2, 3, 4, 5, 6, 7, 0x88])) (tAsked (.load 5 3))).kestrel 0).run = .running
    ∧ (tNext (.readRsp 1 (tRsp 2 0 [1])) (tAsked .moveRead)).fabric.requests = [{ tAsk .moveRead with answer := some [1] }]
    ∧ (tNext (.ckptReadRsp 1 (tRsp 0x15 0 [1])) (tAsked .ckpt)).fabric.requests = [{ tAsk .ckpt with answer := some [1] }]
    ∧ tNext (.writeAck 1 (tRsp 4 0 [])) (tAsked .store) = { tAsked .store with fabric := { (tAsked .store).fabric with requests := [] } }
    ∧ ((tNext (.atomicRsp 1 (tRsp 6 0 [1, 0, 0, 0x80, 0, 0, 0, 0])) (tAsked (.atomic 5 true))).kestrel 0).get 5 = 0xFFFFFFFF80000001
    ∧ (tNext (.writeAck 1 (tRsp 4 3 [])) (tAsked .store)).fabric.requests = [] ∧ (tNext (.writeAck 1 (tRsp 4 1 [])) (tAsked .store)).fabric.requests = []
    ∧ (tNext (.remoteRequestLimit 9) (tAsked .store)).fabric.requests = [] ∧ tNext (.writeAck 1 { tRsp 4 0 [] with tag := 8 }) (tAsked .store) = tAsked .store := by
  decide +kernel
/-- A device toward its root on port 1, the root itself, and one without an identity. -/
def tTimed (m : Nat) (stepped : Bool) : State :=
  let s := tNode 1 tPort
  { s with tick := 1000000, fabric := { s.fabric with tbMissed := m, tbState := 1, tbStepped := stepped } }
theorem wit_time : (tTimed 0 true).ready = true ∧ (tTimed 0 true).fabValid = true ∧ (tTimed 0 true).isRoot = false ∧ (tTimed 0 true).parentPort = some 1
    ∧ (tNode 0 tPort).parentPort = none ∧ ((tTimed 0 true).setReg 0x204 0x111).isRoot = true ∧ tRings.fabValid = false ∧ (tTimed 0 true).receives 1 = true
    ∧ (tTimed 0 true).roleDim 1 = some 0 := by decide +kernel
/-- Dimension 0 of the ring has four devices; port 1 is its x-, so a notice that came there goes on over x+, whose link is 1. -/
theorem wit_rings : (tTimed 0 true).rolePlus 1 = false ∧ coord (tTimed 0 true).fabId 0 = 1 ∧ (tTimed 0 true).dimSize 0 = 4 ∧ ((tTimed 0 true).cutMask 0).getLsbD 1 = false
    ∧ setCoord (tTimed 0 true).fabId 0 2 = 0x211 ∧ ((tNext (.ringCut 1 0 1 0x311) (tTimed 0 true)).cutMask 0).getLsbD 1 = true
    ∧ (0x311 : BitVec 12) ≠ (tTimed 0 true).fabId ∧ (tHops.leastLoaded (allPorts.filter (fun q => tHops.serves q 0 true))) = some 0
    ∧ (tNode 0 tPort).fabValid = true ∧ (tNode 0 tPort).isRoot = false := by decide +kernel
theorem test_rings : (tNext (.ringCut 1 0 3 0x311) tHops).out = [.flit 0 0 ⟨0, .data { tHops.ownPacket 0xA 0 [0, 3] with src := 0x311 }⟩]
    ∧ (tNext (.ringCut 1 0 3 0x211) tHops).out = [] := by decide +kernel
theorem test_time : ((tTimed 0 true).setReg 0x204 0x111).bar0Read 0x80010 = 1 ∧ tNext .timeExchange tRings = tRings ∧ (tNext .timeExchange ((tTimed 1 true).setReg 0x204 0x111)).fabric.tbHops = 0
    ∧ (tNext .timeExchange (tTimed 2 true)).fabric.tbState = 2 ∧ (tNext .timeExchange (tTimed 1 true)).fabric.tbState = 1
    ∧ (tNext .timeExchange (tTimed 0 true)).out = [.flit 1 0 ⟨0, .data ((tTimed 0 true).ownPacket 9 0 [])⟩]
    ∧ (tNext (.timePacket 1 0 2560 2560 0 4) (tTimed 1 false)).tick = 1000010 ∧ (tNext (.timePacket 1 0 2560 2560 0 4) (tTimed 1 true)).fabric.tbSlew = 10
    ∧ (tNext (.timePacket 1 0 2560 2560 0 31) (tTimed 1 true)).fabric.tbHops = 31 ∧ (tNext (.timePacket 1 0 2560 2560 0 4) (tTimed 1 true)).fabric.tbHops = 5
    ∧ (tNext (.ringCut 1 0 3 0x311) (tTimed 0 true)).cutMask 0 = 8 ∧ (tNext (.ringJoin 1 0 3 0x311) (tNext (.ringCut 1 0 3 0x311) (tTimed 0 true))).cutMask 0 = 0 := by
  decide +kernel
/-- Slot 3 of the device 0x011 here, with a half FILLING whose TOTAL is 0, or none. -/
def tStandby (m : Mem) : State :=
  let s := tNode 1 tPort
  { s with
    setup := { s.setup with regs := [(0x200, 0x83330111), (0x310, 0x80000000), (0x318, 2), (0x32C, 0x80000011)] ++ tRings.setup.regs }
    memory := { s.memory with mem := m } }
def tSlots : Mem := [(0x80600000, 1), (0x80600001, 2), (0x80600004, 6), (0x80700000, 1), (0x80700001, 1), (0x80700004, 7)]
def tCkPkt (kind : Byte) (addr : BitVec 48) (data : List Byte) : Packet := { tPkt kind addr (BitVec.ofNat 8 data.length) data with op := 3 }
theorem wit_standby : (tStandby tSlots).receives 1 = true ∧ (tStandby tSlots).frozen .evoirIn 1 = false ∧ Mem.wf (tStandby tSlots).memory.mem = true
    ∧ ckPacketSlot (tCkPkt 0x10 0 []) = 3 ∧ (tStandby tSlots).ownsSlot 0x011 3 = true ∧ (tStandby tSlots).ownsSlot 0x211 3 = false ∧ (tStandby tSlots).halfBytes = 0x100000
    ∧ (tStandby tSlots).filling 3 = some true ∧ (tStandby tSlots).newest 3 = some false ∧ (tStandby tSlots).halfCrc 3 true = 0 ∧ (tStandby tSlots).halfState 3 false ≠ 1 := by
  decide +kernel
theorem test_standby : (tNext (.ckptOpen 1 { tCkPkt 0x10 0 [] with src := 0x211 }) (tStandby tSlots)).frozen .evoirIn 1 = true
    ∧ (tNext (.ckptOpen 1 (tCkPkt 0x10 0 [])) (tStandby tSlots)).halfSeq 3 true = 7 ∧ (tNext (.ckptOpen 1 (tCkPkt 0x10 0 [])) (tStandby tSlots)).filling 3 = some true
    ∧ (tNext (.ckptData 1 (tCkPkt 0x11 0x40 [8, 9])) (tStandby tSlots)).readMem 0x80700040 2 = [8, 9]
    ∧ (tNext (.ckptData 1 (tCkPkt 0x11 0xFFFFF [8, 9])) (tStandby tSlots)).frozen .evoirIn 1 = true
    ∧ (tNext (.ckptSeal 1 (tCkPkt 0x12 0 [])) (tStandby tSlots)).halfState 3 true = 2 ∧ (tNext (.ckptSeal 1 { tCkPkt 0x12 0 [] with crc := 1 }) (tStandby tSlots)).halfState 3 true = 1
    ∧ (tNext (.ckptRead 1 { tCkPkt 0x14 0 [] with len := 5 }) (tStandby tSlots)).out = [.flit 1 0 ⟨0, .data { tCkPkt 0x15 0 [1, 2, 0, 0, 6] with dst := 0x011, src := 0x111, op := 0 }⟩]
    ∧ (tNext (.fillingTimeout 3) (tStandby tSlots)).halfState 3 true = 0
    ∧ tNext (.ckptAck 1 (tRsp 0x13 0 [])) (tAsked .ckpt) = { tAsked .ckpt with fabric := { (tAsked .ckpt).fabric with requests := [] } } := by decide +kernel
/-! ### BAR2 and management -/

/-- R414's worked example: VF 5's window of 1 GiB at 0x2_4000_0000; memory holds 9 at 0x2_4123_4000. -/
def tWindows : State :=
  { tRings with
    setup := { tRings.setup with regs := [(0x30150, 0x40000000), (0x30154, 2), (0x30158, 0x40000)] ++ tRings.setup.regs }
    memory := { tRings.memory with mem := [(0x241234000, 9)] } }
/-- That device with no stack trained. -/
def tUntrained : State :=
  { tWindows with
    card := { tWindows.card with device := .failed }
    memory := { tWindows.memory with stacksTrained := 0 } }
theorem wit_bar2 : tWindows.hostAnswers = true ∧ tWindows.card.device = .ready ∧ tWindows.frozen .vf 5 = false ∧ (tWindows.freezeVf 5).frozen .vf 5 = true
    ∧ tWindows.regPair 0x30150 = 0x240000000 ∧ 4096 * (tWindows.reg 0x30158).toNat = 0x40000000 ∧ tWindows.dramSpan 0x241234000 4 = true
    ∧ tWindows.meetsReserved 0x241234000 4 true = false ∧ tWindows.fencedUnit 0x241234000 = none ∧ Mem.wf tWindows.memory.mem = true
    ∧ tWindows.dramSpan 0xC00000000 4 = false ∧ tWindows.meetsReserved 0x1FF800000 4 true = true ∧ tWindows.dramSpan 0x1FF800000 4 = true
    ∧ { tWindows with card := { tWindows.card with device := .recovery } }.hostAnswers = true ∧ tWindows.memory.stacksTrained ≠ 0
    ∧ tUntrained.memory.stacksTrained = 0 ∧ tUntrained.dramSpan 0x241234000 2 = false ∧ tUntrained.card.device = .failed
    ∧ tUntrained.frozen .vf 5 = false ∧ tUntrained.hostAnswers = true := by decide +kernel
/-- Without a trained stack a VF's read is Unsupported Request, recorded for that VF, and its write is discarded with KIND 6 (R22, R416). -/
theorem test_bar2_untrained : (tNext (.vfBar2Access 5 0x01234000 (.read 2)) tUntrained).out = [.unsupportedRequest]
    ∧ (tNext (.vfBar2Access 5 0x01234000 (.read 2)) tUntrained).aerStatus 5 .unsupportedRequest = true
    ∧ (tNext (.vfBar2Access 5 0x01234000 (.write [1])) tUntrained).host.errKind = 6 ∧ (tNext .atomicop tWindows).aerStatus 0 .unsupportedRequest = true
    ∧ (tNext .atomicop tWindows).aerStatus 5 .unsupportedRequest = false := by decide +kernel
theorem test_bar2 : (tNext (.bar2Read 0x241234000 2) tWindows).out = [.bar2Data [9, 0] false]
    ∧ (tNext (.bar2Write 0x241234001 [5]) tWindows).memory.mem = [(0x241234000, 9), (0x241234001, 5)]
    ∧ (tNext (.bar2Read 0xC00000000 4) tWindows).out = [.unsupportedRequest] ∧ (tNext (.bar2Write 0xC00000000 [1]) tWindows).host.errKind = 6
    ∧ (tNext (.bar2Write 0x1FF800000 [1]) tWindows).host.errAddr = 0x1FF800000 ∧ (tNext (.bar2Write 0x1FF800000 [1]) tWindows).memory = tWindows.memory
    ∧ (tNext .atomicop tWindows).out = [.unsupportedRequest] := by decide +kernel
theorem test_bar2_vf : (tNext (.vfBar2Access 5 0x01234000 (.read 1)) tWindows).out = [.bar2Data [9] false]
    ∧ (tNext (.vfBar2Access 5 0x3FFFFFFF (.read 2)) tWindows).frozen .vf 5 = true ∧ (tNext (.vfBar2Access 5 0x3FFFFFFF (.write [1])) tWindows).frozen .vf 5 = false
    ∧ (tNext (.vfBar2Access 5 0 (.read 1)) (tWindows.freezeVf 5)).out = (tWindows.freezeVf 5).out ++ [.unsupportedRequest] := by decide +kernel
theorem test_bar2_waits : (tWindows.setUnit 4 1 ⟨1, true, none, false⟩).fencedUnit 0x241234000 ≠ none
    ∧ (tNext (.bar2Read 0x241234000 2) (tWindows.setUnit 4 1 ⟨1, true, none, false⟩)).host.b2Held = [⟨0, 0x241234000, .read 2⟩]
    ∧ (tNext (.bar2Read 0x241234000 2) (tWindows.setUnit 4 1 ⟨1, true, none, false⟩)).out = [] := by decide +kernel
/-- A card at 71.5 °C with stack 2 at 60 °C, 305.9 W and a cap of 420 W; cluster 7 is retired; log entry 4 is held. -/
def tManaged : State :=
  { tUsed.setReg 0x20000 (420 <<< 16) with
    card := { tUsed.card with hotspot := 71 * 256 + 128, mw := 305900, stackTemp := [(2, 60 * 256)] } }
theorem wit_management : tManaged.stewardServes = true ∧ tManaged.romServes = true ∧ tManaged.card.device = .ready ∧ tManaged.logHeld 4 = true ∧ tManaged.logHeld 5 = false
    ∧ tManaged.integ.retired.getLsbD 7 = true ∧ tManaged.card.boardW = 600 ∧ State.reset.romServes = false ∧ State.reset.stewardServes = false := by
  decide +kernel
def tTold (i : Instr) : List Outbound := (tNext i tManaged).out
theorem test_management : tTold (.getSensorReading 1) = [.management 0 [71, 0, 0, 0]] ∧ tTold (.getSensorReading 4) = [.management 0 [60, 0, 0, 0]]
    ∧ tTold (.getSensorReading 8) = [.management 0 [0x31, 1, 0, 0]] ∧ tTold (.getSensorReading 10) = [.management 0 [48, 0, 0, 0]]
    ∧ tTold (.getPdr 11) = [.management 0 [11, 0, 0, 0, 2]] ∧ tTold (.getPdr 22) = [.management 0x82 []]
    ∧ tTold (.getStateSensorReadings 11) = [.management 0 [1]] := by decide +kernel
theorem test_management_sets : (tNext (.powerCap 150) tManaged).capW = 150 ∧ (tNext (.powerCap 601) tManaged).capW = 420 ∧ (tNext (.powerCap 149) tManaged).capW = 420
    ∧ (tNext (.retireClearEffecter 7) tManaged).integ.retired = 1 ∧ (tNext (.setTid 9) tManaged).host.tid = 9 ∧ (tNext (.setTid 0) tManaged).out = [.management 2 []]
    ∧ (tNext (.setEndpointId 0 8) tManaged).host.eid = 8 ∧ tTold .getPldmTypes = [.management 0 [0x35, 0, 0, 0, 0, 0, 0, 0x80]] := by decide +kernel
/-- 1,024 bytes of component 2 are staged, and component 3 is verified. -/
def tStaged (verified : Bool) : State :=
  { tRings with host := { tRings.host with staged := [⟨2, 1024, verified, 7⟩, ⟨3, 40, true, 7⟩], flashSvn := 7 } }
theorem wit_firmware : (tStaged false).romServes = true ∧ (tStaged false).stagedOf 2 = some ⟨2, 1024, false, 7⟩ ∧ (tStaged false).stagedOf 1 = none
    ∧ (tStaged false).verifiedOf 3 = true ∧ (tStaged true).ready = true ∧ (tStaged true).verifiedOf 2 = true := by decide +kernel
theorem test_firmware : (tNext (.firmwareTransfer 2 1024 [1, 2]) (tStaged false)).stagedOf 2 = some ⟨2, 1026, false, 0⟩
    ∧ (tNext (.firmwareTransfer 2 1000 [1, 2]) (tStaged false)).out = [.management 2 []] ∧ (tNext (.firmwareTransfer 4 0 []) (tStaged false)).out = [.management 2 []]
    ∧ (tNext (.verifyComplete 2 true 7) (tStaged false)).stagedOf 2 = some ⟨2, 1024, true, 7⟩
    ∧ (tNext (.verifyComplete 2 true 6) (tStaged false)).stagedOf 2 = none ∧ (tNext (.verifyComplete 2 true 6) (tStaged false)).out = [.management 5 []]
    ∧ (tNext (.verifyComplete 2 false 7) (tStaged false)).out = [.management 1 []] := by decide +kernel
theorem test_firmware_ends : (tNext (.activateFirmware false) (tStaged true)).host.staged = [⟨2, 1024, true, 7⟩] ∧ (tNext .cancelUpdate (tStaged true)).host.staged = []
    ∧ (tNext .cancelUpdateComponent (tStaged false)).host.staged = [⟨3, 40, true, 7⟩]
    ∧ (tNext .getStatus (tStaged false)).out = [.management 0 [2, 0, 0, 4, 0, 0, 0, 3, 0, 40, 0, 0, 0, 1]] := by decide +kernel
/-- A self-contained update: the lowest port drains and trains anew, the other one waits for its turn. -/
def tUpdating : State := { tHops with host := { tHops.host with staged := [⟨2, 1024, true, 7⟩] } }
theorem test_firmware_own : tUpdating.romServes = true ∧ (tNext (.activateFirmware true) tUpdating).host.staged = []
    ∧ ((tNext (.activateFirmware true) tUpdating).port 0).updating = true ∧ ((tNext (.activateFirmware true) tUpdating).port 1).update = true := by decide +kernel

/-! ### Words, struck datapaths and errors of structures -/

/-- The worked example of 06_harrier, vfma.f64 v4, v1, v2, span=2; and a word of every format and 64-bit major, each written from its fields. -/
theorem test_decode_vfma : decodeTableWord 64 0x0000001500041271 = some (.vfma 0 { tF 5 with vd := 4, span := 1 }) := by decide +kernel
theorem test_decode_scalar : decodeTableWord 32 (0x01 + 2 ^ 7 * 3 + 2 ^ 12 * 4 + 2 ^ 17 * 5 + 2 ^ 22 * 1) = some (.sub 0 3 4 5)
    ∧ decodeTableWord 32 (0x02 + 2 ^ 7 * 1 + 2 ^ 12 * 2 + 2 ^ 17 * 0 + 2 ^ 20 * 0xFFF) = some (.addi 0 1 2 0xFFF)
    ∧ decodeTableWord 32 (0x03 + 2 ^ 7 * 6 + 2 ^ 12 * 0x80000) = some (.liw 0 6 0x80000)
    ∧ decodeTableWord 32 (0x08 + 2 ^ 7 * 1 + 2 ^ 12 * 2 + 2 ^ 17 * 3 + 2 ^ 20 * 8) = some (.ld 0 1 2 8)
    ∧ decodeTableWord 32 (0x09 + 2 ^ 7 * 1 + 2 ^ 12 * 2 + 2 ^ 17 * 2 + 2 ^ 20 * 8) = some (.sw 0 1 2 8)
    ∧ decodeTableWord 32 (0x0A + 2 ^ 7 * 1 + 2 ^ 12 * 2 + 2 ^ 17 * 3 + 2 ^ 22 * 513) = some (.atmin 0 1 2 3 32)
    ∧ decodeTableWord 32 (0x0C + 2 ^ 7 * 1 + 2 ^ 12 * 2 + 2 ^ 17 * 1 + 2 ^ 20 * 4) = some (.bne 0 1 2 4) := by decide +kernel
theorem test_decode_control : decodeTableWord 32 (0x0D + 2 ^ 7 * 0x1FFFFFF) = some (.jmp 0 0x1FFFFFF)
    ∧ decodeTableWord 32 (0x0F + 2 ^ 17 * 2) = some (.ret 0 0 0 0)
    ∧ decodeTableWord 32 (0x10 + 2 ^ 7 * 1 + 2 ^ 12 * 2 + 2 ^ 17 * 3 + 2 ^ 22 * 4) = some (.divu 0 1 2 3)
    ∧ decodeTableWord 32 (0x14 + 2 ^ 7 * 1 + 2 ^ 17 * 0x020) = some (.mfsr 0 1 0 0x020)
    ∧ decodeTableWord 32 (0x14 + 2 ^ 12 * 2 + 2 ^ 17 * 0x003 + 2 ^ 29) = some (.mtsr 0 0 2 0x003)
    ∧ decodeTableWord 32 (0x14 + 2 ^ 12 * 2 + 2 ^ 17 * 0x049 + 2 ^ 29) = some (.escalate 0 0 2)
    ∧ decodeTableWord 32 (0x14 + 2 ^ 17 * 0x123 + 2 ^ 29 * 3) = some (.trapi 0 0 0 0x123)
    ∧ decodeTableWord 32 (0x15 + 2 ^ 12 * 2 + 2 ^ 17 * 4) = some (.invalSw 0 0 2 0)
    ∧ decodeTableWord 32 (0x16 + 2 ^ 17 * 1 + 2 ^ 20 * 2) = some (.fenceV 0 0 0 2)
    ∧ decodeTableWord 32 0x7F = some (.illegalOp 0 0x7F) ∧ decodeTableWord 32 (0x01 + 2 ^ 22 * 14) = some (.illegalOp 0 0x03800001) := by decide +kernel
/-- A 64-bit word of a major and a FUNC with v3, v1, v2 and type 4. -/
def tLong (major func : Nat) : Option Instr :=
  decodeTableWord 64 (major + 2 ^ 7 * 3 + 2 ^ 12 * 1 + 2 ^ 17 * 2 + 2 ^ 34 * 4 + 2 ^ 42 * func)
theorem test_decode_long : tLong 0x70 15 = some (.vdiv 0 (tF 4)) ∧ tLong 0x72 2 = some (.vcmpLt 0 (tF 4)) ∧ tLong 0x73 4 = some (.bcast 0 (tF 4))
    ∧ tLong 0x74 0 = some (.vcvt 0 (tF 4)) ∧ tLong 0x75 5 = some (.vredxor 0 (tF 4)) ∧ tLong 0x76 3 = some (.vsts 0 (tF 4))
    ∧ tLong 0x77 4 = some (.vpcnt 0 (tF 4)) ∧ tLong 0x78 0 = some (.mma 0 (tF 4)) ∧ tLong 0x79 1 = some (.accPromote 0 (tF 4))
    ∧ tLong 0x7A 1 = some (.twr 0 (tF 4)) ∧ (tLong 0x7B 0).isSome = true ∧ tLong 0x70 15 ≠ tLong 0x70 16
    ∧ (tDev.withFetchWord 64 0x0000001500041271).pending = [.vfma 0 { tF 5 with vd := 4, span := 1 }] := by decide +kernel
/-- The worked example of 14_integrity: the residues 6, 5 and 2 of a sum with a carry, and the sum with bit 2 flipped. -/
theorem test_residues : residue 0x8000000000000005 = 6 ∧ residue 0x8000000000000004 = 5 ∧ residue 9 = 2 ∧ residue 0xD = 6
    ∧ adderHolds 64 0x8000000000000005 0x8000000000000004 9 1 = true ∧ adderHolds 64 0x8000000000000005 0x8000000000000004 0xD 1 = false := by decide +kernel
/-- That sum at J where a fault strikes bit 2 of the adder. -/
def tStruck : State :=
  (tWith (tCluster { Kestrel.reset with level := 0, g := [(2, 0x8000000000000005), (3, 0x8000000000000004)], esp := 0x2000 })).modCluster 0
    (fun x => { x with upsets := [⟨rwAdder, 0, 4⟩] })
theorem wit_struck : tStruck.canIssue 0 = true ∧ tStruck.fetch 0 4 = (true, tStruck) ∧ (tStruck.cluster 0).marks = []
    ∧ (tStruck.cluster 0).upsets = [⟨rwAdder, 0, 4⟩] ∧ (4 : Word).toNat = 2 ^ 2 := by decide +kernel
theorem test_struck : ((tNext (.add 0 1 2 3) tStruck).kestrel 0).ocause = 0xC ∧ ((tNext (.add 0 1 2 3) tStruck).kestrel 0).oepc = windowAt 0x200
    ∧ tReg (.add 0 1 2 3) tStruck 1 = 0 ∧ ((tNext (.add 0 1 2 3) tStruck).cluster 0).upsets = []
    ∧ ((Table.get LogEntry.empty (tNext (.add 0 1 2 3) tStruck).integ.log 0).expected = 2)
    ∧ ((Table.get LogEntry.empty (tNext (.add 0 1 2 3) tStruck).integ.log 0).observed = 6)
    ∧ tReg (.add 0 1 2 3) (tRun 0 [(2, 0x8000000000000005), (3, 0x8000000000000004)]) 1 = 9 := by decide +kernel
/-- At J with 0x2000 as ESP and an uncorrectable word in the first beat of the frame. -/
def tBadBeat : State := (tStack 0 3).modCluster 0 (fun x => { x with storeBad := [0x1F60 / 8 + 1] })
theorem wit_beat : Mem.wf ((tBadBeat.drainStores 0).cluster 0).store = true ∧ ((tBadBeat.drainStores 0).cluster 0).storeBuf = []
    ∧ ((tBadBeat.drainStores 0).cluster 0).storeFails 0x7FFF60 160 = false ∧ ((tBadBeat.drainStores 0).cluster 0).storeFails (0x2000 - 160) 32 = true := by
  decide +kernel
theorem test_beat : ((tNext (.trapi 0 0 0 1) tBadBeat).kestrel 0).ocause = 0x0F0D1F ∧ ((tNext (.trapi 0 0 0 1) tBadBeat).kestrel 0).otval = 0x1F60
    ∧ ((tNext (.trapi 0 0 0 1) tBadBeat).kestrel 0).esp = 0x2000 := by decide +kernel
/-- The premises on a state in which older stores have drained, and on a read or a mover's work that goes on. -/
theorem wit_drained : tReturning.drainStores 0 = tReturning ∧ (((tRead 4 (tFar 0x10000000)).2.cluster 0).sound = true)
    ∧ ((tFar 0).cluster 0).l1Find (.device 0x100004) = none ∧ (tAtomic.drainStores 0).settleAllHeld 0 = tAtomic ∧ (tAtomic.cluster 0).sound = true
    ∧ (tCached 1 0 tLine).fencedUnit (64 * 0x4000) = none ∧ (((tRun 1 []).drainStores 0).settleAllHeld 0).awaitsRuntime 0 = false
    ∧ ((tAwaits.drainStores 0).settleAllHeld 0).awaits 0 .kestrel = true ∧ (((tQueued.drainStores 0).settleAllHeld 0).cluster 0).queue ≠ [] := by decide +kernel
/-- The image of a device whose register g2 of cluster 0 holds an error that SECDED corrects, or not. -/
def tMarked (soft : Bool) : State := tJ.modCluster 0 (fun x => { x with marks := [⟨0x01, 2, soft⟩] })
theorem test_marked : tReg (.add 0 1 2 3) (tMarked true) 1 = 2 ∧ ((tNext (.add 0 1 2 3) (tMarked true)).cluster 0).marks = []
    ∧ ((Table.get LogEntry.empty (tNext (.add 0 1 2 3) (tMarked true)).integ.log 0).type = 3)
    ∧ ((tNext (.add 0 1 2 3) (tMarked false)).kestrel 0).ocause = 0xD := by decide +kernel

end Sys2Proof.Tests
end

section
/-! SUPPORT. What every command keeps: each of the 330 meanings answers a next state with the queue of waiting commands and the
memories kept (`exec_keeps`), so a queue drains in as many steps as it holds commands. -/
namespace Sys2Proof.Machine

/-! ### Answering a next state -/

theorem Gives.imp {o : Result} {p q : State → Prop} (h : Gives o p) (hpq : ∀ t, p t → q t) : Gives o q := by
  obtain ⟨t, ht, hp⟩ := h
  exact ⟨t, ht, hpq t hp⟩

theorem Keeps.gives {s t : State} (h : Keeps s t) : Gives (.next t) (Keeps s) := ⟨t, rfl, h⟩

/-- A command whose condition does not hold leaves the state (log entry 3). -/
theorem Keeps.gives_if {s t : State} {p : Prop} [Decidable p] (h : Keeps s t) : Gives (.next (if p then t else s)) (Keeps s) :=
  (keeps_ite h (.refl s)).gives

theorem Keeps.gives_unless {s t : State} {p : Prop} [Decidable p] (h : Keeps s t) : Gives (.next (if p then s else t)) (Keeps s) :=
  (keeps_ite (.refl s) h).gives

section
variable (s : State) (c : ClusterId) (rd ra : BitVec 5) (code imm : BitVec 12) (f : VFields) (st : StreamId) (idx : W32) (j : JobId)
  (p : PortId) (pkt : Packet) (q : QuadId) (m : MasterKind) (kind number : Byte)

/-! ### Kestrel -/

theorem execLiw_keeps (imm : BitVec 20) : Gives (execLiw c rd imm s) (Keeps s) :=
  Keeps.gives <| State.issue_keeps (.refl s) _ _ _ _ (fun _ k => State.writeReg_keeps k ..)

theorem execLiws_keeps (imm : BitVec 20) : Gives (execLiws c rd imm s) (Keeps s) :=
  Keeps.gives <| State.issue_keeps (.refl s) _ _ _ _ (fun _ k => State.writeChecked_keeps k ..)

theorem execPca_keeps (imm : BitVec 20) : Gives (execPca c rd imm s) (Keeps s) :=
  Keeps.gives <| State.issue_keeps (.refl s) _ _ _ _ (fun _ k => State.writeChecked_keeps k ..)

theorem execJmp_keeps (imm : BitVec 25) : Gives (execJmp c imm s) (Keeps s) :=
  Keeps.gives <| State.issue_keeps (.refl s) _ _ _ _ (fun _ k => State.target_keeps k _ _ _ _ (fun _ _ k => State.setPc_keeps k ..))

theorem execCall_keeps (imm : BitVec 25) : Gives (execCall c imm s) (Keeps s) :=
  Keeps.gives <| State.issue_keeps (.refl s) _ _ _ _ (fun _ k => State.callTo_keeps k ..)

theorem execJmpr_keeps : Gives (execJmpr c rd ra imm s) (Keeps s) :=
  Keeps.gives <| State.issue_keeps (.refl s) _ _ _ _ (fun _ k =>
    keeps_ite (State.raiseWord_keeps k ..) (State.target_keeps k _ _ _ _ (fun _ _ k => State.setPc_keeps k ..)))

theorem execCallr_keeps : Gives (execCallr c rd ra imm s) (Keeps s) :=
  Keeps.gives <| State.issue_keeps (.refl s) _ _ _ _ (fun _ k =>
    keeps_ite (State.raiseWord_keeps k ..) <| keeps_ite (State.raiseWord_keeps k ..) (State.callTo_keeps k ..))

theorem execRet_keeps : Gives (execRet c rd ra imm s) (Keeps s) :=
  Keeps.gives <| State.issue_keeps (.refl s) _ _ _ _ (fun _ k =>
    keeps_ite (State.raiseWord_keeps k ..) <| keeps_ite (State.raiseWord_keeps k ..) <| keeps_ite (State.raise_keeps k ..) <|
      keeps_ite (State.raise_keeps k ..) (State.modK_keeps k ..))

theorem execEret_keeps : Gives (execEret c rd ra code s) (Keeps s) :=
  Keeps.gives <| State.issue_keeps (.refl s) _ _ _ _ (fun _ k =>
    keeps_ite (State.raiseWord_keeps k ..) <| keeps_ite (State.raiseWord_keeps k ..) <| keeps_ite (State.raiseWord_keeps k ..)
      (State.eretPop_keeps (State.drainStores_keeps k ..) ..))

theorem execTrapi_keeps : Gives (execTrapi c rd ra code s) (Keeps s) :=
  Keeps.gives <| State.issue_keeps (.refl s) _ _ _ _ (fun _ k => keeps_ite (State.raiseWord_keeps k ..) (State.raise_keeps k ..))

theorem execBreakK_keeps : Gives (execBreakK c rd ra code s) (Keeps s) :=
  Keeps.gives <| State.issue_keeps (.refl s) _ _ _ _ (fun _ k => keeps_ite (State.raiseWord_keeps k ..) (State.raise_keeps k ..))

theorem execIllegalOp_keeps (word : Word) : Gives (execIllegalOp c word s) (Keeps s) :=
  Keeps.gives_if <| State.issue_keeps (.refl s) _ _ _ _ (fun _ k => State.raiseWord_keeps k ..)

theorem execWfi_keeps : Gives (execWfi c rd ra code s) (Keeps s) :=
  Keeps.gives <| State.issue_keeps (.refl s) _ _ _ _ (fun _ k =>
    keeps_ite (State.raiseWord_keeps k ..) <| keeps_ite (State.raiseWord_keeps k ..) <|
      keeps_ite (State.park_keeps (State.advance_keeps k ..) ..) (State.modK_keeps k ..))

theorem execIflush_keeps : Gives (execIflush c rd ra code s) (Keeps s) := by
  refine Keeps.gives <| State.issue_keeps (.refl s) _ _ _ _ (fun _ k =>
    keeps_ite (State.raiseWord_keeps k ..) (State.advance_keeps ?_ ..))
  exact State.modCluster_keeps (State.drainStores_keeps k _) _ _ (fun _ h => h)

theorem execKend_keeps : Gives (execKend c rd ra code s) (Keeps s) :=
  Keeps.gives <| State.issue_keeps (.refl s) _ _ _ _ (fun _ k => keeps_ite (State.raiseWord_keeps k ..) (State.kend_keeps k ..))

theorem execInterruptEntry_keeps : Gives (execInterruptEntry c s) (Keeps s) :=
  have k := State.modK_keeps (State.sEntry_keeps (.refl s) ..) ..
  (keeps_ite (State.answerDispatch_keeps k ..) k).gives_if

theorem execHarrierReportAccept_keeps : Gives (execHarrierReportAccept c s) (Keeps s) := by
  refine Keeps.gives_if ?_
  split
  · exact .refl s
  · dsimp only
    split
    · exact State.faultStop_keeps (State.modK_keeps (.refl s) ..) ..
    · exact State.raise_keeps (State.modK_keeps (.refl s) ..) ..
    · exact State.raise_keeps (State.modK_keeps (.refl s) ..) ..

/-! ### Harrier and Hearth -/

theorem execVopa_keeps : Gives (execVopa c f s) (Keeps s) :=
  Keeps.gives <| State.vissue_keeps (.refl s) _ _ _ _ _ _ (fun _ _ k => State.finishV_keeps k ..)

theorem execCompress_keeps : Gives (execCompress c f s) (Keeps s) :=
  Keeps.gives <| State.vissue_keeps (.refl s) _ _ _ _ _ _ (fun _ _ k => State.finishV_keeps k ..)

theorem execMvg_keeps : Gives (execMvg c f s) (Keeps s) :=
  Keeps.gives <| State.vissue_keeps (.refl s) _ _ _ _ _ _ (fun _ _ k => State.finishV_keeps (State.modK_keeps k ..) ..)

theorem execVcvt_keeps : Gives (execVcvt c f s) (Keeps s) :=
  Keeps.gives_unless <| State.vissue_keeps (.refl s) _ _ _ _ _ _ (fun _ _ k => State.finishV_keeps k ..)

theorem execVsetvl_keeps : Gives (execVsetvl c f s) (Keeps s) :=
  Keeps.gives <| State.vissue_keeps (.refl s) _ _ _ _ _ _ (fun _ _ k => State.modCluster_keeps k _ _ (fun _ h => h))

theorem execVpcnt_keeps : Gives (execVpcnt c f s) (Keeps s) :=
  Keeps.gives <| State.vissue_keeps (.refl s) _ _ _ _ _ _ (fun _ _ k => State.modCluster_keeps k _ _ (fun _ h => h))

theorem execTrd_keeps : Gives (execTrd c f s) (Keeps s) :=
  Keeps.gives <| State.vissue_keeps (.refl s) _ _ _ _ _ _ (fun _ _ k => State.modCluster_keeps k _ _ (fun _ h => h))

theorem execL1dFill_keeps (set : BitVec 8) (way : BitVec 2) : Gives (execL1dFill c set way s) (Keeps s) := by
  refine Keeps.gives ?_
  split
  · exact State.landFill_keeps (.refl s) ..
  · exact .refl s

/-! ### Periods, jobs and contexts -/

theorem execPeriodBoundary_keeps : Gives (execPeriodBoundary st s) (Keeps s) :=
  have k (x : Stream) : Keeps s (s.setStream st x) := State.setStream_keeps (.refl s) ..
  Keeps.gives_unless <|
    keeps_ite (State.beginPeriod_keeps (k _) _) <|
    keeps_ite (State.askLine_keeps (k _) _) <|
    keeps_ite (State.askLine_keeps (State.settleJob_keeps (k _) _) _) (State.beginPeriod_keeps (k _) _)

theorem execDropComplete_keeps : Gives (execDropComplete st s) (Keeps s) := by
  refine Keeps.gives_unless <| State.leaveDrop_keeps (State.voidFaults_keeps (State.flushStream_keeps
    (State.modStream_keeps (keeps_foldl (keeps_foldl (State.modJob_keeps (keeps_foldl (State.forget_keeps (.refl s) _) ?_)
      _ _) ?_) ?_) _ _) _) _) _
  · exact fun _ _ k => State.discardContext_keeps k _
  · exact fun _ _ k => State.revertAmax_keeps k _
  · exact fun _ _ k => keeps_ite (State.revertDesc_keeps k ..) k

theorem execAdmission_keeps : Gives (execAdmission j s) (Keeps s) := by
  have stripped (n : Nat) : Keeps s (s.stripFor 256 j n) := State.stripFor_keeps _ (.refl s) ..
  have waits (x : Option Job) (a : BitVec 4) : Keeps s ((s.setJob j x).postJobState j .waitCapacity a) :=
    State.postJobState_keeps (State.setJob_keeps (.refl s) ..) ..
  refine Keeps.gives_if ?_
  split
  · exact .refl s
  · split
    · exact keeps_ite (State.startRunning_keeps (stripped _) _) (waits ..)
    · exact keeps_ite (keeps_ite (State.modJob_keeps (stripped _) ..) (State.startRunning_keeps (stripped _) _)) (.refl s)
    · exact keeps_ite (keeps_ite (keeps_ite (State.startRunning_keeps (.refl s) _) (State.restoreJob_keeps (.refl s) ..))
        (stripped _)) (waits ..)
    · exact .refl s

theorem execClusterGrant_keeps : Gives (execClusterGrant j c s) (Keeps s) := by
  refine Keeps.gives ?_
  split
  · exact .refl s
  · refine keeps_ite ?_ (.refl s)
    split
    · exact keeps_ite (.refl s) (State.grant_keeps (.refl s) ..)
    · split
      · exact State.grant_keeps (.refl s) ..
      · exact .refl s

theorem execPreemption_keeps : Gives (execPreemption st s) (Keeps s) := by
  refine Keeps.gives ?_
  split
  · exact .refl s
  · exact keeps_ite (State.preempt_keeps _ (.refl s) ..) (.refl s)

theorem execContextSave_keeps : Gives (execContextSave c s) (Keeps s) := by
  have k : Keeps s (s.drainReports (s.kestrel c).reports.length c) := State.drainReports_keeps _ (.refl s) _
  refine Keeps.gives_if ?_
  dsimp only
  split
  · split
    · exact keeps_ite k (State.saveContext_keeps k ..)
    · exact k
  · exact k

theorem execContextRestore_keeps : Gives (execContextRestore c s) (Keeps s) := by
  refine Keeps.gives ?_
  split
  case h_2 => exact .refl s
  split
  · exact .refl s
  split
  · exact .refl s
  refine keeps_ite ?_ (.refl s)
  split
  case h_1 s1 loaded => exact State.contextFails_keeps (State.loadSpan_keepsE (.refl s) loaded) ..
  case h_2 s1 loaded =>
    have k1 : Keeps s s1 := State.loadSpan_keepsE (.refl s) loaded
    refine keeps_ite ?_ ?_
    · dsimp only
      split
      case h_1 s2 moved =>
        have k2 : Keeps s s2 := State.moveIn_keepsE k1 moved
        split
        · exact State.askMover_keeps (.refl s) ..
        · exact State.contextFails_keeps k2 ..
      case h_2 s2 moved =>
        exact State.unpreempt_keeps (State.dropAnswers_keeps (State.modJob_keeps
          (State.loadImage_keeps (State.moveIn_keepsE k1 moved) ..) ..) ..) ..
    · split
      · exact State.failJob_keeps (State.postCause_keeps k1 ..) _
      · exact State.failJob_keeps (State.causeOf_keeps k1 ..) _

/-! ### Descriptors -/

theorem execNop_keeps : Gives (execNop st idx s) (Keeps s) :=
  Keeps.gives <| State.beginChecked_keeps (.refl s) _ _ _ _ (fun _ _ k => State.finish_keeps k ..)

theorem execJobStart_keeps : Gives (execJobStart st idx s) (Keeps s) := by
  refine Keeps.gives (State.beginChecked_keeps (.refl s) _ _ _ _ (fun d t k => ?_))
  dsimp only
  split
  · exact State.badDescriptor_keeps k ..
  · exact State.finish_keeps (keeps_foldl (State.setJob_keeps k ..) (fun _ _ k => State.modStream_keeps k ..)) ..

theorem execJobEnd_keeps : Gives (execJobEnd st idx s) (Keeps s) :=
  Keeps.gives_unless (State.beginChecked_keeps (.refl s) _ _ _ _ (fun _ _ k =>
    State.jobDone_keeps (State.settle_keeps (State.modStream_keeps (State.modJob_keeps (State.finish_keeps k ..) ..) ..) _) _))

theorem execJobEndAbort_keeps : Gives (execJobEndAbort st idx s) (Keeps s) := by
  refine Keeps.gives ?_
  split
  · have k (d : Desc → Desc) : Keeps s (s.modDesc st idx d) := State.modDesc_keeps (.refl s) ..
    refine keeps_ite ?_ (.refl s)
    dsimp only
    split
    · exact keeps_ite (State.finish_keeps (k _) ..) (State.requestAbort_keeps (k _) _)
    · exact State.finish_keeps (k _) ..
  · exact .refl s

theorem execFenceDescriptor_keeps : Gives (execFenceDescriptor st idx s) (Keeps s) := by
  refine Keeps.gives ?_
  split
  · exact keeps_ite (State.continuing_keeps (.refl s) _ _ _ _ (fun _ _ k => State.fenceStep_keeps k ..))
      (State.beginChecked_keeps (.refl s) _ _ _ _ (fun _ _ k =>
        keeps_ite (State.badDescriptor_keeps k ..) (State.fenceStep_keeps k ..)))
  · exact .refl s

theorem execTimestamp_keeps : Gives (execTimestamp st idx s) (Keeps s) := by
  refine Keeps.gives ?_
  split
  · exact keeps_ite (State.continuing_keeps (.refl s) _ _ _ _ (fun _ _ k => keeps_ite (State.stamp_keeps k ..) k))
      (State.beginChecked_keeps (.refl s) _ _ _ _ (fun _ _ k => State.stamp_keeps k ..))
  · exact .refl s

theorem execPeriodMark_keeps : Gives (execPeriodMark st idx s) (Keeps s) :=
  Keeps.gives <| State.beginChecked_keeps (.refl s) _ _ _ _ (fun _ _ k =>
    have k1 := State.finish_keeps k ..
    keeps_ite (keeps_foldl k1 (fun _ _ k => State.releaseCluster_keeps k _)) k1)

theorem execCodeSync_keeps : Gives (execCodeSync st idx s) (Keeps s) := by
  refine Keeps.gives <| State.beginChecked_keeps (.refl s) _ _ _ _ (fun d t k => ?_)
  extract_lets cs s1
  have k1 : Keeps s s1 := keeps_foldl k (fun _ _ k => State.cleanL1_keeps (State.drainStores_keeps k _) ..)
  refine State.finish_keeps (keeps_foldl k1 ?_) ..
  exact fun _ _ k => State.modCluster_keeps k _ _ (fun _ h => h)

theorem execKernel_keeps : Gives (execKernel st idx s) (Keeps s) :=
  Keeps.gives <| State.beginNcl_keeps (.refl s) _ _ _ _ _ (fun _ _ _ _ k => State.beginHearth_keeps k ..)

theorem execAttn_keeps : Gives (execAttn st idx s) (Keeps s) :=
  Keeps.gives <| State.beginShares_keeps (.refl s) _ _ _ _ _ (fun _ _ _ k => State.readKvHeader_keeps k ..)

theorem execResume_keeps : Gives (execResume st idx s) (Keeps s) := by
  refine Keeps.gives (State.beginChecked_keeps (.refl s) _ _ _ _ (fun d t k => ?_))
  dsimp only
  split
  · exact keeps_ite (State.badDescriptor_keeps k ..) <| keeps_ite (State.finish_keeps (State.leaveFault_keeps
      (State.resumedNotices_keeps (Keeps.mkA (State.restartMaster_keeps k _)) ..) _) ..) (State.finish_keeps k ..)
  · exact keeps_ite (State.badDescriptor_keeps k ..) (State.finish_keeps k ..)

/-! ### The mover -/

theorem execCopy_keeps : Gives (execCopy st idx s) (Keeps s) :=
  Keeps.gives <| State.beginMover_keeps (.refl s) _ _ _ _ _ (fun _ _ _ k => k)

theorem execConvert_keeps : Gives (execConvert st idx s) (Keeps s) :=
  Keeps.gives <| State.beginMover_keeps (.refl s) _ _ _ _ _ (fun _ _ _ k =>
    State.modDesc_keeps (keeps_ite k (State.cvReset_keeps k ..)) ..)

theorem execKvAppend_keeps : Gives (execKvAppend st idx s) (Keeps s) :=
  Keeps.gives <| State.beginMover_keeps (.refl s) _ _ _ _ _ (fun _ _ _ k => State.kvBusy_keeps k ..)

theorem execKvBusyRetry_keeps : Gives (execKvBusyRetry st idx s) (Keeps s) := by
  refine Keeps.gives (State.continuing_keeps (.refl s) _ _ _ _ (fun d t k => ?_))
  split
  · exact keeps_ite (State.kvBusy_keeps k ..) k
  · exact k

theorem execMoverRequest_keeps (src dst : Word) (len : W32) (completion : Word) :
    Gives (execMoverRequest c src dst len completion s) (Keeps s) :=
  Keeps.gives_if (State.modCluster_keeps (.refl s) _ _ (fun _ h => h))

theorem execMoverSegment_keeps : Gives (execMoverSegment c s) (Keeps s) := by
  refine Keeps.gives_if ?_
  split
  · exact keeps_ite (.refl s) (State.continuing_keeps (.refl s) _ _ _ _ (fun _ _ k => State.descStep_keeps k ..))
  · split
    · exact .refl s
    · exact keeps_ite (.refl s) (State.requestStep_keeps (.refl s) ..)

/-! ### Range tables -/

theorem execInsert_keeps : Gives (execInsert st idx s) (Keeps s) := by
  refine Keeps.gives (State.beginUpdate_keeps (.refl s) _ _ _ _ (fun a d e t k => ?_))
  dsimp only
  split
  · exact State.badDescriptor_keeps k ..
  · exact State.finish_keeps (State.flushRanges_keeps (State.setEntries_keeps (State.nextGen_keeps k _) ..) _) ..

theorem execModify_keeps : Gives (execModify st idx s) (Keeps s) := by
  refine Keeps.gives (State.beginUpdate_keeps (.refl s) _ _ _ _ (fun a d e t k => ?_))
  split
  · exact State.badDescriptor_keeps k ..
  split
  · exact State.badDescriptor_keeps k ..
  split
  next g s1 stamped =>
    extract_lets new s2 s3 s4 s5 s6
    have k2 : Keeps s s2 := State.setEntries_keeps (State.nextGen_keepsE k stamped) ..
    have k4 : Keeps s s4 := State.flushRanges_keeps (keeps_ite (State.clearCounters_keeps k2 ..) k2) _
    have k5 : Keeps s s5 := State.drainSpace_keeps k4 _
    have k6 : Keeps s s6 := keeps_ite (State.quiesceSpan_keeps k5 ..) k5
    exact keeps_ite (State.opRuns_keeps k6 ..) (State.finish_keeps k4 ..)

theorem execModifyDrainDone_keeps : Gives (execModifyDrainDone st idx s) (Keeps s) :=
  Keeps.gives <| State.continuing_keeps (.refl s) _ _ _ _ (fun _ _ k => keeps_ite k (State.finish_keeps (State.opEnd_keeps k ..) ..))

theorem execClearCounts_keeps : Gives (execClearCounts st idx s) (Keeps s) := by
  refine Keeps.gives (State.beginUpdate_keeps (.refl s) _ _ _ _ (fun a d e t k => ?_))
  split
  · exact State.badDescriptor_keeps k ..
  · exact State.finish_keeps (State.clearCounters_keeps k ..) ..

theorem execWithdraw_keeps : Gives (execWithdraw st idx s) (Keeps s) := by
  refine Keeps.gives (State.tableOp_keeps (.refl s) _ _ _ _ _ (fun a d t k => ?_))
  dsimp only
  split
  · exact State.badDescriptor_keeps k ..
  · exact State.badDescriptor_keeps k ..
  · exact keeps_foldl (State.opRuns_keeps (State.flushRanges_keeps (State.splitEntry_keeps k ..) _) ..)
      (fun _ _ k => keeps_ite (State.withdrawMover_keeps k ..) k)

theorem execWithdrawRemove_keeps : Gives (execWithdrawRemove st idx s) (Keeps s) := by
  refine Keeps.gives (State.continuing_keeps (.refl s) _ _ _ _ (fun d t k => ?_))
  extract_lets a va len s1
  have k1 : Keeps s s1 := State.drainSpace_keeps k _
  refine keeps_ite k1 ?_
  split
  · exact State.finish_keeps (State.opEnd_keeps k1 ..) ..
  · extract_lets s2 s3
    have k2 : Keeps s s2 := State.quiesceSpan_keeps k1 ..
    have k3 : Keeps s s3 := keeps_ite (State.dropHostLines_keeps k2 ..) k2
    exact State.finish_keeps (State.opEnd_keeps (State.setEntries_keeps k3 ..) ..) ..

theorem execMigrate_keeps : Gives (execMigrate st idx s) (Keeps s) := by
  refine Keeps.gives (State.tableOp_keeps (.refl s) _ _ _ _ _ (fun a d t k => ?_))
  dsimp only
  split
  · exact State.badDescriptor_keeps k ..
  · exact State.badDescriptor_keeps k ..
  · exact State.quiesceSpan_keeps (State.modDesc_keeps (State.flushRanges_keeps (State.splitEntry_keeps k ..) _) ..) ..

theorem execMigrateCopySegment_keeps : Gives (execMigrateCopySegment st idx s) (Keeps s) :=
  Keeps.gives <| State.continuing_keeps (.refl s) _ _ _ _ (fun _ _ k => keeps_ite (State.migrateStep_keeps k ..) k)

theorem execMigrateSwap_keeps : Gives (execMigrateSwap st idx s) (Keeps s) := by
  refine Keeps.gives (State.continuing_keeps (.refl s) _ _ _ _ (fun d t k => ?_))
  extract_lets a va len s1
  have k1 : Keeps s s1 := State.drainSpace_keeps k _
  refine keeps_ite k ?_
  split
  · exact k1
  refine keeps_ite k1 ?_
  split
  next g s2 stamped =>
    extract_lets old new s3 s4
    have k3 : Keeps s s3 := State.flushRanges_keeps (State.setEntries_keeps (State.nextGen_keepsE k1 stamped) ..) _
    have k4 : Keeps s s4 := keeps_ite (State.dropDeviceLines_keeps k3 ..) (keeps_ite (State.dropHostLines_keeps k3 ..) k3)
    exact State.finish_keeps (State.clearCounters_keeps k4 ..) ..

/-! ### Checkpoints -/

theorem execCheckpointSave_keeps : Gives (execCheckpointSave st idx s) (Keeps s) := by
  refine Keeps.gives ?_
  split
  · exact keeps_ite (State.goOnCkpt_keeps (.refl s) _ _ _ _ (fun _ _ _ _ k => State.ckSaveStep_keeps k ..))
      (State.beginCkpt_keeps (.refl s) _ _ _ _ (fun _ _ k => State.modDesc_keeps k ..))
  · exact .refl s

theorem execCheckpointRestore_keeps : Gives (execCheckpointRestore st idx s) (Keeps s) := by
  refine Keeps.gives ?_
  split
  case h_2 => exact .refl s
  refine keeps_ite (State.goOnCkpt_keeps (.refl s) _ _ _ _ (fun c d x t k => ?_))
    (State.beginCkpt_keeps (.refl s) _ _ _ _ (fun _ _ k => k))
  split
  next s1 e => exact State.modDesc_keeps (State.restoreStep_keepsE k e) ..
  next s1 e => exact State.finish_keeps (State.restoreStep_keepsE k e) ..
  next s1 e =>
    have k1 := State.restoreStep_keepsE k e
    exact keeps_ite k1 (State.requestFails_keeps k1 _)
  next s1 e => exact State.ckFails_keeps (State.restoreStep_keepsE k e) ..
  next s1 e => exact State.moverStops_keeps (State.restoreStep_keepsE k e) ..

theorem execCkptOpen_keeps : Gives (execCkptOpen p pkt s) (Keeps s) := by
  refine Keeps.gives <| State.serveCkpt_keeps (.refl s) _ _ _ _ (fun t k => ?_)
  split
  next opened => exact State.answer_keeps (State.openHalf_keepsE k opened) ..

theorem execCkptData_keeps : Gives (execCkptData p pkt s) (Keeps s) := by
  refine Keeps.gives (State.serveCkpt_keeps (.refl s) _ _ _ _ (fun t k => ?_))
  split
  next filled => exact State.answer_keeps (State.fillHalf_keepsE k filled) ..
  next => exact State.refuse_keeps k ..

theorem execCkptSeal_keeps : Gives (execCkptSeal p pkt s) (Keeps s) := by
  refine Keeps.gives (State.serveCkpt_keeps (.refl s) _ _ _ _ (fun t k => ?_))
  split
  next sealed => exact State.answer_keeps (State.sealHalf_keepsE k sealed) ..
  next => exact State.answer_keeps k ..

theorem execCkptRead_keeps : Gives (execCkptRead p pkt s) (Keeps s) :=
  Keeps.gives <| State.serveCkpt_keeps (.refl s) _ _ _ _ (fun _ k => keeps_ite (State.answer_keeps k ..) (State.refuse_keeps k ..))

theorem execCkptAck_keeps : Gives (execCkptAck p pkt s) (Keeps s) := by
  refine Keeps.gives ?_
  split
  case h_2 => exact .refl s
  split
  · refine keeps_ite (State.ckFails_keeps (State.closeRequest_keeps (.refl s) _) ..)
      (State.answered_keeps (.refl s) _ _ _ _ (fun _ _ k =>
        State.continuing_keeps (State.closeRequest_keeps k _) _ _ _ _ (fun _ _ k => ?_)))
    exact keeps_ite (State.ckOpened_keeps k ..) (keeps_ite (State.ckSaved_keeps k ..) k)
  · exact State.answered_keeps (.refl s) _ _ _ _ (fun _ _ k => State.closeRequest_keeps k _)

theorem execCkptReadRsp_keeps : Gives (execCkptReadRsp p pkt s) (Keeps s) :=
  Keeps.gives <| State.answered_keeps (.refl s) _ _ _ _ (fun _ _ k => Keeps.mkA k)

/-! ### The Evoir fabric -/

theorem execForward_keeps : Gives (execForward p pkt s) (Keeps s) := by
  refine Keeps.gives_if (keeps_ite (State.logCorrected_keeps (.refl s) _) (keeps_ite (.refl s) ?_))
  split
  · exact State.sendPacket_keeps (.refl s) ..
  · exact State.unreachable_keeps (.refl s) _

theorem execPeerRead_keeps : Gives (execPeerRead p pkt s) (Keeps s) :=
  Keeps.gives <| State.serve_keeps (.refl s) _ _ _ _ _ (fun _ k => State.answer_keeps (State.deviceRead_keeps k ..) ..)

theorem execPeerWrite_keeps : Gives (execPeerWrite p pkt s) (Keeps s) :=
  Keeps.gives <| State.serve_keeps (.refl s) _ _ _ _ _ (fun _ k =>
    have k1 := State.deviceWrite_keeps k ..
    State.answer_keeps (keeps_ite (State.writeMem_keeps k1 ..) k1) ..)

theorem execPeerAtomic_keeps : Gives (execPeerAtomic p pkt s) (Keeps s) :=
  Keeps.gives <| State.serve_keeps (.refl s) _ _ _ _ _ (fun _ k => State.answer_keeps (State.deviceWrite_keeps k ..) ..)

theorem execReadRsp_keeps : Gives (execReadRsp p pkt s) (Keeps s) := by
  refine Keeps.gives (State.answered_keeps (.refl s) _ _ _ _ (fun r t k => ?_))
  split
  · exact State.remoteDone_keeps (State.closeRequest_keeps k _) ..
  · exact Keeps.mkA k
  · exact State.closeRequest_keeps k _

theorem execWriteAck_keeps : Gives (execWriteAck p pkt s) (Keeps s) :=
  Keeps.gives <| State.answered_keeps (.refl s) _ _ _ _ (fun _ _ k => State.closeRequest_keeps k _)

theorem execAtomicRsp_keeps : Gives (execAtomicRsp p pkt s) (Keeps s) := by
  refine Keeps.gives (State.answered_keeps (.refl s) _ _ _ _ (fun r t k => ?_))
  split
  · exact State.remoteDone_keeps (State.closeRequest_keeps k _) ..
  · exact State.closeRequest_keeps k _

theorem execRemoteRequestLimit_keeps (tag : BitVec 16) : Gives (execRemoteRequestLimit tag s) (Keeps s) := by
  refine Keeps.gives ?_
  split
  · exact keeps_ite (State.requestFails_keeps (.refl s) _) (.refl s)
  · exact .refl s

theorem execTimeExchange_keeps : Gives (execTimeExchange s) (Keeps s) := by
  refine Keeps.gives_unless (keeps_ite (.mkA (.refl s)) ?_)
  split
  · exact State.missTime_keeps (.refl s) _
  · exact Keeps.mkA (State.askTime_keeps (State.missTime_keeps (.refl s) _) _)

theorem execTimePacket_keeps (t1 t2 t3 t4 : Int) (hops : BitVec 5) : Gives (execTimePacket p t1 t2 t3 t4 hops s) (Keeps s) :=
  Keeps.gives_if (keeps_ite (.mkA (.refl s)) (.mkA (.refl s)))

theorem execPerchIdle_keeps : Gives (execPerchIdle p s) (Keeps s) :=
  Keeps.gives_if <| State.sendSleep_keeps (State.setPort_keeps (.refl s) ..) ..

theorem execRoostIdle_keeps : Gives (execRoostIdle p s) (Keeps s) :=
  Keeps.gives_if <| State.sendSleep_keeps (State.modPort_keeps (State.setLink_keeps (.refl s) ..) ..) ..

theorem execSleepReq_keeps (roost : Bool) : Gives (execSleepReq p roost s) (Keeps s) :=
  have k (kind : Nat) := State.sendSleep_keeps (State.setPort_keeps (.refl s) p { s.port p with sleep := .none }) p kind roost
  Keeps.gives_if (keeps_ite (.refl s) (keeps_ite (State.modPort_keeps (k _) ..) (k _)))

theorem execSleepAck_keeps (roost : Bool) : Gives (execSleepAck p roost s) (Keeps s) :=
  Keeps.gives_if (keeps_ite (State.resumePort_keeps (.refl s) _) (State.modPort_keeps (State.sendSleep_keeps (.refl s) ..) ..))

theorem execSleepConfirm_keeps : Gives (execSleepConfirm p s) (Keeps s) :=
  Keeps.gives_if (keeps_ite (State.enterSleep_keeps (.refl s) _) (keeps_ite (State.resumePort_keeps (.refl s) _) (.refl s)))

theorem execWakeRequest_keeps : Gives (execWakeRequest p s) (Keeps s) := by
  refine Keeps.gives_if ?_
  split
  · exact State.wakePort_keeps (.refl s) _
  · exact State.resumePort_keeps (.refl s) _
  · exact State.sendSleep_keeps (State.setPort_keeps (.refl s) ..) ..
  · exact .refl s
  · exact State.setPort_keeps (.refl s) ..

theorem execHello_keeps (peer : BitVec 12) (role : BitVec 4) : Gives (execHello p peer role s) (Keeps s) :=
  have k := State.modPort_keeps (.refl s) ..
  Keeps.gives_if (keeps_ite (State.setLink_keeps k ..) k)

/-! ### The Evoir link -/

theorem execCablePresent_keeps : Gives (execCablePresent p s) (Keeps s) :=
  have k := State.setPort_keeps (.refl s) ..
  Keeps.gives_if (keeps_ite (State.train_keeps k ..) k)

theorem execCableRemoval_keeps : Gives (execCableRemoval p s) (Keeps s) :=
  have k := State.setLink_keeps (State.setPort_keeps (.refl s) ..) ..
  Keeps.gives_if (keeps_ite (State.portOff_keeps k _) k)

theorem execLock_keeps : Gives (execLock p s) (Keeps s) :=
  Keeps.gives_if <| State.openBurst_keeps (State.modPort_keeps (.refl s) ..) _

theorem execPreambleDetect_keeps (corr : Nat) : Gives (execPreambleDetect p corr s) (Keeps s) :=
  have k (x : Port) : Keeps s (s.setPort p x) := State.setPort_keeps (.refl s) ..
  have woken := State.wakePort_keeps (.refl s) p
  Keeps.gives_if <|
    keeps_ite (k _) <| keeps_ite (State.modPort_keeps woken ..) <| keeps_ite woken <| keeps_ite (k _) (.refl s)

theorem execProbe_keeps (lanes : List LaneMeasure) : Gives (execProbe p lanes s) (Keeps s) :=
  Keeps.gives_if <| State.sendTables_keeps (State.setPort_keeps (State.sendFrames_keeps _ (.refl s) _) ..) _

theorem execExchange_keeps (peer : Exchanged) : Gives (execExchange p peer s) (Keeps s) :=
  Keeps.gives_if <| State.emit_keeps (State.sendFlit_keeps (State.setPort_keeps (State.sendFrames_keeps _ (.refl s) _) ..) ..) _

theorem execVerify_keeps (expected : BitVec 12) : Gives (execVerify p expected s) (Keeps s) :=
  have k1 := State.setPort_keeps (State.sendFrames_keeps 1 (.refl s) p) ..
  Keeps.gives_if <| keeps_ite (State.setLink_keeps k1 ..) <|
    keeps_ite (State.activate_keeps (State.resend_keeps (State.takeAck_keeps k1 ..) _) _) (State.trainFails_keeps k1 _)

theorem execSuperframeEnd_keeps (lanes : List LaneMeasure) : Gives (execSuperframeEnd p lanes s) (Keeps s) :=
  have k1 := keeps_foldl (State.sendFrames_keeps 1 (.refl s) p) (fun _ _ k => State.laneEnd_keeps k ..)
  Keeps.gives_if (keeps_ite (State.retrainPort_keeps k1 _) k1)

theorem execLoadPropose_keeps (lane : Fin 4) (id : Byte) (sf : BitVec 16) (table : List (BitVec 4)) :
    Gives (execLoadPropose p lane id sf table s) (Keeps s) :=
  Keeps.gives_if <| State.sendLink_keeps (State.setPort_keeps (.refl s) ..) ..

theorem execLoadAccept_keeps (lane : Fin 4) (id : Byte) (sf : BitVec 16) : Gives (execLoadAccept p lane id sf s) (Keeps s) := by
  refine Keeps.gives_if ?_
  split
  · exact keeps_ite (State.setPort_keeps (.refl s) ..) (.refl s)
  · exact .refl s

theorem execCodewordDecode_keeps (place : WordPlace) (word : BitVec 9216) : Gives (execCodewordDecode p place word s) (Keeps s) :=
  Keeps.gives_if (keeps_ite (keeps_foldl (State.modPort_keeps (.refl s) ..) (fun _ _ k => State.badFlit_keeps k _))
    (keeps_foldl (.refl s) (fun _ _ k => State.takeBytes_keeps k ..)))

/-! ### Rings and messages -/

theorem execDoorbellPoll_keeps (line : Fin 512) (reply : Reply Line) : Gives (execDoorbellPoll line reply s) (Keeps s) := by
  have k : Keeps s (s.askLine line) := State.askLine_keeps (.refl s) _
  refine Keeps.gives_if ?_
  cases reply with
  | error e => exact State.readFailed_keeps (State.setLine_keeps k ..) ..
  | data x => exact State.polled_keeps k ..

theorem execDescriptorFetch_keeps (reply : Reply (List Line)) : Gives (execDescriptorFetch st reply s) (Keeps s) := by
  refine Keeps.gives_if ?_
  cases reply with
  | error e => exact State.readFailed_keeps (State.emit_keeps (.refl s) _) ..
  | data lines => exact State.takeSlots_keeps _ (State.emit_keeps (.refl s) _) ..

theorem execHeadReread_keeps (r : RingId) (reply : Reply W32) : Gives (execHeadReread r reply s) (Keeps s) := by
  refine Keeps.gives_if ?_
  cases reply with
  | error e => exact State.readFailed_keeps (State.emit_keeps (.refl s) _) ..
  | data v => exact State.setRing_keeps (State.emit_keeps (.refl s) _) ..

theorem execHeldRecordWrite_keeps (r : RingId) : Gives (execHeldRecordWrite r s) (Keeps s) :=
  Keeps.gives_if <| keeps_ite (State.flushEvents_keeps (.refl s)) <| keeps_ite (State.flushFaults_keeps (.refl s))
    (keeps_foldl (.refl s) (fun _ _ k => State.settle_keeps (State.leaveDrop_keeps (State.flushStream_keeps k _) _) _))

theorem execMsixRelease_keeps (fn : FunctionId) (enable mask : Bool) : Gives (execMsixRelease fn enable mask s) (Keeps s) :=
  Keeps.gives_unless (keeps_ite (State.releaseMsix_keeps (.mkA (.refl s)) _) (.mkA (.refl s)))

theorem execVectorUnmask_keeps (fn : FunctionId) (v : BitVec 11) : Gives (execVectorUnmask fn v s) (Keeps s) :=
  have k := State.setMsix_keeps (.refl s) ..
  Keeps.gives_unless (keeps_ite (State.sendMsix_keeps k ..) k)

/-! ### Accesses of host software -/

theorem execVfBar2Access_keeps (fn : FunctionId) (off : BitVec 30) (access : VfAccess) :
    Gives (execVfBar2Access fn off access s) (Keeps s) :=
  Keeps.gives_unless <| keeps_ite (State.unsupported_keeps (.refl s) _) <| keeps_ite (State.freezeVf_keeps (.refl s) _)
    (State.bar2Do_keeps (.refl s) ..)

theorem execStbStreamLoad_keeps (data : W32) (reply : Reply Line) : Gives (execStbStreamLoad data reply s) (Keeps s) :=
  Keeps.gives_unless (keeps_ite (State.setupErr_keeps (.refl s) ..) (State.loadWrite_keeps (.refl s) ..))

theorem execVfStreamLoad_keeps (fn : FunctionId) (data : W32) (reply : Reply Line) :
    Gives (execVfStreamLoad fn data reply s) (Keeps s) :=
  Keeps.gives_unless <| keeps_ite (State.unsupported_keeps (.refl s) _) <| keeps_ite (State.setupErr_keeps (.refl s) ..)
    (State.loadWrite_keeps (.refl s) ..)

theorem execGenSetupErrRead_keeps : Gives (execGenSetupErrRead s) (Keeps s) :=
  Keeps.gives_if (.mkA (State.readReply_keeps (.refl s) _))

theorem execStbEvtLostRead_keeps : Gives (execStbEvtLostRead s) (Keeps s) :=
  have k := State.readReply_keeps (.refl s) _
  Keeps.gives_if (keeps_ite k (.mkA k))

theorem execEvlCounterRead_keeps (n : Fin 4) : Gives (execEvlCounterRead p n s) (Keeps s) :=
  have k := State.readReply_keeps (.refl s) _
  Keeps.gives_if (keeps_ite k (State.modPort_keeps k ..))

theorem execTbTimeLoRead_keeps : Gives (execTbTimeLoRead s) (Keeps s) :=
  have k := State.readReply_keeps (.refl s) _
  Keeps.gives_if (keeps_ite k (.mkA k))

/-! ### Resets of units and ways of the L2 -/

theorem execUnitResetDone_keeps : Gives (execUnitResetDone kind number s) (Keeps s) :=
  Keeps.gives_if <| State.reissueBar2_keeps (State.resetEnds_keeps (State.setUnit_keeps (.refl s) ..) ..)

theorem execResetHoldEnd_keeps : Gives (execResetHoldEnd kind number s) (Keeps s) :=
  Keeps.gives_if <| State.resetBegins_keeps (State.bumpEpoch_keeps (.refl s) ..) ..

theorem execStoreDrainLimit_keeps : Gives (execStoreDrainLimit c s) (Keeps s) :=
  Keeps.gives_if <| State.modCluster_keeps (State.logDiscard_keeps (.refl s) ..) _ _ (fun _ h => h)

theorem execWayOff_keeps (way : Fin 16) : Gives (execWayOff q way s) (Keeps s) :=
  Keeps.gives_if <| State.setQuad_keeps (State.withL2_keeps (.refl s) _) ..

/-! ### Integrity -/

theorem execXactTimeout_keeps (w : XactWait) : Gives (execXactTimeout c m w s) (Keeps s) :=
  Keeps.gives_if <| State.freezeCluster_keeps (State.forget_keeps (keeps_foldl (.refl s) (fun _ _ k => State.dropWrite_keeps k _)) _) ..

theorem execTalonDumpDone_keeps : Gives (execTalonDumpDone m number s) (Keeps s) := by
  refine Keeps.gives ?_
  split
  · exact .refl s
  · refine keeps_ite ?_ (.refl s)
    extract_lets s1 integ s2
    have k2 : Keeps s s2 := .mkA (State.talonDump_keeps (.refl s) ..)
    exact keeps_ite (State.unfreeze_keeps k2 ..) k2

theorem execClusterRetire_keeps : Gives (execClusterRetire c s) (Keeps s) :=
  have k1 := Keeps.mkA (.refl s)
  Keeps.gives_if (State.logRetired_keeps (keeps_ite (State.takeOut_keeps (State.retireDump_keeps k1 _) _) k1) _)

theorem execSliceLost_keeps (slice : Fin 64) (tagsRead : Bool) (reason : Byte) :
    Gives (execSliceLost slice tagsRead reason s) (Keeps s) := by
  refine Keeps.gives_if (State.postCapacity_keeps (keeps_foldl (.mkB (keeps_foldl (State.logLost_keeps (.refl s) ..) ?_)) ?_) ..)
  · exact fun _ _ k => State.withMem_keeps (.mkA k) _ (fun i => keeps_writeBytes k i)
  · exact fun _ _ k => State.failJob_keeps k _

theorem execStackLost_keeps (i : StackId) (reason : Byte) : Gives (execStackLost i reason s) (Keeps s) :=
  have k3 := State.bumpEpoch_keeps (.mkB (State.logLost_keeps (.refl s) ..)) ..
  Keeps.gives_if (keeps_ite (State.deviceFatal_keeps k3 ..) (State.postCapacity_keeps k3 ..))

theorem execRootPllUnlock_keeps : Gives (execRootPllUnlock s) (Keeps s) :=
  Keeps.gives_if (State.deviceFatal_keeps (.mkA (.refl s)) ..)

theorem execStewardWatchdog_keeps : Gives (execStewardWatchdog s) (Keeps s) :=
  Keeps.gives <| State.deviceFatal_keeps (.mkA (.refl s)) ..

theorem execDumpSectionTimeout_keeps : Gives (execDumpSectionTimeout s) (Keeps s) := by
  refine Keeps.gives_if ?_
  split
  · exact Keeps.mkA (State.writeEntry_keeps (.refl s) ..)
  · exact .refl s

/-! ### Resets of the device, and power -/

theorem execColdReset_keeps (b : BootEnv) : Gives (execColdReset b s) (Keeps s) :=
  Keeps.gives <| State.boot_keeps (.mkA (State.powerOff_keeps (.refl s))) _

theorem execVfEnableClear_keeps : Gives (execVfEnableClear s) (Keeps s) :=
  Keeps.gives_if (keeps_foldl (.refl s) (fun _ _ k => State.resetVf_keeps k _))

theorem execClusterIdlePowerDown_keeps : Gives (execClusterIdlePowerDown c s) (Keeps s) :=
  Keeps.gives_if (State.setCluster_keeps (State.bumpEpoch_keeps (State.cleanL1_keeps (State.drainStores_keeps (.refl s) _) ..) ..)
    _ _ (fun _ => rfl))

/-! ### Management -/

theorem execSetEndpointId_keeps (op : BitVec 2) (eid : Byte) : Gives (execSetEndpointId op eid s) (Keeps s) :=
  Keeps.gives_if <| keeps_ite
    (keeps_ite (State.reply_keeps (.refl s) ..) (State.reply_keeps (.mkA (.refl s)) ..))
    (keeps_ite (State.reply_keeps (.refl s) ..) (State.reply_keeps (.refl s) ..))

theorem execGetMctpVersionSupport_keeps (type : Byte) : Gives (execGetMctpVersionSupport type s) (Keeps s) :=
  Keeps.gives_if <| keeps_ite (State.reply_keeps (.refl s) ..)
    (keeps_ite (State.reply_keeps (.mkA (.refl s)) ..) (State.reply_keeps (.refl s) ..))

theorem execGetSensorReading_keeps (id : BitVec 16) : Gives (execGetSensorReading id s) (Keeps s) := by
  refine Keeps.gives_if ?_
  dsimp only
  split
  · exact State.reply_keeps (.refl s) ..
  · exact State.reply_keeps (.refl s) ..

theorem execGetStateSensorReadings_keeps (id : BitVec 16) : Gives (execGetStateSensorReadings id s) (Keeps s) := by
  refine Keeps.gives_if ?_
  dsimp only
  split
  · exact State.reply_keeps (.refl s) ..
  · exact State.reply_keeps (.refl s) ..

theorem execGetNumericEffecterValue_keeps (id : BitVec 16) : Gives (execGetNumericEffecterValue id s) (Keeps s) :=
  Keeps.gives_if <| keeps_ite (State.reply_keeps (.refl s) ..)
    (keeps_ite (State.reply_keeps (.mkA (.refl s)) ..) (State.reply_keeps (.refl s) ..))

theorem execVerifyComplete_keeps (component : BitVec 16) (sigOk : Bool) (svn : BitVec 16) :
    Gives (execVerifyComplete component sigOk svn s) (Keeps s) := by
  have k (x : Option Staged) (code : Byte) : Keeps s ((s.setStaged component x).reply code []) :=
    State.reply_keeps (State.setStaged_keeps (.refl s) ..) ..
  refine Keeps.gives_if ?_
  dsimp only
  split
  · exact .refl s
  · exact keeps_ite (k ..) (keeps_ite (k ..) (k ..))

theorem execActivateFirmware_keeps (selfContained : Bool) : Gives (execActivateFirmware selfContained s) (Keeps s) := by
  refine Keeps.gives_if ?_
  dsimp -zeta only
  extract_lets s1 s2
  have k1 : Keeps s s1 := keeps_ite (State.setStaged_keeps (.refl s) ..) (.refl s)
  have k2 : Keeps s s2 := keeps_ite (State.nextUpdate_keeps (keeps_foldl (State.setStaged_keeps k1 ..)
    (fun _ _ k => keeps_ite (State.modPort_keeps k ..) k))) k1
  exact State.reply_keeps k2 ..

end

/-! ### Every command -/

/-- Every command answers a next state, which keeps the queue and the invariant of memories. -/
theorem exec_keeps (i : Instr) (s : State) : Gives (exec i s) (Keeps s) := by
  cases i with
  -- Kestrel: arithmetic and control flow
  | add | sub | and | or | xor | sll | srl | sra | slt | sltu | min | max | minu | maxu | mul | mulh | mulhu =>
    exact (State.aluRR_keeps (.refl s) ..).gives
  | addi | andi | ori | xori | slti => exact (State.aluRI_keeps (.refl s) ..).gives
  | slli | srli | srai => exact (State.shiftI_keeps (.refl s) ..).gives
  | div | divu | rem | remu => exact (State.divRR_keeps (.refl s) ..).gives
  | liw => exact execLiw_keeps ..
  | liws => exact execLiws_keeps ..
  | pca => exact execPca_keeps ..
  | beq | bne | blt | bge | bltu | bgeu => exact (State.branch_keeps (.refl s) ..).gives
  | jmp => exact execJmp_keeps ..
  | call => exact execCall_keeps ..
  | jmpr => exact execJmpr_keeps ..
  | callr => exact execCallr_keeps ..
  | ret => exact execRet_keeps ..
  -- Kestrel: system registers, exceptions and the sampling point
  | mfsr => exact (State.readSys_keeps (.refl s) ..).gives_unless
  | mtsr => exact (State.writeSys_keeps (.refl s) ..).gives_unless
  | escalate | sspush | modeDet => exact (State.writeSys_keeps (.refl s) ..).gives
  | eret => exact execEret_keeps ..
  | trapi => exact execTrapi_keeps ..
  | breakK => exact execBreakK_keeps ..
  | illegalOp => exact execIllegalOp_keeps ..
  | wfi => exact execWfi_keeps ..
  | iflush => exact execIflush_keeps ..
  | kend => exact execKend_keeps ..
  | timer => exact (State.modK_keeps (.refl s) ..).gives
  | interruptEntry => exact execInterruptEntry_keeps ..
  | harrierReportAccept => exact execHarrierReportAccept_keeps ..
  | watchdog => exact (State.raise_keeps (.refl s) ..).gives_if
  | owlLimit => exact (State.clusterFatal_keeps (.refl s) ..).gives_if
  -- Kestrel: memory
  | lb | lh | lw | ld | lbu | lhu | lwu => exact (State.load_keeps (.refl s) ..).gives
  | sb | sh | sw | sd => exact (State.storeN_keeps (.refl s) ..).gives
  | atadd | atmin | atmax | atswp | atcas | atfadd => exact (State.atomic_keeps (.refl s) ..).gives
  | clean | inval | cleanInval => exact (State.cacheOp_keeps (.refl s) ..).gives
  | cleanSw | invalSw | cleanInvalSw => exact (State.cacheSw_keeps (.refl s) ..).gives
  | fence | fenceV | fenceH => exact (State.fenceOp_keeps (.refl s) ..).gives
  -- Harrier
  | vadd | vsub | vmul | vmulh | vmin | vmax | vand | vor | vxor | vsll | vsrl | vsra | vabs | vneg | vabsd | vdiv | vsqrt =>
    exact (State.varith_keeps (.refl s) ..).gives
  | vfma | vfms | vfnma | vfmac => exact (State.vfmaOp_keeps (.refl s) ..).gives
  | vopa => exact execVopa_keeps ..
  | vcmpEq | vcmpNe | vcmpLt | vcmpLe | vcmpGt | vcmpGe => exact (State.vcmp_keeps (.refl s) ..).gives
  | slideup | slidedn | vgather | bcast | mvto => exact (State.vperm_keeps (.refl s) ..).gives
  | compress => exact execCompress_keeps ..
  | mvg => exact execMvg_keeps ..
  | vcvt => exact execVcvt_keeps ..
  | vredsum | vredmax | vredmin | vredand | vredor | vredxor => exact (State.vred_keeps (.refl s) ..).gives
  | vld | vst => exact (State.vunit_keeps (.refl s) ..).gives
  | vlds | vsts => exact (State.vstrided_keeps (.refl s) ..).gives
  | vldx | vstx => exact (State.vindexed_keeps (.refl s) ..).gives
  | vldseg | vstseg => exact (State.vsegment_keeps (.refl s) ..).gives
  | vsetvl => exact execVsetvl_keeps ..
  | vpand | vpor | vpnot => exact (State.vpred_keeps (.refl s) ..).gives
  | vpcnt => exact execVpcnt_keeps ..
  | l1dFill => exact execL1dFill_keeps ..
  | walk => exact (State.lookup_keeps (.refl s) ..).gives_if
  -- Hearth
  | mma | accZero | accPromote | accSeed | twr => exact (State.hissue_keeps (.refl s) ..).gives
  | trd => exact execTrd_keeps ..
  -- Periods, jobs and contexts
  | periodBoundary => exact execPeriodBoundary_keeps ..
  | dropComplete => exact execDropComplete_keeps ..
  | budgetExhausted => exact (State.setStream_keeps (.refl s) ..).gives_if
  | admission => exact execAdmission_keeps ..
  | preemption => exact execPreemption_keeps ..
  | contextSave => exact execContextSave_keeps ..
  | contextRestore => exact execContextRestore_keeps ..
  | clusterGrant => exact execClusterGrant_keeps ..
  -- Descriptors
  | nop => exact execNop_keeps ..
  | jobStart => exact execJobStart_keeps ..
  | jobEnd => exact execJobEnd_keeps ..
  | jobEndAbort => exact execJobEndAbort_keeps ..
  | fenceDescriptor => exact execFenceDescriptor_keeps ..
  | timestamp => exact execTimestamp_keeps ..
  | periodMark => exact execPeriodMark_keeps ..
  | codeSync => exact execCodeSync_keeps ..
  | kernel => exact execKernel_keeps ..
  | convStripe | convLoaf | pool => exact (State.imageOp_keeps (.refl s) ..).gives
  | attn => exact execAttn_keeps ..
  | resume => exact execResume_keeps ..
  -- The mover
  | copy => exact execCopy_keeps ..
  | convert => exact execConvert_keeps ..
  | kvAppend => exact execKvAppend_keeps ..
  | kvBusyRetry => exact execKvBusyRetry_keeps ..
  | moverRequest => exact execMoverRequest_keeps ..
  | moverSegment => exact execMoverSegment_keeps ..
  -- Range tables and checkpoints
  | insert => exact execInsert_keeps ..
  | modify => exact execModify_keeps ..
  | modifyDrainDone => exact execModifyDrainDone_keeps ..
  | clearCounts => exact execClearCounts_keeps ..
  | withdraw => exact execWithdraw_keeps ..
  | withdrawRemove => exact execWithdrawRemove_keeps ..
  | migrate => exact execMigrate_keeps ..
  | migrateCopySegment => exact execMigrateCopySegment_keeps ..
  | migrateSwap => exact execMigrateSwap_keeps ..
  | checkpointSave => exact execCheckpointSave_keeps ..
  | checkpointRestore => exact execCheckpointRestore_keeps ..
  | ckptOpen => exact execCkptOpen_keeps ..
  | ckptData => exact execCkptData_keeps ..
  | ckptSeal => exact execCkptSeal_keeps ..
  | ckptAck => exact execCkptAck_keeps ..
  | ckptRead => exact execCkptRead_keeps ..
  | ckptReadRsp => exact execCkptReadRsp_keeps ..
  | fillingTimeout => exact (State.emptyFilling_keeps (.refl s) _).gives_if
  -- Rings and messages
  | doorbellPoll => exact execDoorbellPoll_keeps ..
  | descriptorFetch => exact execDescriptorFetch_keeps ..
  | headReread => exact execHeadReread_keeps ..
  | heldRecordWrite => exact execHeldRecordWrite_keeps ..
  | faultRecordWrite => exact (State.flushFaults_keeps (.refl s)).gives_if
  | coalesceTimeout => exact (State.signalRing_keeps (.refl s) _).gives_if
  | msixRelease => exact execMsixRelease_keeps ..
  | vectorUnmask => exact execVectorUnmask_keeps ..
  | completionTimeout => exact (State.readFailed_keeps (.refl s) ..).gives_if
  -- Set-up registers and BAR2
  | stbStreamLoad => exact execStbStreamLoad_keeps ..
  | vfStreamLoad => exact execVfStreamLoad_keeps ..
  | stbJobAbort | aspLoad | errUnfreeze | errRetireClear | pwrUnitReset | pwrL2qWayon | pwrL2qOff | retrain | evlDrain
  | hifRingErrClear => exact (State.setupWrite_keeps (.refl s) ..).gives
  | ringEnable => exact (State.setupWrite_keeps (.refl s) ..).gives_if
  | ringDisable => exact (State.setupWrite_keeps (.refl s) ..).gives_unless
  | setupRegisterWrite => exact (keeps_ite (State.setupWrite_keeps (.refl s) ..) (State.vfWrite_keeps (.refl s) ..)).gives
  | genSetupErrRead => exact execGenSetupErrRead_keeps ..
  | stbEvtLostRead => exact execStbEvtLostRead_keeps ..
  | evlCounterRead => exact execEvlCounterRead_keeps ..
  | tbTimeLoRead => exact execTbTimeLoRead_keeps ..
  | bar2Read | bar2Write => exact (State.bar2Do_keeps (.refl s) ..).gives_if
  | vfBar2Access => exact execVfBar2Access_keeps ..
  | atomicop => exact (State.unsupported_keeps (.refl s) _).gives_if
  -- Resets, integrity and power
  | unitResetDone => exact execUnitResetDone_keeps ..
  | resetHoldEnd => exact execResetHoldEnd_keeps ..
  | storeDrainLimit => exact execStoreDrainLimit_keeps ..
  | wayOff => exact execWayOff_keeps ..
  | wayPowerUp => exact (State.setQuad_keeps (.refl s) ..).gives_if
  | xactTimeout => exact execXactTimeout_keeps ..
  | talonDumpDone => exact execTalonDumpDone_keeps ..
  | clusterRetire => exact execClusterRetire_keeps ..
  | correctedEccLimit => exact (State.suspect_keeps (.refl s) _).gives_if
  | sliceLost => exact execSliceLost_keeps ..
  | stackLost => exact execStackLost_keeps ..
  | controllerHang => exact (State.resetUnit_keeps (.refl s) ..).gives_if
  | rootPllUnlock => exact execRootPllUnlock_keeps ..
  | stewardFault | networkUncorrectable => exact (State.deviceFatal_keeps (.refl s) ..).gives
  | stewardWatchdog => exact execStewardWatchdog_keeps ..
  | dumpSectionTimeout => exact execDumpSectionTimeout_keeps ..
  | dumpTimeout => exact (keeps_ite (State.forceFailed_keeps (.refl s)) (State.endDump_keeps (.refl s))).gives_if
  | coldReset => exact execColdReset_keeps ..
  | warmReset => exact (State.boot_keeps (State.resetBase_keeps (.refl s)) _).gives_unless
  | perstDeassert => exact Keeps.gives_unless (.mkA (.refl s))
  | hotReset | dlDown | pfFlr | d3hotEntry => exact (State.hostReset_keeps (.refl s)).gives_if
  | vfFlr => exact (State.resetVf_keeps (.refl s) _).gives_if
  | vfEnableClear => exact execVfEnableClear_keeps ..
  | powerRemoval | supplyCutoff => exact (State.powerOff_keeps (.refl s)).gives
  | powerLoop | thermalSample | stackTemperature | selfRefresh => exact Keeps.gives_if (.mkA (.refl s))
  | clusterIdlePowerDown => exact execClusterIdlePowerDown_keeps ..
  -- The Evoir link
  | cablePresent => exact execCablePresent_keeps ..
  | cableRemoval => exact execCableRemoval_keeps ..
  | lock => exact execLock_keeps ..
  | preambleDetect => exact execPreambleDetect_keeps ..
  | correlatorNoiseFire => exact (State.setPort_keeps (.refl s) ..).gives_if
  | correlatorTimeout => exact (State.trainFails_keeps (.refl s) _).gives_if
  | probe => exact execProbe_keeps ..
  | exchange => exact execExchange_keeps ..
  | verify => exact execVerify_keeps ..
  | lanePllUnlock => exact (State.retrainPort_keeps (.refl s) _).gives_if
  | superframeEnd => exact execSuperframeEnd_keeps ..
  | loadPropose => exact execLoadPropose_keeps ..
  | loadAccept => exact execLoadAccept_keeps ..
  | codewordDecode => exact execCodewordDecode_keeps ..
  | holdExpiry => exact (State.sendNak_keeps (.refl s) _).gives_if
  | nak | resync => exact (State.replay_keeps (State.takeAck_keeps (.refl s) ..) _).gives_if
  | replayTimeout => exact (State.replay_keeps (.refl s) _).gives_if
  -- The Evoir fabric
  | hello p peer role => exact execHello_keeps s p peer role
  | forward => exact execForward_keeps ..
  | peerRead => exact execPeerRead_keeps ..
  | peerWrite => exact execPeerWrite_keeps ..
  | peerAtomic => exact execPeerAtomic_keeps ..
  | readRsp => exact execReadRsp_keeps ..
  | writeAck => exact execWriteAck_keeps ..
  | atomicRsp => exact execAtomicRsp_keeps ..
  | remoteRequestLimit => exact execRemoteRequestLimit_keeps ..
  | timeExchange => exact execTimeExchange_keeps ..
  | timePacket => exact execTimePacket_keeps ..
  | ringCut | ringJoin => exact (State.ringMoves_keeps (.refl s) ..).gives
  | perchIdle => exact execPerchIdle_keeps ..
  | roostIdle => exact execRoostIdle_keeps ..
  | sleepReq => exact execSleepReq_keeps ..
  | sleepAck p roost => exact execSleepAck_keeps s p roost
  | sleepConfirm => exact execSleepConfirm_keeps ..
  | sleepAbort => exact (State.resumePort_keeps (.refl s) _).gives_if
  | wakeRequest => exact execWakeRequest_keeps ..
  | stoop => exact (State.wakePort_keeps (.refl s) _).gives_if
  -- Management
  | setEndpointId => exact execSetEndpointId_keeps ..
  | getMctpVersionSupport => exact execGetMctpVersionSupport_keeps ..
  | getEndpointId | getMessageTypeSupport | getTid | getPldmTypes | getStatus =>
    exact Keeps.gives_if (State.reply_keeps (.refl s) ..)
  | getEndpointUuid | cancelUpdate | cancelUpdateComponent => exact Keeps.gives_if (State.reply_keeps (.mkA (.refl s)) ..)
  | unsupportedMessageType => exact Keeps.gives_if (keeps_ite (.refl s) (State.reply_keeps (.refl s) ..))
  | setTid => exact Keeps.gives_if (keeps_ite (State.reply_keeps (.refl s) ..) (State.reply_keeps (.mkA (.refl s)) ..))
  | getPldmVersion =>
    exact Keeps.gives_if (keeps_ite (State.reply_keeps (.mkA (.refl s)) ..) (State.reply_keeps (.refl s) ..))
  | getPldmCommands => exact Keeps.gives_if (keeps_ite (State.reply_keeps (.refl s) ..) (State.reply_keeps (.refl s) ..))
  | getPdrRepositoryInfo | setStateEffecterStates | getFruRecordTableMetadata | readIdentity =>
    exact Keeps.gives_if (State.reply_keeps (.refl s) ..)
  | getPdr | readErrorLog =>
    exact Keeps.gives_if (keeps_ite (State.reply_keeps (.refl s) ..) (State.reply_keeps (.refl s) ..))
  | getSensorReading => exact execGetSensorReading_keeps ..
  | getStateSensorReadings => exact execGetStateSensorReadings_keeps ..
  | powerCap =>
    exact Keeps.gives_if
      (keeps_ite (State.reply_keeps (State.setReg_keeps (.refl s) ..) ..) (State.reply_keeps (.refl s) ..))
  | retireClearEffecter =>
    exact Keeps.gives_if (keeps_ite (State.reply_keeps (.mkA (.refl s)) ..) (State.reply_keeps (.refl s) ..))
  | getNumericEffecterValue => exact execGetNumericEffecterValue_keeps ..
  | setEventReceiver | getFruRecordTable => exact Keeps.gives_if (State.reply_keeps (.mkA (.refl s)) ..)
  | firmwareTransfer =>
    exact Keeps.gives_if
      (keeps_ite (State.reply_keeps (State.setStaged_keeps (.refl s) ..) ..) (State.reply_keeps (.refl s) ..))
  | verifyComplete => exact execVerifyComplete_keeps ..
  | activateFirmware => exact execActivateFirmware_keeps ..

/-! ### The queue drains -/

/-- A step with a command at the front takes that command, and no other, off the queue. -/
theorem step_pops_front {s : State} {i : Instr} {rest : List Instr} (h : s.pending = i :: rest) :
    Gives (step s) (fun t => t.pending = rest) := by
  have front : step s = exec i { s with pending := rest } := by rw [step, h]
  rw [front]
  exact (exec_keeps i _).imp (fun _ k => k.queue)

theorem runs_succ_of_step {s t : State} (h : step s = .next t) (n : Nat) : runs (n + 1) s = runs n t := by
  rw [runs, h]

theorem runs_empties_queue (l : List Instr) (s : State) (h : s.pending = l) : ∃ t, runs l.length s = some t ∧ t.pending = [] := by
  induction l generalizing s with
  | nil => exact ⟨s, rfl, h⟩
  | cons i rest ih =>
    obtain ⟨t, hstep, ht⟩ := step_pops_front h
    rw [List.length_cons, runs_succ_of_step hstep]
    exact ih t ht

/-- Settles O6: every meaning keeps the queue (`exec_keeps`), so each step takes one command off it, by induction on the queue. -/
theorem commandsAnswerAndTheQueueDrains : Obligations.CommandsAnswerAndTheQueueDrains :=
  ⟨fun i s => (exec_keeps i s).imp (fun _ k => k.queue), fun s => runs_empties_queue s.pending s rfl⟩

end Sys2Proof.Machine
end

section
/-! SUPPORT. A lost slice posts its CAPACITY event, which also writes what the event queue held before; a JOB_STATE event of an ended job,
once written, frees the job's number (R41). So the job table is not kept (O46). -/
namespace Sys2Proof.Machine

/-- A job in DONE whose JOB_STATE event is not yet written. -/
def endedJob : Job :=
  { phase := .done, aspace := 0, minCl := 1, maxCl := 1, attempts := 1, fromCheckpoint := false, seed := 0, saveVa := 0
    attempt := 0, startStream := 0, aborted := false, attemptPending := false, stripping := false, base := none, saved := []
    snapshots := [], ended := [], ckpt := none, restore := none }

/-- A device in READY with `endedJob` as job 0, its JOB_STATE event queued, and room on the event ring of 16 slots, as after the write of
STB_EVT_CFG that enabled the ring. -/
def endedJobQueued : State :=
  { State.reset with
    card := { Card.reset with device := .ready }
    sched := { Sched.reset with
      jobs := [(0, some endedJob)]
      events := [State.reset.event 5 0 [(16, 0), (17, JobPhase.done.code), (18, 0)]] }
    setup := { Setup.reset with regs := [(ringCfgOff eventRing, 0x80000004)] } }

theorem endedJobQueued_holds : endedJobQueued.ready = true ∧ endedJobQueued.job 0 = some endedJob
    ∧ endedJobQueued.memory.slicesLost.getLsbD 0 = false ∧ endedJobQueued.memory.l2 = [] := by
  decide +kernel

/-- The loss of slice 0 writes the queued event, which frees job 0. -/
theorem sliceLost_frees_endedJob : Gives (exec (.sliceLost 0 true 2) endedJobQueued) (fun t => t.job 0 = none) :=
  ⟨_, rfl, by decide +kernel⟩

/-- Refutes O46: SLICE_LOST with its tags read and no dirty line keeps `sched.jobs` in every state, the statement says; but in
`endedJobQueued` its CAPACITY event goes out behind the JOB_STATE event of a job in DONE, whose number is free once that event is
written (R41). -/
theorem not_lossesAreSettled : ¬ Obligations.LossesAreSettled := by
  unfold Obligations.LossesAreSettled
  intro h
  obtain ⟨ready, job, slice, l2⟩ := endedJobQueued_holds
  obtain ⟨-, -, -, slices, -⟩ := h endedJobQueued ready
  obtain ⟨t, ht, -, kept⟩ := slices 0 true 2 slice
  obtain ⟨-, -, jobs, -⟩ := kept rfl (by simp [l2])
  obtain ⟨u, hu, freed⟩ := sliceLost_frees_endedJob
  obtain rfl : t = u := Host.Outcome.next.inj (ht.symm.trans hu)
  have same : t.job 0 = endedJobQueued.job 0 := by simp only [State.job, jobs]
  rw [freed, job] at same
  contradiction
end Sys2Proof.Machine
end

section
/-! SUPPORT. BAR2 accesses: what they leave at the point of coherence, and that a VF held in Talon stays held while the jobs of its
streams are aborted (R303, R411, R414). -/
namespace Sys2Proof.Machine

/-! ### The L2 transactions of a span leave the bytes of memory and what was sent -/

/-- Two states agree on the bytes of device memory, on what was sent outward, and on the masters in Talon. -/
structure SameBytes (s t : State) : Prop where
  mem : t.memory.mem = s.memory.mem
  out : t.out = s.out
  talon : t.integ.talon = s.integ.talon

theorem SameBytes.refl (s : State) : SameBytes s s := ⟨rfl, rfl, rfl⟩

theorem SameBytes.trans {s t u : State} (h : SameBytes s t) (k : SameBytes t u) : SameBytes s u :=
  ⟨k.mem.trans h.mem, k.out.trans h.out, k.talon.trans h.talon⟩

theorem SameBytes.foldl {α : Type} {f : State → α → State} (hf : ∀ s x, SameBytes s (f s x)) (l : List α) (s : State) :
    SameBytes s (l.foldl f s) :=
  List.foldlRecOn l f (.refl s) (fun _ h x _ => h.trans (hf _ x))

theorem State.l2Drop_sameBytes (s : State) (host : Option Nat) (line : Nat) : SameBytes s (s.l2Drop host line) := ⟨rfl, rfl, rfl⟩
theorem State.l2Touch_sameBytes (s : State) (x : L2Line) : SameBytes s (s.l2Touch x) := ⟨rfl, rfl, rfl⟩
theorem State.wakeStack_sameBytes (s : State) (line : Nat) : SameBytes s (s.wakeStack line) := ⟨rfl, rfl, rfl⟩

theorem State.l2Alloc_sameBytes (s : State) (host : Option Nat) (line : Nat) (dirty : Bool) (bytes : Line) :
    SameBytes s (s.l2Alloc host line dirty bytes) := by
  unfold State.l2Alloc
  dsimp only
  split
  · exact ⟨rfl, rfl, rfl⟩
  · split <;> exact ⟨rfl, rfl, rfl⟩

theorem State.l2Fill_sameBytes (s : State) (host : Option Nat) (line : Nat) (bytes : Line) : SameBytes s (s.l2Fill host line bytes) := by
  unfold State.l2Fill
  split
  · exact .refl s
  · exact s.l2Alloc_sameBytes ..

theorem State.logCorrected_sameBytes (s : State) (e : LogEntry) : SameBytes s (s.logCorrected e) := by
  unfold State.logCorrected
  split <;> exact ⟨rfl, rfl, rfl⟩

theorem State.correctLine_sameBytes (s : State) (line : Nat) : SameBytes s (s.correctLine line) := by
  unfold State.correctLine
  split
  · exact .refl s
  · refine SameBytes.trans ?_ (.foldl (fun s m => s.logCorrected_sameBytes (s.correctedEntry line m)) _ _)
    exact ⟨rfl, rfl, rfl⟩

theorem State.l2Read_sameBytes (s : State) (line : Nat) (cacheable : Bool) : SameBytes s (s.l2Read line cacheable) := by
  have corrected := s.correctLine_sameBytes line
  unfold State.l2Read
  dsimp only
  split
  · exact corrected.trans (State.l2Touch_sameBytes ..)
  · split
    · exact corrected.trans ((State.wakeStack_sameBytes ..).trans (State.l2Fill_sameBytes ..))
    · exact corrected.trans (State.wakeStack_sameBytes ..)

theorem State.l2Write_sameBytes (s : State) (line : Nat) (cacheable : Bool) : SameBytes s (s.l2Write line cacheable) := by
  unfold State.l2Write
  split
  · split
    · exact s.l2Drop_sameBytes ..
    · exact s.l2Touch_sameBytes ..
  · split
    · exact (s.wakeStack_sameBytes line).trans (State.l2Alloc_sameBytes ..)
    · exact s.wakeStack_sameBytes line

theorem State.deviceRead_sameBytes (s : State) (pa n : Nat) (cacheable : Bool) : SameBytes s (s.deviceRead pa n cacheable).2 :=
  .foldl (fun s l => s.l2Read_sameBytes l cacheable) _ _

theorem State.deviceWrite_transactions (s : State) (pa : Nat) (bytes : List Byte) (cacheable : Bool) :
    SameBytes s ((linesOf pa bytes.length).foldl (fun s l => s.l2Write l cacheable) s) :=
  .foldl (fun s l => s.l2Write_sameBytes l cacheable) _ _

theorem State.deviceWrite_mem (s : State) (pa : Nat) (bytes : List Byte) (cacheable : Bool) :
    (s.deviceWrite pa bytes cacheable).memory.mem = Mem.writeBytes s.memory.mem pa bytes :=
  congrArg (Mem.writeBytes · pa bytes) (s.deviceWrite_transactions pa bytes cacheable).mem

theorem State.deviceWrite_out (s : State) (pa : Nat) (bytes : List Byte) (cacheable : Bool) :
    (s.deviceWrite pa bytes cacheable).out = s.out := (s.deviceWrite_transactions pa bytes cacheable).out

@[simp] theorem State.deviceWrite_talon (s : State) (pa : Nat) (bytes : List Byte) (cacheable : Bool) :
    (s.deviceWrite pa bytes cacheable).integ.talon = s.integ.talon := (s.deviceWrite_transactions pa bytes cacheable).talon

/-! ### What leaves Talon as it is -/

theorem talon_foldl {α : Type} {f : State → α → State} (hf : ∀ s x, (f s x).integ.talon = s.integ.talon) (l : List α) (s : State) :
    (l.foldl f s).integ.talon = s.integ.talon :=
  List.foldlRecOn (motive := fun t : State => t.integ.talon = s.integ.talon) l f rfl (fun t h x _ => (hf t x).trans h)

theorem integ_foldl {α : Type} {f : State → α → State} (hf : ∀ s x, (f s x).integ = s.integ) (l : List α) (s : State) :
    (l.foldl f s).integ = s.integ :=
  List.foldlRecOn (motive := fun t : State => t.integ = s.integ) l f rfl (fun t h x _ => (hf t x).trans h)

@[simp] theorem State.sendMsix_integ (s : State) (f v : Nat) : (s.sendMsix f v).integ = s.integ := by
  unfold State.sendMsix
  dsimp only
  split <;> rfl

@[simp] theorem State.signalRing_integ (s : State) (r : RingId) : (s.signalRing r).integ = s.integ := by
  simp [State.signalRing]

@[simp] theorem State.putRecord_integ (s : State) (n : JobId) (x : Record) : (s.putRecord n x).integ = s.integ := by
  unfold State.putRecord
  dsimp only
  split <;> simp

@[simp] theorem State.freeEndedJob_integ (s : State) (e : Event) : (s.freeEndedJob e).integ = s.integ := by
  unfold State.freeEndedJob
  split <;> rfl

theorem State.drainEvents_integ (n : Nat) (s : State) : (s.drainEvents n).integ = s.integ := by
  induction n generalizing s with
  | zero => rfl
  | succ n ih =>
    unfold State.drainEvents
    split
    · rfl
    · split
      · rw [ih, State.freeEndedJob_integ, State.signalRing_integ]
        split <;> rfl
      · rfl

@[simp] theorem State.postEvent_integ (s : State) (e : Event) : (s.postEvent e).integ = s.integ := by
  unfold State.postEvent State.flushEvents
  dsimp only
  split
  · rfl
  · split
    · split
      · rw [State.drainEvents_integ]
      · rfl
    · split
      · rw [State.drainEvents_integ]
      · split <;> rfl

@[simp] theorem State.postJobState_integ (s : State) (j : JobId) (p : JobPhase) (attempt : BitVec 4) :
    (s.postJobState j p attempt).integ = s.integ := by
  simp [State.postJobState]

theorem State.flushFuel_integ (n : Nat) (s : State) (st : StreamId) : (s.flushFuel n st).integ = s.integ := by
  induction n generalizing s with
  | zero => rfl
  | succ n ih =>
    unfold State.flushFuel
    dsimp only
    repeat' split
    all_goals simp [ih]

@[simp] theorem State.flushStream_integ (s : State) (st : StreamId) : (s.flushStream st).integ = s.integ := s.flushFuel_integ _ st

@[simp] theorem State.modStream_integ (s : State) (st : StreamId) (f : Stream → Stream) : (s.modStream st f).integ = s.integ := rfl
@[simp] theorem State.modDesc_integ (s : State) (st : StreamId) (idx : W32) (f : Desc → Desc) : (s.modDesc st idx f).integ = s.integ := rfl

@[simp] theorem State.postCause_integ (s : State) (st : StreamId) (idx : Option W32) (status detail : Nat) :
    (s.postCause st idx status detail).integ = s.integ := by
  unfold State.postCause State.postNotice
  split <;> simp

@[simp] theorem State.settleStream_integ (s : State) (st : StreamId) : (s.settleStream st).integ = s.integ := by
  unfold State.settleStream
  dsimp only
  repeat' split
  all_goals rfl

@[simp] theorem State.settleJob_integ (s : State) (j : JobId) : (s.settleJob j).integ = s.integ := by
  unfold State.settleJob
  dsimp only
  split
  · split
    · rfl
    · split
      · exact integ_foldl (fun s st => s.settleStream_integ st) _ _
      · rfl
  · rfl

@[simp] theorem State.finish_integ (s : State) (st : StreamId) (idx : W32) (status detail : Nat) :
    (s.finish st idx status detail).integ = s.integ := by
  simp [State.finish, State.finishAt, State.settle, State.markFinished]

@[simp] theorem State.restartStream_integ (s : State) (x : Job) (st : StreamId) : (s.restartStream x st).integ = s.integ := by
  simp [State.restartStream]

@[simp] theorem State.voidFaults_integ (s : State) (p : FaultInfo → Bool) : (s.voidFaults p).integ = s.integ := rfl
@[simp] theorem State.forget_integ (s : State) (p : PeerReq → Bool) : (s.forget p).integ = s.integ := rfl

@[simp] theorem State.setEntries_integ (s : State) (a : Fin 1024) (es : List RangeEntry) : (s.setEntries a es).integ = s.integ := rfl
@[simp] theorem State.flushRanges_integ (s : State) (a : Fin 1024) : (s.flushRanges a).integ = s.integ := rfl

theorem State.revertMigrate_integ (s : State) (a : Fin 1024) (st : StreamId) (d : Desc) : (s.revertMigrate a st d).integ = s.integ := by
  unfold State.revertMigrate
  dsimp only
  split <;> rfl

@[simp] theorem State.writeMem_integ (s : State) (pa : Nat) (bytes : List Byte) : (s.writeMem pa bytes).integ = s.integ := by
  rw [State.writeMem]
@[simp] theorem State.writeSeal_integ (s : State) (pa : Nat) : (s.writeSeal pa).integ = s.integ := by
  rw [State.writeSeal, State.writeMem_integ]

/-- A store that is sealed again where its block was. -/
theorem State.resealed_talon (s : State) (sealed : Bool) (pa : Nat) :
    (if sealed then s.writeSeal pa else s).integ.talon = s.integ.talon := by
  split
  · rw [State.writeSeal_integ]
  · rfl

theorem State.kvClear_talon (s : State) (a : Fin 1024) (d : Desc) : (s.kvClear a d).integ.talon = s.integ.talon := by
  simp only [State.kvClear]
  split
  · rfl
  · split
    · split
      · split
        · rw [State.writeMem_integ, State.resealed_talon, State.deviceWrite_talon]
        · rw [State.resealed_talon, State.deviceWrite_talon]
      · rw [State.resealed_talon, State.deviceWrite_talon]
    · rfl

theorem State.revertDesc_talon (s : State) (a : Fin 1024) (st : StreamId) (d : Desc) : (s.revertDesc a st d).integ.talon = s.integ.talon := by
  unfold State.revertDesc
  split
  · rw [State.revertMigrate_integ]
  · split
    · exact s.kvClear_talon a d
    · rfl

theorem State.abortStream_talon (s : State) (j : JobId) (st : StreamId) : (s.abortStream j st).integ.talon = s.integ.talon := by
  simp [State.abortStream, talon_foldl (fun s d => State.revertDesc_talon s _ st d)]

theorem State.suspectLog_talon (s : State) (c : ClusterId) (e : LogEntry) : (s.suspectLog c e).integ.talon = s.integ.talon := by
  unfold State.suspectLog State.suspect State.addLog
  dsimp only
  split <;> rfl

theorem State.chargeWaiting_talon (s : State) (c : ClusterId) : (s.chargeWaiting c).integ.talon = s.integ.talon := by
  refine talon_foldl (fun s r => ?_) _ _
  split
  · split
    · exact s.suspectLog_talon ..
    · rfl
  · rfl

theorem State.releaseCluster_talon (s : State) (c : ClusterId) : (s.releaseCluster c).integ.talon = s.integ.talon :=
  s.chargeWaiting_talon c

/-! ### A master held and not dumped stays held when a job ends (R305) -/

theorem State.startReset_talon (s : State) (kind number : Nat) : (s.startReset kind number).integ.talon = s.integ.talon := by
  unfold State.startReset
  dsimp only
  split
  · split <;> rfl
  · rfl

/-- A release takes its master out of Talon, and no other. -/
theorem State.unfreeze_talon (s : State) (k : MasterKind) (n : Nat) : (s.unfreeze k n).integ.talon
    = s.integ.talon.filter (fun f => !(decide (f.kind = k) && decide (f.number.toNat = n))) := by
  unfold State.unfreeze
  dsimp only
  cases k with
  | kestrel | harrier | hearth =>
    dsimp only
    split
    · rfl
    · exact State.startReset_talon ..
  | mover | vf => exact State.startReset_talon ..
  | evoirIn => rfl

/-- A master is held in Talon, and its dump is not written yet. -/
def State.HeldUndumped (s : State) (k : MasterKind) (n : Nat) : Prop :=
  s.frozen k n = true ∧ ∀ g ∈ s.integ.talon, g.kind = k → g.number.toNat = n → g.dumped = false

section
variable {s t : State} {k : MasterKind} {n : Nat}

theorem State.HeldUndumped.of_talon (h : s.HeldUndumped k n) (e : t.integ.talon = s.integ.talon) : t.HeldUndumped k n := by
  simpa only [State.HeldUndumped, State.frozen, e] using h

theorem State.HeldUndumped.foldl {α : Type} {f : State → α → State} {l : List α}
    (hf : ∀ s, ∀ x ∈ l, s.HeldUndumped k n → (f s x).HeldUndumped k n) (h : s.HeldUndumped k n) : (l.foldl f s).HeldUndumped k n :=
  List.foldlRecOn l f h (fun s h x hx => hf s x hx h)

/-- Talon's entries may be marked for release: who is held and dumped is as before. -/
theorem State.HeldUndumped.marked {m : Frozen → Frozen}
    (hm : ∀ g, (m g).kind = g.kind ∧ (m g).number = g.number ∧ (m g).dumped = g.dumped) (h : s.HeldUndumped k n) :
    ({ s with integ := { s.integ with talon := s.integ.talon.map m } } : State).HeldUndumped k n := by
  obtain ⟨held, undumped⟩ := h
  refine ⟨?_, fun g hg hk hn => ?_⟩
  · simpa [State.frozen, hm] using held
  · obtain ⟨g, mem, rfl⟩ := List.mem_map.mp hg
    obtain ⟨kind, number, dumped⟩ := hm g
    rw [kind] at hk
    rw [number] at hn
    rw [dumped]
    exact undumped g mem hk hn

/-- The release of another master leaves it held. -/
theorem State.HeldUndumped.unfreeze {k' : MasterKind} {n' : Nat} (other : ¬(k = k' ∧ n = n')) (h : s.HeldUndumped k n) :
    (s.unfreeze k' n').HeldUndumped k n := by
  obtain ⟨held, undumped⟩ := h
  simp only [State.frozen, List.any_eq_true, Bool.and_eq_true, decide_eq_true_eq] at held
  obtain ⟨g, hg, hk, hn⟩ := held
  refine ⟨?_, fun g hg => undumped g ?_⟩
  · simp only [State.frozen, State.unfreeze_talon, List.any_eq_true, List.mem_filter]
    exact ⟨g, ⟨hg, by simpa only [hk, hn, Bool.not_eq_true', Bool.and_eq_false_iff, decide_eq_false_iff_not, ← Decidable.not_and_iff_not_or_not] using other⟩, by simp [hk, hn]⟩
  · rw [State.unfreeze_talon] at hg
    exact (List.mem_filter.mp hg).1

/-- The release of masters that are dumped, with others marked for theirs, leaves it held (R305). -/
theorem State.HeldUndumped.releaseDumped {m : Frozen → Frozen}
    (hm : ∀ g, (m g).kind = g.kind ∧ (m g).number = g.number ∧ (m g).dumped = g.dumped) (p : Frozen → Bool) (h : s.HeldUndumped k n) :
    ((s.integ.talon.filter (fun f => p f && f.dumped)).foldl (fun (s : State) f => s.unfreeze f.kind f.number.toNat)
      { s with integ := { s.integ with talon := s.integ.talon.map m } }).HeldUndumped k n := by
  refine State.HeldUndumped.foldl (fun s' f hf h' => h'.unfreeze ?_) (h.marked hm)
  rintro ⟨hk, hn⟩
  obtain ⟨mem, dumped⟩ := List.mem_filter.mp hf
  simp [h.2 f mem hk.symm hn.symm] at dumped

theorem State.HeldUndumped.endJob (h : s.HeldUndumped k n) (j : JobId) (p : JobPhase) : (s.endJob j p).HeldUndumped k n := by
  unfold State.endJob
  split
  · exact h
  · next x hx =>
    dsimp only
    have released := State.HeldUndumped.releaseDumped (m := fun f => if f.job = some j ∧ f.dumped = false then { f with release := true } else f)
      (fun g => by split <;> simp) (fun f => decide (f.job = some j)) (s := s.setJob j (some { x with phase := p, attemptPending := false }))
      (h.of_talon rfl)
    refine released.of_talon ?_
    rw [State.postJobState_integ, integ_foldl (fun s st => State.modStream_integ s st _),
      integ_foldl (fun s st => integ_foldl (fun s d => ?_) (s.stream st).descs s)]
    split
    · exact s.finish_integ ..
    · rfl

/-- The contexts and descriptors of an attempt are discarded. -/
theorem State.HeldUndumped.discardAttempt (h : s.HeldUndumped k n) (j : JobId) (x : Option Job) (cs : List ClusterId)
    (sts : State → List StreamId) (p : FaultInfo → Bool) (q : PeerReq → Bool) :
    let s2 := (((cs.foldl (fun s c => s.releaseCluster c) s).setJob j x).voidFaults p).forget q
    ((sts s2).foldl (fun s st => s.abortStream j st) s2).HeldUndumped k n :=
  .foldl (fun s st _ h => h.of_talon (s.abortStream_talon j st))
    (State.HeldUndumped.of_talon (.foldl (fun s c _ h => h.of_talon (s.releaseCluster_talon c)) h) rfl)

theorem State.HeldUndumped.continueAbort (h : s.HeldUndumped k n) (j : JobId) : (s.continueAbort j).HeldUndumped k n := by
  unfold State.continueAbort
  split
  · exact h
  · next x hx =>
    have discarded := h.discardAttempt j (some { x with saved := [] }) (s.jobClusters j) (fun s => s.jobStreams j)
      (fun f => decide (f.job = j)) (fun r => decide (r.job = j))
    split
    · dsimp only at discarded ⊢
      split
      · exact discarded
      · split
        · exact .foldl (fun s st _ h => h.of_talon (by rw [State.restartStream_integ])) (discarded.of_talon rfl)
        · exact discarded.endJob j .failed
    · exact h

theorem State.HeldUndumped.abortJob (h : s.HeldUndumped k n) (j : JobId) : (s.abortJob j).HeldUndumped k n := by
  unfold State.abortJob
  split
  · exact h
  · split
    · exact State.HeldUndumped.continueAbort (s := s.setJob j _) (h.of_talon rfl) j
    · exact h

theorem State.HeldUndumped.abortStreams (h : s.HeldUndumped k n) (p : Stream → Bool) (status detail : Nat) :
    (s.abortStreams p status detail).HeldUndumped k n := by
  refine State.HeldUndumped.foldl (fun s j _ h => ?_) h
  split
  · exact State.HeldUndumped.abortJob (h.of_talon (by rw [State.postCause_integ])) j
  · exact h

end

/-- A master that was not held is, once it is taken into Talon, and not dumped (R303). -/
theorem State.holdMaster_held {s : State} {k : MasterKind} {n : Nat} (free : s.frozen k n = false) (hn : n < 256) (job : Option JobId)
    (cause : Nat) : (s.holdMaster k n job cause).HeldUndumped k n := by
  have number : (BitVec.ofNat 8 n).toNat = n := Nat.mod_eq_of_lt hn
  unfold State.holdMaster
  rw [if_neg (by simp [free])]
  refine State.HeldUndumped.of_talon (s := { s with integ := { s.integ with talon := s.integ.talon ++ [_] } }) ⟨?_, fun g hg hk hn => ?_⟩
    (by rw [State.postEvent_integ])
  · simp [State.frozen, number]
  · rcases List.mem_append.mp hg with old | new
    · simp only [State.frozen, List.any_eq_false] at free
      exact absurd (by simp [hk, hn]) (free g old)
    · rw [List.mem_singleton.mp new]

/-- A VF that is frozen stays so while the jobs of its streams are aborted (R303). -/
theorem State.freezeVf_frozen (s : State) (f : FunctionId) : (s.freezeVf f).frozen .vf f.val = true := by
  unfold State.freezeVf
  split
  · assumption
  · next free => exact ((State.holdMaster_held (by simpa using free) (by omega) none fcVfAccess).abortStreams ..).1

/-! ### What BAR2 does with an access (R411, R414, R416) -/

section
variable {s : State} {f : FunctionId} {off : Nat}

/-- An Unsupported Request is answered, recorded in the function's AER status, and changes nothing else (R416). -/
theorem State.unsupported_spec (s : State) (f : FunctionId) : (s.unsupported f).out = s.out ++ [.unsupportedRequest]
    ∧ (s.unsupported f).aerStatus f .unsupportedRequest = true
    ∧ (∀ e, e ≠ (f, AerError.unsupportedRequest) → (e ∈ (s.unsupported f).host.aer ↔ e ∈ s.host.aer))
    ∧ { s.unsupported f with out := s.out, host := { (s.unsupported f).host with aer := s.host.aer } } = s := by
  unfold State.unsupported State.aerReport
  split
  · next reported => exact ⟨rfl, reported, fun _ _ => .rfl, rfl⟩
  · exact ⟨rfl, by simp [State.aerStatus], fun e other => by simp [State.emit, other], rfl⟩

/-- A discarded write is recorded with KIND 6, its function and its offset, and changes neither memory nor what was sent (R418). -/
theorem State.hostError_discards (s : State) (f : FunctionId) (off : Nat) : (s.hostError f.val off 6).host.errKind = 6
    ∧ (s.hostError f.val off 6).host.errFunction.toNat = f.val ∧ (s.hostError f.val off 6).host.errAddr = BitVec.ofNat 64 off
    ∧ (s.hostError f.val off 6).memory = s.memory ∧ (s.hostError f.val off 6).out = s.out :=
  ⟨rfl, Nat.mod_eq_of_lt f.isLt, rfl, rfl, rfl⟩

theorem State.bar2Do_recovery (h : s.card.device = .recovery) (f : FunctionId) (off : Nat) (a : VfAccess) :
    s.bar2Do f off a = s.unsupported f := by
  cases a <;> simp [State.bar2Do, h]

/-- An access outside device DRAM. -/
theorem State.bar2Do_outside (live : s.card.device ≠ .recovery) {a : VfAccess}
    (h : s.dramSpan (s.bar2Base f + off) (bar2Size a) = false) : s.bar2Do f off a
      = match a with
        | .read _ => s.unsupported f
        | .write _ => s.hostError f.val off 6 := by
  cases a <;> simp [State.bar2Do, live, h]

/-- A VF that touches a reserved area is held. -/
theorem State.bar2Do_vf_reserved (live : s.card.device ≠ .recovery) (vf : f ≠ 0) {a : VfAccess}
    (h : s.dramSpan (s.bar2Base f + off) (bar2Size a) = true)
    (reserved : s.meetsReserved (s.bar2Base f + off) (bar2Size a) true = true) : s.bar2Do f off a = s.freezeVf f := by
  simp [State.bar2Do, live, h, vf, reserved]

/-- Where no VF touches a reserved area, what a unit under reset serves waits (R445), a read is done, and a write of a reserved area is
discarded. -/
theorem State.bar2Do_dram (live : s.card.device ≠ .recovery) {a : VfAccess}
    (h : s.dramSpan (s.bar2Base f + off) (bar2Size a) = true)
    (free : f = 0 ∨ s.meetsReserved (s.bar2Base f + off) (bar2Size a) true = false) : s.bar2Do f off a
      = if (s.fencedUnit (s.bar2Base f + off)).isSome then { s with host := { s.host with b2Held := s.host.b2Held ++ [⟨f, off, a⟩] } }
        else match a with
        | .read n => (s.deviceRead (s.bar2Base f + off) n false).2.emit
            (.bar2Data (s.readMem (s.bar2Base f + off) n) (s.spanPoisoned (s.bar2Base f + off) n))
        | .write bs => if s.meetsReserved (s.bar2Base f + off) bs.length true then s.hostError f.val off 6
            else s.deviceWrite (s.bar2Base f + off) bs false := by
  have open_ : ¬(f ≠ 0 ∧ s.meetsReserved (s.bar2Base f + off) (bar2Size a) true = true) := by
    rcases free with pf | free
    · simp [pf]
    · simp [free]
  simp only [State.bar2Do, live, h, open_]
  cases s.fencedUnit (s.bar2Base f + off) <;> cases a <;> rfl

/-- A read of live DRAM answers the bytes at the point of coherence and leaves them. -/
theorem State.bar2Do_reads {n : Nat} (live : s.card.device ≠ .recovery) (h : s.dramSpan (s.bar2Base f + off) n = true)
    (free : f = 0 ∨ s.meetsReserved (s.bar2Base f + off) n true = false) (awake : s.fencedUnit (s.bar2Base f + off) = none) :
    (s.bar2Do f off (.read n)).out
      = s.out ++ [.bar2Data (s.readMem (s.bar2Base f + off) n) (s.spanPoisoned (s.bar2Base f + off) n)]
    ∧ (s.bar2Do f off (.read n)).memory.mem = s.memory.mem := by
  have kept := s.deviceRead_sameBytes (s.bar2Base f + off) n false
  rw [State.bar2Do_dram live h free]
  simp [awake, State.emit, kept.out, kept.mem]

/-- A write of live DRAM outside the reserved areas writes exactly its bytes. -/
theorem State.bar2Do_writes {bs : List Byte} (live : s.card.device ≠ .recovery)
    (h : s.dramSpan (s.bar2Base f + off) bs.length = true) (free : s.meetsReserved (s.bar2Base f + off) bs.length true = false)
    (awake : s.fencedUnit (s.bar2Base f + off) = none) (wf : Mem.wf s.memory.mem = true) :
    (s.bar2Do f off (.write bs)).readMem (s.bar2Base f + off) bs.length = bs
    ∧ SameOutside s.memory.mem (s.bar2Do f off (.write bs)).memory.mem (s.bar2Base f + off) bs.length
    ∧ (s.bar2Do f off (.write bs)).out = s.out := by
  have written : s.bar2Do f off (.write bs) = s.deviceWrite (s.bar2Base f + off) bs false := by
    rw [State.bar2Do_dram live h (.inr free)]
    simp [awake, free]
  rw [written, State.readMem, State.deviceWrite_mem, State.deviceWrite_out]
  exact ⟨Mem.readBytes_writeBytes _ _ _ wf, fun b hb => Mem.read_writeBytes_out _ _ _ _ hb, rfl⟩

/-- An access that meets a unit under reset waits, and changes nothing but the list of those that wait (R445). -/
theorem State.bar2Do_waits {a : VfAccess} (live : s.card.device ≠ .recovery)
    (h : s.dramSpan (s.bar2Base f + off) (bar2Size a) = true)
    (free : f = 0 ∨ s.meetsReserved (s.bar2Base f + off) (bar2Size a) true = false)
    (fenced : s.fencedUnit (s.bar2Base f + off) ≠ none) :
    s.bar2Do f off a = { s with host := { s.host with b2Held := s.host.b2Held ++ [⟨f, off, a⟩] } } := by
  rw [State.bar2Do_dram live h free, if_pos (Option.isSome_iff_ne_none.mpr fenced)]

/-! ### The commands -/

theorem exec_bar2Read (answers : s.hostAnswers = true) (off : BitVec 36) (n : Nat) :
    exec (.bar2Read off n) s = .next (s.bar2Do 0 off.toNat (.read n)) := by
  show execBar2Read off n s = _
  simp [execBar2Read, answers]

theorem exec_bar2Write (answers : s.hostAnswers = true) (off : BitVec 36) (bytes : List Byte) :
    exec (.bar2Write off bytes) s = .next (s.bar2Do 0 off.toNat (.write bytes)) := by
  show execBar2Write off bytes s = _
  simp [execBar2Write, answers]

theorem exec_atomicop (answers : s.hostAnswers = true) : exec .atomicop s = .next (s.unsupported 0) := by
  show execAtomicop s = _
  simp [execAtomicop, answers]

/-- A VF's access does nothing in RECOVERY. -/
theorem exec_vfBar2Access_recovery (h : s.card.device = .recovery) (f : FunctionId) (off : BitVec 30) (a : VfAccess) :
    exec (.vfBar2Access f off a) s = .next s := by
  show execVfBar2Access f off a s = _
  simp [execVfBar2Access, h]

/-- A held VF is answered Unsupported Request (R303). -/
theorem exec_vfBar2Access_held (answers : s.hostAnswers = true) (live : s.card.device ≠ .recovery) (held : s.frozen .vf f.val = true)
    (off : BitVec 30) (a : VfAccess) : exec (.vfBar2Access f off a) s = .next (s.unsupported f) := by
  show execVfBar2Access f off a s = _
  simp [execVfBar2Access, answers, live, held]

/-- An access that leaves its window holds the VF, while a stack is trained (R22, R414). -/
theorem exec_vfBar2Access_beyond (answers : s.hostAnswers = true) (live : s.card.device ≠ .recovery)
    (free : s.frozen .vf f.val = false) (trained : s.memory.stacksTrained ≠ 0) {off : BitVec 30} {a : VfAccess}
    (beyond : 4096 * (s.reg (0x30108 + 16 * f.val)).toNat < off.toNat + bar2Size a) :
    exec (.vfBar2Access f off a) s = .next (s.freezeVf f) := by
  show execVfBar2Access f off a s = _
  simp [execVfBar2Access, answers, live, free, show ¬s.memory.stacksTrained = 0#6 from trained, beyond]

/-- Any other access of a VF goes to memory. -/
theorem exec_vfBar2Access_within (answers : s.hostAnswers = true) (live : s.card.device ≠ .recovery)
    (free : s.frozen .vf f.val = false) {off : BitVec 30} {a : VfAccess}
    (within : s.memory.stacksTrained = 0 ∨ off.toNat + bar2Size a ≤ 4096 * (s.reg (0x30108 + 16 * f.val)).toNat) :
    exec (.vfBar2Access f off a) s = .next (s.bar2Do f off.toNat a) := by
  have stays : ¬(s.memory.stacksTrained ≠ 0 ∧ 4096 * (s.reg (0x30108 + 16 * f.val)).toNat < off.toNat + bar2Size a) := by
    rintro ⟨trained, beyond⟩
    rcases within with untrained | within
    · exact trained untrained
    · omega
  show execVfBar2Access f off a s = _
  simp only [execVfBar2Access, answers, live, free, stays]
  rfl

end

/-- Settles O58, by the case of `bar2Do` that each clause names. -/
theorem bar2ReachesDeviceMemory : Obligations.Bar2ReachesDeviceMemory := by
  unfold Obligations.Bar2ReachesDeviceMemory
  intro s off voff f n bytes answers vf live ur reads writes discards waits pa va window rd wr vr vw inside
  have pf_base : s.bar2Base 0 + off.toNat = pa := by simp [State.bar2Base, pa]
  have vf_base : s.bar2Base f + voff.toNat = va := by simp [State.bar2Base, va, vf]
  have served (h : live) : s.card.device ≠ .recovery := by rcases h with h | h <;> simp [h]
  have rd_eq : rd = .next (s.bar2Do 0 off.toNat (.read n)) := exec_bar2Read answers off n
  have wr_eq : wr = .next (s.bar2Do 0 off.toNat (.write bytes)) := exec_bar2Write answers off bytes
  have is_ur {g : FunctionId} {o : Result} (e : o = .next (s.unsupported g)) : ur g o := ⟨_, e, s.unsupported_spec g⟩
  have is_discard {g : FunctionId} {at_ : Nat} {o : Result} (e : o = .next (s.hostError g.val at_ 6)) : discards g.val at_ o :=
    ⟨_, e, s.hostError_discards g at_⟩
  refine ⟨is_ur (exec_atomicop answers), fun recovery => ⟨?_, ?_, ?_, ?_⟩, fun h untrained free outR outW => ⟨?_, ?_⟩,
    fun h => ⟨fun out => ?_, fun span awake => ?_, fun span fenced => ?_, fun out => ?_, fun span awake => ⟨fun hit => ?_, fun miss wf => ?_⟩⟩,
    fun h held => ⟨?_, ?_⟩,
    fun h free trained => ⟨fun beyond => ⟨?_, s.freezeVf_frozen f⟩, fun beyond => ?_, fun inW span hit => ?_, fun inW span miss awake => ?_,
      fun inW span miss awake wf => ?_⟩⟩
  · exact is_ur (rd_eq.trans (by rw [State.bar2Do_recovery recovery]))
  · exact is_ur (wr_eq.trans (by rw [State.bar2Do_recovery recovery]))
  · exact exec_vfBar2Access_recovery recovery ..
  · exact exec_vfBar2Access_recovery recovery ..
  · exact is_ur ((exec_vfBar2Access_within answers (served h) free (.inl untrained)).trans
      (by rw [State.bar2Do_outside (served h) (vf_base ▸ outR)]))
  · exact is_discard ((exec_vfBar2Access_within answers (served h) free (.inl untrained)).trans
      (by rw [State.bar2Do_outside (served h) (vf_base ▸ outW)]))
  · exact is_ur (rd_eq.trans (by rw [State.bar2Do_outside (served h) (pf_base ▸ out)]))
  · exact ⟨_, rd_eq, pf_base ▸ State.bar2Do_reads (served h) (pf_base ▸ span) (.inl rfl) (pf_base ▸ awake)⟩
  · rw [rd_eq, State.bar2Do_waits (served h) (pf_base ▸ span) (.inl rfl) (pf_base ▸ fenced)]
    exact ⟨_, rfl, ⟨_, rfl, rfl, rfl, rfl⟩, rfl, rfl⟩
  · exact is_discard (g := 0) (wr_eq.trans (by rw [State.bar2Do_outside (served h) (pf_base ▸ out)]))
  · refine is_discard (g := 0) (wr_eq.trans ?_)
    rw [State.bar2Do_dram (served h) (pf_base ▸ span) (.inl rfl)]
    simp [pf_base, awake, hit]
  · exact ⟨_, wr_eq, pf_base ▸ State.bar2Do_writes (served h) (pf_base ▸ span) (pf_base ▸ miss) (pf_base ▸ awake) wf⟩
  · exact is_ur (exec_vfBar2Access_held answers (served h) held ..)
  · exact is_ur (exec_vfBar2Access_held answers (served h) held ..)
  · exact exec_vfBar2Access_beyond answers (served h) free trained beyond
  · exact exec_vfBar2Access_beyond answers (served h) free trained beyond
  · exact (exec_vfBar2Access_within answers (served h) free (.inr inW.1)).trans
      (by rw [State.bar2Do_vf_reserved (served h) vf (vf_base ▸ span) (vf_base ▸ hit)])
  · exact ⟨_, exec_vfBar2Access_within answers (served h) free (.inr inW.1),
      vf_base ▸ State.bar2Do_reads (served h) (vf_base ▸ span) (.inr (vf_base ▸ miss)) (vf_base ▸ awake)⟩
  · exact ⟨_, exec_vfBar2Access_within answers (served h) free (.inr inW.2),
      vf_base ▸ State.bar2Do_writes (served h) (vf_base ▸ span) (vf_base ▸ miss) (vf_base ▸ awake) wf⟩

end Sys2Proof.Machine
end

section
/-! SUPPORT. The boot: what the power that is applied leaves, what each step of R448 sets, and that the training of the ports, which
only posts LINK events while no ring is enabled, changes nothing else. -/
namespace Sys2Proof.Machine

/-! ### Events without an event ring -/

/-- The later state differs in the fabric, what was sent, and the queue of events. -/
structure OnlyLinks (s t : State) : Prop where
  tick : t.tick = s.tick
  clusters : t.clusters = s.clusters
  memory : t.memory = s.memory
  integ : t.integ = s.integ
  host : t.host = s.host
  card : t.card = s.card
  setup : t.setup = s.setup
  jobs : t.sched.jobs = s.sched.jobs
  streams : t.sched.streams = s.sched.streams

theorem OnlyLinks.refl (s : State) : OnlyLinks s s := ⟨rfl, rfl, rfl, rfl, rfl, rfl, rfl, rfl, rfl⟩

theorem OnlyLinks.trans {s t u : State} (h : OnlyLinks s t) (k : OnlyLinks t u) : OnlyLinks s u :=
  ⟨k.tick.trans h.tick, k.clusters.trans h.clusters, k.memory.trans h.memory, k.integ.trans h.integ, k.host.trans h.host,
    k.card.trans h.card, k.setup.trans h.setup, k.jobs.trans h.jobs, k.streams.trans h.streams⟩

/-- Without an enabled event ring the queue keeps its events (R86). -/
theorem State.drainEvents_off {s : State} (off : s.ringEnabled eventRing = false) (n : Nat) : s.drainEvents n = s := by
  cases n with
  | zero => rfl
  | succ n =>
    unfold State.drainEvents
    split
    · rfl
    · simp [State.ringRoom, off]

/-- The registers that say so are the set-up registers. -/
theorem OnlyLinks.off {s t : State} (h : OnlyLinks s t) {r : RingId} (off : s.ringEnabled r = false) : t.ringEnabled r = false := by
  simpa only [State.ringEnabled, State.ringCfg, State.reg, h.setup] using off

theorem State.queueEvents_onlyLinks (s : State) (events held : List Event) (lost : W32) :
    OnlyLinks s { s with sched := { s.sched with events := events, eventsHeld := held, evtLost := lost } } :=
  ⟨rfl, rfl, rfl, rfl, rfl, rfl, rfl, rfl, rfl⟩

theorem State.postEvent_onlyLinks {s : State} (off : s.ringEnabled eventRing = false) (e : Event) : OnlyLinks s (s.postEvent e) := by
  have flushed {t : State} (h : OnlyLinks s t) : OnlyLinks s t.flushEvents := by
    rwa [State.flushEvents, State.drainEvents_off (h.off off)]
  unfold State.postEvent
  dsimp only
  split
  · exact .refl s
  · split
    · split
      · exact flushed (s.queueEvents_onlyLinks ..)
      · exact s.queueEvents_onlyLinks ..
    · split
      · exact flushed (s.queueEvents_onlyLinks ..)
      · split <;> exact s.queueEvents_onlyLinks ..

theorem State.sensorEvent_onlyLinks (s : State) (sensor state : Nat) : OnlyLinks s (s.sensorEvent sensor state) := by
  unfold State.sensorEvent
  split
  · exact ⟨rfl, rfl, rfl, rfl, rfl, rfl, rfl, rfl, rfl⟩
  · exact .refl s

/-- A port that is set changes the fabric only. -/
theorem State.setPort_onlyLinks (s : State) (p : PortId) (x : Port) : OnlyLinks s (s.setPort p x) := ⟨rfl, rfl, rfl, rfl, rfl, rfl, rfl, rfl, rfl⟩

/-- A port that leaves any state for training. -/
theorem State.setLink_onlyLinks {s : State} (off : s.ringEnabled eventRing = false) (p : PortId) : OnlyLinks s (s.setLink p 1) := by
  unfold State.setLink
  split
  · exact .refl s
  · have ne_two : ¬ (1 : Nat) = 2 := by decide
    have ne_five : ¬ (1 : Nat) = 5 := by decide
    simp only [ne_two, ne_five, false_and, if_false, false_or]
    have set := s.setPort_onlyLinks p { (s.port p).endBurst with lstate := 1 }
    exact set.trans ((State.postEvent_onlyLinks (set.off off) _).trans (State.sensorEvent_onlyLinks ..))

theorem State.train_onlyLinks {s : State} (off : s.ringEnabled eventRing = false) (p : PortId) (roost : Bool) :
    OnlyLinks s (s.train p roost) := by
  unfold State.train
  dsimp only
  split
  · exact (s.setPort_onlyLinks p _).trans (State.setLink_onlyLinks (by exact off) p)
  · exact .refl s

/-- Step 8 of R448 for a port: its cable is seen, and with one it begins training. -/
def State.trainCabled (cable : PortId → Bool) (s : State) (p : PortId) : State :=
  (s.modPort p (fun x => { x with cable := cable p })).train p false

theorem State.trainCabled_onlyLinks {s : State} (off : s.ringEnabled eventRing = false) (cable : PortId → Bool) (l : List PortId) :
    OnlyLinks s (l.foldl (State.trainCabled cable) s) := by
  induction l generalizing s with
  | nil => exact .refl s
  | cons p l ih =>
    have trained : OnlyLinks s (s.trainCabled cable p) :=
      (s.setPort_onlyLinks p { s.port p with cable := cable p }).trans (State.train_onlyLinks (by exact off) p false)
    exact trained.trans (ih (trained.off off))

/-! ### The steps of the boot (R448) -/

/-- Step 6 for a slice: a failing one is logged. -/
def State.logFailing (bad : BitVec 64) (s : State) (k : Nat) : State := if bad.getLsbD k then s.logLost 2 k 2 else s

/-- Nothing changes but the log, which stays where every slice passes. -/
theorem State.logFailing_rest (bad : BitVec 64) (l : List Nat) (s : State) : ∃ log logBad next,
    l.foldl (State.logFailing bad) s = { s with integ := { s.integ with log := log, logBad := logBad, logNext := next } }
    ∧ (bad = 0 → log = s.integ.log ∧ next = s.integ.logNext) := by
  induction l generalizing s with
  | nil => exact ⟨s.integ.log, s.integ.logBad, s.integ.logNext, rfl, fun _ => ⟨rfl, rfl⟩⟩
  | cons k l ih =>
    rw [List.foldl_cons, State.logFailing]
    split
    · next lost =>
      obtain ⟨log, logBad, next, e, -⟩ := ih (s.logLost 2 k 2)
      exact ⟨log, logBad, next, e, fun none => by simp [none] at lost⟩
    · exact ih s

/-- Step 7 for a cluster: one of the live map gets power. -/
def State.powerLive (live : BitVec 48) (s : State) (c : ClusterId) : State :=
  if live.getLsbD c.val then s.modCluster c (fun x => { x with powered := true }) else s

theorem State.powerLive_rest (live : BitVec 48) (l : List ClusterId) (s : State) :
    ∃ clusters, l.foldl (State.powerLive live) s = { s with clusters := clusters } := by
  induction l generalizing s with
  | nil => exact ⟨s.clusters, rfl⟩
  | cons c l ih =>
    rw [List.foldl_cons, State.powerLive]
    split
    · exact ih (s.modCluster c (fun x => { x with powered := true }))
    · exact ih s

theorem State.powerLive_powered (live : BitVec 48) (l : List ClusterId) (s : State) (c : ClusterId) :
    ((l.foldl (State.powerLive live) s).cluster c).powered = ((s.cluster c).powered || (decide (c ∈ l) && live.getLsbD c.val)) := by
  induction l generalizing s with
  | nil => simp
  | cons d l ih =>
    rw [List.foldl_cons, ih, State.powerLive]
    by_cases e : c = d
    · subst e
      cases h : live.getLsbD c.val <;> simp
    · split
      · rw [State.modCluster_cluster_ne _ _ _ _ e]
        simp [e]
      · simp [e]

/-- A state whose clusters, ports and slices have come up (steps 6 to 8): with the live map `live` and the failing slices `bad`. -/
structure BroughtUp (live : BitVec 48) (bad : BitVec 64) (s t : State) : Prop where
  tick : t.tick = s.tick
  memory : t.memory = s.memory
  host : t.host = s.host
  card : t.card = s.card
  setup : t.setup = s.setup
  jobs : t.sched.jobs = s.sched.jobs
  streams : t.sched.streams = s.sched.streams
  integ : ∃ log logBad next, t.integ = { s.integ with log := log, logBad := logBad, logNext := next }
    ∧ (bad = 0 → log = s.integ.log ∧ next = s.integ.logNext)
  powered : ∀ c : ClusterId, (t.cluster c).powered = ((s.cluster c).powered || live.getLsbD c.val)

/-- Steps 6 to 8: the failing slices are logged, the live clusters get power, the ports with a cable begin training. -/
theorem bringUp_broughtUp {s : State} (off : s.ringEnabled eventRing = false) (live : BitVec 48) (bad : BitVec 64) (cable : PortId → Bool) :
    BroughtUp live bad s (allPorts.foldl (State.trainCabled cable)
      (allClusters.foldl (State.powerLive live) ((List.range 64).foldl (State.logFailing bad) s))) := by
  obtain ⟨log, logBad, next, logged, quiet⟩ := State.logFailing_rest bad (List.range 64) s
  have powered := State.powerLive_powered live allClusters ((List.range 64).foldl (State.logFailing bad) s)
  obtain ⟨clusters, rest⟩ := State.powerLive_rest live allClusters ((List.range 64).foldl (State.logFailing bad) s)
  rw [rest, logged] at powered ⊢
  have trained := State.trainCabled_onlyLinks (s := { s with
    clusters := clusters
    integ := { s.integ with log := log, logBad := logBad, logNext := next } }) off cable allPorts
  generalize List.foldl _ _ allPorts = t at trained ⊢
  refine ⟨trained.tick, trained.memory, trained.host, trained.card, trained.setup, trained.jobs, trained.streams,
    ⟨log, logBad, next, trained.integ, quiet⟩, fun c => ?_⟩
  rw [State.cluster, trained.clusters]
  refine (powered c).trans ?_
  simp only [allClusters, List.mem_finRange, decide_true, Bool.true_and]
  rfl

/-- What steps 5 to 8 set at once: READY, the live map and the stacks, the dump area and the identity of the image. -/
def State.imageUp (s : State) (b : BootEnv) (img : FlashImage) (slot : Bool) : State :=
  let trained : BitVec 6 := if b.auxPower then b.stacksTrain else 0
  { s with
    card := { s.card with
      device := .ready
      live := if b.auxPower then ~~~ s.integ.retired else 0
      auxPower := b.auxPower
      memOn := trained }
    memory := { s.memory with stacksTrained := trained, slicesLost := if b.auxPower then ~~~ b.slicesPass else 0 }
    integ := { s.integ with
      svn := img.svn
      slot := slot
      dumpBase := dumpBaseOf trained
      dumpState := if trained = 0 then dumpNoArea else dumpNone }
    host := { s.host with fwVersion := img.version, flashSvn := img.svn } }

/-- The boot with an image is what it sets, and then what comes up. -/
theorem State.bootRest_broughtUp {s : State} (off : s.ringEnabled eventRing = false) (b : BootEnv) (img : FlashImage) (slot : Bool) :
    BroughtUp (if b.auxPower then ~~~ s.integ.retired else 0) (if b.auxPower then ~~~ b.slicesPass else 0) (s.imageUp b img slot)
      (s.bootRest b img slot) :=
  bringUp_broughtUp (s := s.imageUp b img slot) off _ _ (fun p => b.cables.getLsbD p.val)

/-! ### What the boot starts from -/

/-- The image in a slot of flash. -/
def bootImage (b : BootEnv) (x : Bool) : FlashImage := if x then b.slot1 else b.slot0

/-- The slot that boots: the active one, or the other where its image is bad (R449). -/
def bootSlot (b : BootEnv) (active : Bool) : Bool := if (bootImage b active).ok then active else !active

/-- The state after steps 1 to 4 of R448. -/
def State.bootStart (s : State) (b : BootEnv) : State := s.activateStaged.bootFirst b

/-- With a good image, its slot boots (R449). -/
theorem State.boot_good {s : State} {b : BootEnv} (h : (bootImage b (s.bootStart b).host.activeSlot).ok = true
    ∨ (bootImage b (!(s.bootStart b).host.activeSlot)).ok = true) : s.boot b
      = (s.bootStart b).bootRest b (bootImage b (bootSlot b (s.bootStart b).host.activeSlot)) (bootSlot b (s.bootStart b).host.activeSlot) := by
  show (if (bootImage b (s.bootStart b).host.activeSlot).ok then _ else if (bootImage b (!(s.bootStart b).host.activeSlot)).ok then _ else _) = _
  unfold bootSlot
  split
  · rfl
  · next bad =>
    rw [if_pos (h.resolve_left bad)]
    rfl

/-- With none, the boot ROM goes on in RECOVERY (R449). -/
theorem State.boot_bad {s : State} {b : BootEnv} (active : (bootImage b (s.bootStart b).host.activeSlot).ok = false)
    (other : (bootImage b (!(s.bootStart b).host.activeSlot)).ok = false) :
    s.boot b = { s.bootStart b with card := { (s.bootStart b).card with device := .recovery } } := by
  show (if (bootImage b (s.bootStart b).host.activeSlot).ok then _ else if (bootImage b (!(s.bootStart b).host.activeSlot)).ok then _ else _) = _
  rw [active, other]
  rfl

/-- No ring is enabled where the power limit is the only set-up register written. -/
theorem ringEnabled_bootStart (s : State) (b : BootEnv) (none : s.setup = Setup.reset) (r : RingId) :
    (s.bootStart b).ringEnabled r = false := by
  have range : 0x40000 ≤ ringCfgOff r ∧ ringCfgOff r < 0x43000 := by
    have := r.isLt
    unfold ringCfgOff ringBaseOff stbBase
    split <;> omega
  have reset : regReset (ringCfgOff r) = 0 := by
    rw [regReset, if_neg (by omega), if_neg (by omega), if_neg (by omega), if_neg (by omega)]
  have unset : (s.bootStart b).reg (ringCfgOff r) = 0 := by
    refine (State.setReg_reg_ne _ _ _ _ (by omega)).trans ?_
    show Table.get (regReset (ringCfgOff r)) s.setup.regs (ringCfgOff r) = 0
    rw [none, reset]
    rfl
  rw [State.ringEnabled, State.ringCfg, unset]
  rfl

/-- The dump area lies in the lowest-numbered stack that trained (R452). -/
theorem dumpBaseOf_lowest {trained : BitVec 6} {i : Nat} (hi : i < 6) (on : trained.getLsbD i = true)
    (lowest : ∀ k, k < i → trained.getLsbD k = false) : dumpBaseOf trained = 2 ^ 33 * (i + 1) - 2 ^ 23 - 2 ^ 28 := by
  have found : (List.range 6).find? (fun k => trained.getLsbD k) = some i :=
    List.find?_range_eq_some.mpr ⟨on, List.mem_range.mpr hi, fun k hk => by simp [lowest k hk]⟩
  rw [dumpBaseOf, found]

/-- The board power limit of the sense pins in watts (R21). -/
theorem boardLimit_watts (b : BootEnv) : (boardLimit b).toNat
    = match b.sense0Open, b.sense1Open with
      | false, false => 600 | true, false => 450 | false, true => 300 | true, true => 150 := by
  unfold boardLimit
  cases b.sense0Open <;> cases b.sense1Open <;> rfl

/-- The state with another error log. -/
def State.withLog (s : State) (log : Table LogEntry) (next : W32) : State :=
  { s with integ := { s.integ with log := log, logNext := next } }

/-- What the boot runs from: a device reset, and steps 1 to 4. -/
def State.resetStart (s : State) (b : BootEnv) (log : Table LogEntry) (next : W32) : State :=
  (s.withLog log next).resetBase.bootStart b

/-- A cold reset is a warm one that finds the log empty (R350, R420). -/
theorem exec_coldReset (b : BootEnv) (s : State) : exec (.coldReset b) s = .next ((s.withLog [] 0).resetBase.boot b) := rfl

theorem exec_warmReset {s : State} (on : s.card.device ≠ .off) (b : BootEnv) :
    exec (.warmReset b) s = .next ((s.withLog s.integ.log s.integ.logNext).resetBase.boot b) := by
  show execWarmReset b s = _
  rw [execWarmReset, if_neg on]
  rfl

theorem exec_warmReset_off {s : State} (off : s.card.device = .off) (b : BootEnv) : exec (.warmReset b) s = .next s := by
  show execWarmReset b s = _
  rw [execWarmReset, if_pos off]

theorem exec_perstDeassert {s : State} (on : s.card.device ≠ .off) (booted : s.card.device ≠ .booting) :
    exec .perstDeassert s = .next { s with host := { s.host with perst := false, linkUp := true } } := by
  show execPerstDeassert s = _
  rw [execPerstDeassert, if_neg (by simp [on, booted])]

/-- The slot that is active once staged images are (R420, R430). -/
def State.nextSlot (s : State) : Bool :=
  if s.host.staged.any (fun x => x.verified && decide (x.component = 1)) then !s.host.activeSlot else s.host.activeSlot

/-- A device reset with a good image brings the device up from where steps 1 to 4 leave it. -/
theorem resetBase_broughtUp {s : State} {b : BootEnv} (log : Table LogEntry) (next : W32)
    (good : (bootImage b s.nextSlot).ok = true ∨ (bootImage b (!s.nextSlot)).ok = true) :
    BroughtUp (if b.auxPower then ~~~ s.integ.retired else 0) (if b.auxPower then ~~~ b.slicesPass else 0)
      ((s.resetStart b log next).imageUp b (bootImage b (bootSlot b s.nextSlot)) (bootSlot b s.nextSlot))
      ((s.withLog log next).resetBase.boot b) := by
  rw [State.boot_good (s := (s.withLog log next).resetBase) good]
  exact State.bootRest_broughtUp (ringEnabled_bootStart (s.withLog log next).resetBase b rfl eventRing) b _ _

/-- One with none ends in RECOVERY. -/
theorem resetBase_recovers {s : State} {b : BootEnv} (log : Table LogEntry) (next : W32)
    (bad : (bootImage b s.nextSlot).ok = false) (other : (bootImage b (!s.nextSlot)).ok = false) :
    (s.withLog log next).resetBase.boot b
      = { s.resetStart b log next with card := { (s.resetStart b log next).card with device := .recovery } } :=
  State.boot_bad bad other

/-! ### O44 -/

/-- Settles O44: both resets boot from what the loss of power leaves, the warm one with the log; `resetBase_broughtUp` and
`resetBase_recovers` say how the boot ends. -/
theorem bootsBringTheDeviceUp : Obligations.BootsBringTheDeviceUp := by
  unfold Obligations.BootsBringTheDeviceUp
  intro b s flips slot img used trained watts base up recovers off quiet
  have boots (log : Table LogEntry) (next : W32) (good : (img slot).ok = true ∨ (img (!slot)).ok = true)
      (t : State) (ht : t = (s.withLog log next).resetBase.boot b) : up t ∧ (quiet → t.integ.log = log ∧ t.integ.logNext = next) := by
    have booted := resetBase_broughtUp (s := s) (b := b) log next good
    rw [← ht] at booted
    obtain ⟨tick, memory, host, card, setup, jobs, streams, ⟨log', logBad, next', integ, kept⟩, powered⟩ := booted
    have no_ring (r : RingId) : t.ringEnabled r = false := by
      have := ringEnabled_bootStart (s.withLog log next).resetBase b rfl r
      rw [State.ringEnabled, State.ringCfg, State.reg, setup]
      exact this
    refine ⟨⟨⟨(congrArg (·.boardW.toNat) card).trans (boardLimit_watts b), congrArg Card.fuseLoaded card, congrArg Card.rootLock card,
          congrArg Integrity.meas integ, congrArg HostSide.link host, (congrArg Integrity.retired integ).trans rfl, congrArg Integrity.talon integ, tick,
          congrArg HostSide.staged host, fun j => congrArg (Table.get none · j.val) jobs,
          fun st => congrArg (Table.get Stream.reset · st.val) streams, no_ring,
          fun a => congrArg (fun m : Memory => Table.get Space.reset m.spaces a.val) memory, (congrArg Card.sites card).trans rfl⟩,
        congrArg Card.device card, congrArg Card.live card, congrArg Memory.stacksTrained memory, congrArg Memory.slicesLost memory,
        fun c => (powered c).trans (congrArg (fun x : Card => x.live.getLsbD c.val) card).symm, congrArg Integrity.slot integ,
        congrArg HostSide.fwVersion host, congrArg Integrity.svn integ, congrArg Integrity.dumpState integ,
        fun i hi on lowest => (congrArg Integrity.dumpBase integ).trans (dumpBaseOf_lowest hi on lowest)⟩,
      fun q => ?_⟩
    obtain ⟨log_eq, next_eq⟩ := kept (by rcases q with aux | pass <;> simp [*])
    exact ⟨(congrArg Integrity.log integ).trans log_eq, (congrArg Integrity.logNext integ).trans next_eq⟩
  have recovered (log : Table LogEntry) (next : W32) (bad : (img slot).ok = false) (other : (img (!slot)).ok = false)
      (t : State) (ht : t = (s.withLog log next).resetBase.boot b) : recovers t := by
    rw [resetBase_recovers log next bad other] at ht
    subst ht
    exact ⟨⟨boardLimit_watts b, rfl, rfl, rfl, rfl, rfl, rfl, rfl, rfl, fun _ => rfl, fun _ => rfl,
      fun r => ringEnabled_bootStart (s.withLog log next).resetBase b rfl r, fun _ => rfl, rfl⟩, rfl, rfl, rfl⟩
  refine ⟨fun good => ⟨⟨_, exec_coldReset b s, boots [] 0 good _ rfl⟩, fun on => ⟨_, exec_warmReset on b, boots _ _ good _ rfl⟩⟩,
    fun bad other => ⟨⟨_, exec_coldReset b s, recovered [] 0 bad other _ rfl⟩, fun on => ⟨_, exec_warmReset on b, recovered _ _ bad other _ rfl⟩⟩,
    fun h => exec_warmReset_off h b, exec_perstDeassert, ⟨_, rfl, ?_⟩, ⟨_, rfl, ?_⟩⟩
  · exact ⟨rfl, rfl, rfl, rfl, rfl, rfl, rfl, rfl, rfl⟩
  · exact ⟨rfl, rfl, rfl, rfl, rfl, rfl, rfl, rfl, rfl⟩

end Sys2Proof.Machine
end

section
/-! SUPPORT. The end of a cluster's reset drains its store buffer first (R446). A store in a span that a MIGRATE has copied to a peer goes
there too (R283); where no live path leads to the peer, the job of the MIGRATE fails (R387, R395), and the job's end releases its masters in
Talon (R305). So one that was held at the cluster under reset resets that cluster again, before its reset has ended (O43). -/
namespace Sys2Proof.Machine

/-- A MIGRATE of the 64 KiB at 16 MiB to device 1 of the fabric, its first segment copied. -/
def migrateToPeer : Desc :=
  { Desc.fresh 0 (BitVec.ofNat 512 (opMigrate + 2 ^ 128 * 0x1000000 + 2 ^ 192 * 0x10000 + 2 ^ 256 * 2 ^ 52 + 2 ^ 320 * 2)) with
    phase := .running, progress := blockSize, stage := 1 }

/-- The entry of its span, at the old target in device memory. -/
def migratingEntry : RangeEntry :=
  { vbase := 0x1000000, length := 0x10000, target := 0x200000, gen := 1, type := tyDevice, r := true, w := true, a := false
    cacheable := false, sealedR := false, counted := false, scratch := false, checkpoint := false, pinned := false, gran := 0
    state := esMigrating, cntIndex := 0 }

/-- A store into the segment that is copied. -/
def storeToCopied : StoreEntry :=
  { target := .device 0x200000, cacheable := false, aspace := 0, va := 0x1000000, size := 8, data := 7, gen := 1 }

/-- Job 0 runs its last attempt on cluster 0, with the MIGRATE on stream 0, and no port carries traffic. Cluster 5, whose Kestrel was
frozen in the attempt before and is dumped, holds no job; it is in reset, its third, since 300 ticks, with the store still in its buffer. -/
def resetOfHeldCluster : State :=
  { State.reset with
    tick := 300
    card := { Card.reset with device := .ready, live := BitVec.allOnes 48 }
    setup := { Setup.reset with regs := [(0x200, 0x81000000)] }
    clusters := [(0, { Cluster.reset with powered := true, job := some (0, 0) }),
      (5, { Cluster.reset with powered := true, storeBuf := [storeToCopied] })]
    sched := { Sched.reset with
      jobs := [(0, some { endedJob with phase := .running, attempt := 1 })]
      streams := [(0, { Stream.reset with enabled := true, phase := .active, descs := [migrateToPeer] })] }
    memory := { Memory.reset with
      stacksTrained := BitVec.allOnes 6
      spaces := [(0, { Space.reset with enabled := true, entries := [migratingEntry] })] }
    integ := { Integrity.reset with
      talon := [{ kind := .kestrel, number := 5, dumped := true, job := some 0, cause := BitVec.ofNat 8 fcRights, release := false }]
      units := [(unitKey ukCluster 5, { epoch := 3, inReset := true, lastTick := some 0, again := false })] } }

/-- What O43 asks of a cluster whose reset ends. -/
theorem resetOfHeldCluster_holds : resetOfHeldCluster.host.b2Held = [] ∧ unitExists 1 5 = true
    ∧ resetOfHeldCluster.unit 1 5 = { epoch := 3, inReset := true, lastTick := some 0, again := false }
    ∧ resetOfHeldCluster.isLive (ClusterId.ofNat' 5) = true := by
  decide +kernel

/-- Draining the store fails job 0, whose end starts the fourth reset of cluster 5. -/
theorem drainStores_resets_heldCluster :
    (resetOfHeldCluster.drainStores 5).job 0 = some { endedJob with phase := .failed, attempt := 1 }
    ∧ (resetOfHeldCluster.drainStores 5).unit 1 5 = { epoch := 4, inReset := true, lastTick := some 300, again := false } := by
  decide +kernel

/-- So the end of the third leaves the cluster in its fourth. -/
theorem unitResetDone_leaves_inReset : Gives (exec (.unitResetDone 1 5) resetOfHeldCluster) (fun t =>
    t.unit 1 5 = { epoch := 4, inReset := true, lastTick := some 300, again := false }) :=
  ⟨_, rfl, by decide +kernel⟩

/-- Refutes O43: the end of a cluster's reset keeps its epoch and leaves it out of reset, the statement says, whatever its store buffer
holds; but in `resetOfHeldCluster` the drain of that buffer fails the job whose end resets the cluster again. -/
theorem not_unitResetsRunTheirCourse : ¬ Obligations.UnitResetsRunTheirCourse := by
  unfold Obligations.UnitResetsRunTheirCourse
  intro h
  obtain ⟨free, cluster, unit, live⟩ := resetOfHeldCluster_holds
  obtain ⟨done, -⟩ := h resetOfHeldCluster
  obtain ⟨t, ht, ended, -⟩ := done 1 5 free cluster (congrArg UnitReset.inReset unit) (fun _ => live)
  obtain ⟨u, hu, again⟩ := unitResetDone_leaves_inReset
  obtain rfl : t = u := Host.Outcome.next.inj (ht.symm.trans hu)
  have in_reset : true = false := congrArg UnitReset.inReset (again.symm.trans ended)
  contradiction

end Sys2Proof.Machine
end
